-- ==== Sys2Proof/Word.lean ====
section
/-!
DEFINITION. The words of the MRU-1600 and the names of its indexed units.
A width that the manual treats as bits is a `BitVec`; a unit's index is a `Fin`.
-/
namespace Sys2Proof

/-- One byte of memory. -/
abbrev Byte := BitVec 8
/-- A 64-bit register word (R32 and every register table). -/
abbrev Word := BitVec 64
/-- One 256-byte row of a tile register or accumulator (R54, R55); byte lane i is bits [8i+7:8i]. -/
abbrev Row := BitVec 2048
/-- A 512-bit descriptor (R118). -/
abbrev Desc := BitVec 512
/-- A 256-bit mask register (R54). -/
abbrev Mask := BitVec 256
/-- Engine number e (R5). -/
abbrev EngIx := Fin 16
/-- Glove number g of an engine (R5). -/
abbrev GlvIx := Fin 4
/-- Wing number w. -/
abbrev WingIx := Fin 4
/-- Host port number p. -/
abbrev PortIx := Fin 4
/-- Hart number h. -/
abbrev HartIx := Fin 4
/-- Tenant number t (R181). -/
abbrev TenIx := Fin 64
/-- Stream number s. -/
abbrev StrmIx := Fin 512
/-- Lease number n. -/
abbrev LeaseIx := Fin 512
/-- Bolt number b. -/
abbrev BoltIx := Fin 4096
/-- Mailbox number: 0-3 the host ports', 4 the firmware's (R181). -/
abbrev MbIx := Fin 5

/-- The wing an engine sits on (R5). -/
def wingOf (e : EngIx) : WingIx := ⟨e.val / 4, by omega⟩

end Sys2Proof
end

