-- ==== Sys2Proof/Syntax.lean ====
section
/-!
DEFINITION. The commands of the block: one constructor of `Instr` per row of spec/opcode_table.json,
in the table's order, with the operands the row's rules name.
-/
namespace Sys2Proof

/-- A glove of an engine. -/
structure GloveRef where
  e : EngIx
  g : GlvIx
  deriving DecidableEq, Repr

/-- The fields of a 64-bit Jenli instruction word other than its opcode (R78, R79):
flags [55:52], A [51:46], B [45:40], destination [39:34], immediate or extension [33:0]. -/
structure JFields where
  flags : BitVec 4
  a : BitVec 6
  b : BitVec 6
  d : BitVec 6
  imm : BitVec 34
  deriving DecidableEq, Repr

/-- How far a tile instruction runs inside the command that issues it: the row steps that its unit
completes before the next command (R61), and whether its load data wait for MEMORY_RESPONSE. -/
structure Pace where
  steps : Nat
  held : Bool
  deriving DecidableEq, Repr

/-- The shared units of an engine (R53, R61). The spatial instructions run on the vector unit. -/
inductive UnitName
  | network | compiler | transpose | gather | array | vector | loadStore
  deriving DecidableEq, Repr

/-- Who writes or reads a register: a host port, or a hart (which counts as port 4, R180). -/
inductive Writer
  | port (p : PortIx)
  | hart (h : HartIx)
  deriving DecidableEq, Repr

/-- A mailbox request (R181, R182): the mailbox, the sequence number written to GO, TENANT of W0, and W1 to W3. -/
structure MbReq where
  mb : MbIx
  seq : Word
  tenant : BitVec 6
  w1 : Word
  w2 : Word
  w3 : Word
  deriving DecidableEq, Repr

/-- The source of a bolt signal or wait (R202, R264). -/
inductive BoltParty
  | glove (gl : GloveRef)
  | stream (s : StrmIx)
  deriving DecidableEq, Repr

/-- A signal that reaches the bolt unit (R203): its source and the amount. -/
structure BoltSig where
  src : BoltParty
  n : BitVec 32
  deriving DecidableEq, Repr

/-- What an eviction or drain acts on (R183): a tenant or one stream. -/
inductive EvictRef
  | tenant (t : TenIx)
  | stream (s : StrmIx)
  deriving DecidableEq, Repr

/-- A target port of the fabric (the tables before R17, R34): a Hall target, or a lane of a wing target. -/
inductive PortId
  | hall (t : Fin 11)
  | wing (w : WingIx) (t : Fin 7) (lane : Fin 16)
  deriving DecidableEq, Repr

/-- A link direction (R7): MO_j or HO (j = 3) of a wing, or the Hall's side of a wing's Hall link. -/
inductive LinkId
  | out (w : WingIx) (j : Fin 4)
  | hallTo (w : WingIx)
  deriving DecidableEq, Repr

/-- A transaction that arrives or waits at a target port: master index, QoS given by its master, the stream it acts for if any,
tenant (64: none), address, bytes, whether it is a write, whether its master says that it acts for an armed tick lease, memory
ID; and, once it has arrived, when it did and its place in the order of issue. -/
structure Req where
  master : Fin 16
  qos : BitVec 4
  strm : Option StrmIx
  tenant : Fin 65
  addr : Nat
  bytes : Nat
  write : Bool
  tick : Bool
  id : Nat
  since : Nat
  order : Nat
  deriving DecidableEq, Repr

/-- The master a response or a fence belongs to: a glove, or a master of the fabric with a memory ID. -/
inductive MasterRef
  | glove (gl : GloveRef)
  | hall (m : Fin 16) (id : Nat)
  | wing (w : WingIx) (m : Fin 8) (id : Nat)
  deriving DecidableEq, Repr

/-- What ECC finds at the location of an access (R48). -/
inductive Ecc
  | clean | single | double
  deriving DecidableEq, Repr

/-- The kind of an access at the accumulate unit (R42, R45). -/
inductive AccKind
  | read (len : Nat)
  | write (bytes : List Byte)
  | update (op : BitVec 4) (ty : BitVec 3) (value : Word)
  deriving DecidableEq, Repr

/-- An access that a wing's accumulate unit accepts: its address, wing master, tenant if any, kind,
what ECC finds, whether it comes from CENSUS or OBS, and whether it is a line fetched ahead of need (R273). -/
structure AccAccess where
  addr : Nat
  master : Fin 8
  tenant : Option TenIx
  kind : AccKind
  ecc : Ecc
  observer : Bool
  ahead : Bool
  deriving DecidableEq, Repr

/-- The kind of a core access (R243); `ahead` is a load of an instruction on a wrong path, at a virtual address (R256). -/
inductive CoreKind
  | fetch
  | ahead (bytes : Nat)
  | load (bytes : Nat)
  | store (bytes : Nat) (v : Word)
  deriving DecidableEq, Repr

/-- A request to the Hall directory (R253): the core, and whether it asks for ownership. -/
structure DirReq where
  core : HartIx
  own : Bool
  deriving DecidableEq, Repr

/-- What the boot ROM reads from the flash (R248, R249): whether SFDP was readable, and the bytes
of the image at offset 0 and at half the density; none: the read failed. -/
structure FlashRead where
  sfdp : Bool
  primary : Option (List Byte)
  secondary : Option (List Byte)
  deriving DecidableEq, Repr

/-- The sensors read once per microsecond (R308): four per die (Hall, WING_0-3), and the stacks. -/
structure TempSample where
  dies : Vector (Vector (BitVec 8) 4) 5
  stackTemps : Vector (BitVec 8) 4
  deriving DecidableEq, Repr

/-- The commands of the block, in the order of the opcode table. -/
inductive Instr
  | nop (gl : GloveRef) (w : JFields)
  | endI (gl : GloveRef) (w : JFields)
  | br (gl : GloveRef) (w : JFields)
  | bc (gl : GloveRef) (w : JFields)
  | jal (gl : GloveRef) (w : JFields)
  | jr (gl : GloveRef) (w : JFields)
  | loop (gl : GloveRef) (w : JFields)
  | scmp (gl : GloveRef) (w : JFields)
  | add (gl : GloveRef) (w : JFields)
  | sub (gl : GloveRef) (w : JFields)
  | mul (gl : GloveRef) (w : JFields)
  | and (gl : GloveRef) (w : JFields)
  | or (gl : GloveRef) (w : JFields)
  | xor (gl : GloveRef) (w : JFields)
  | shl (gl : GloveRef) (w : JFields)
  | shr (gl : GloveRef) (w : JFields)
  | sar (gl : GloveRef) (w : JFields)
  | li (gl : GloveRef) (w : JFields)
  | lih (gl : GloveRef) (w : JFields)
  | dset (gl : GloveRef) (w : JFields)
  | dget (gl : GloveRef) (w : JFields)
  | pset (gl : GloveRef) (w : JFields)
  | pget (gl : GloveRef) (w : JFields)
  | mset (gl : GloveRef) (w : JFields)
  | mget (gl : GloveRef) (w : JFields)
  | bwait (gl : GloveRef) (w : JFields)
  | bsig (gl : GloveRef) (w : JFields)
  | fence (gl : GloveRef) (w : JFields)
  | trel (gl : GloveRef) (w : JFields)
  | rdsr (gl : GloveRef) (w : JFields)
  | reservedOpcode (gl : GloveRef) (op : BitVec 8) (w : JFields)
  | perm (gl : GloveRef) (w : JFields) (p : Pace)
  | pmix (gl : GloveRef) (w : JFields) (p : Pace)
  | brev (gl : GloveRef) (w : JFields) (p : Pace)
  | pgat (gl : GloveRef) (w : JFields) (p : Pace)
  | trn (gl : GloveRef) (w : JFields) (p : Pace)
  | pcomp (gl : GloveRef) (w : JFields) (p : Pace)
  | pcompt (gl : GloveRef) (w : JFields) (p : Pace)
  | gath (gl : GloveRef) (w : JFields) (p : Pace)
  | scat (gl : GloveRef) (w : JFields) (p : Pace)
  | exch (gl : GloveRef) (w : JFields) (p : Pace)
  | ld (gl : GloveRef) (w : JFields) (p : Pace)
  | st (gl : GloveRef) (w : JFields) (p : Pace)
  | ldAcc (gl : GloveRef) (w : JFields) (p : Pace)
  | stAcc (gl : GloveRef) (w : JFields) (p : Pace)
  | relay (gl : GloveRef) (w : JFields) (p : Pace)
  | dld (gl : GloveRef) (w : JFields) (p : Pace)
  | dst (gl : GloveRef) (w : JFields) (p : Pace)
  | sld (gl : GloveRef) (w : JFields) (p : Pace)
  | sst (gl : GloveRef) (w : JFields) (p : Pace)
  | mma (gl : GloveRef) (w : JFields) (p : Pace)
  | mmas (gl : GloveRef) (w : JFields) (p : Pace)
  | vadd (gl : GloveRef) (w : JFields) (p : Pace)
  | vsub (gl : GloveRef) (w : JFields) (p : Pace)
  | vmul (gl : GloveRef) (w : JFields) (p : Pace)
  | vfma (gl : GloveRef) (w : JFields) (p : Pace)
  | vmin (gl : GloveRef) (w : JFields) (p : Pace)
  | vmax (gl : GloveRef) (w : JFields) (p : Pace)
  | vand (gl : GloveRef) (w : JFields) (p : Pace)
  | vor (gl : GloveRef) (w : JFields) (p : Pace)
  | vxor (gl : GloveRef) (w : JFields) (p : Pace)
  | vsh (gl : GloveRef) (w : JFields) (p : Pace)
  | vun (gl : GloveRef) (w : JFields) (p : Pace)
  | vcmp (gl : GloveRef) (w : JFields) (p : Pace)
  | vcred (gl : GloveRef) (w : JFields) (p : Pace)
  | vhred (gl : GloveRef) (w : JFields) (p : Pace)
  | vcvt (gl : GloveRef) (w : JFields) (p : Pace)
  | vquant (gl : GloveRef) (w : JFields) (p : Pace)
  | vdeq (gl : GloveRef) (w : JFields) (p : Pace)
  | vpdep (gl : GloveRef) (w : JFields) (p : Pace)
  | vpext (gl : GloveRef) (w : JFields) (p : Pace)
  | sqz (gl : GloveRef) (w : JFields) (p : Pace)
  | shist (gl : GloveRef) (w : JFields) (p : Pace)
  | spfx (gl : GloveRef) (w : JFields) (p : Pace)
  | sdist (gl : GloveRef) (w : JFields) (p : Pace)
  | suniqCnt (gl : GloveRef) (w : JFields) (p : Pace)
  | suniq (gl : GloveRef) (w : JFields) (p : Pace)
  | shash (gl : GloveRef) (w : JFields) (p : Pace)
  | slabel (gl : GloveRef) (w : JFields) (p : Pace)
  | sboxRoots (gl : GloveRef) (w : JFields) (p : Pace)
  | sboxFold (gl : GloveRef) (w : JFields) (p : Pace)
  | sboxFinish (gl : GloveRef) (w : JFields) (p : Pace)
  | soct (gl : GloveRef) (w : JFields) (p : Pace)
  | snear (gl : GloveRef) (w : JFields) (p : Pace)
  | snearR (gl : GloveRef) (w : JFields) (p : Pace)
  | tmark (gl : GloveRef) (w : JFields) (p : Pace)
  | tdig (gl : GloveRef) (w : JFields) (p : Pace)
  | cread (gl : GloveRef) (w : JFields) (p : Pace)
  | memoryResponse (m : MasterRef)
  | fabricFenceComplete (m : MasterRef)
  | instructionLineFill (gl : GloveRef) (line : BitVec 32) (ahead : Bool)
  | trelEffect (gl : GloveRef)
  | instanceEnd (gl : GloveRef)
  | boltSignalApply (b : BoltIx) (sigs : List BoltSig)
  | boltGrant (b : BoltIx)
  | boltWaitTimeout (b : BoltIx) (who : BoltParty)
  | openT (r : MbReq)
  | closeT (r : MbReq)
  | roomSet (r : MbReq)
  | lease (r : MbReq)
  | leaseFree (r : MbReq)
  | streamOpen (r : MbReq)
  | streamSet (r : MbReq)
  | streamClose (r : MbReq)
  | boltAlloc (r : MbReq)
  | boltFree (r : MbReq)
  | share (r : MbReq)
  | evict (r : MbReq)
  | badRequest (r : MbReq) (code : Byte)
  | mgrDecide (by_ : Writer) (mb : MbIx) (allow : Bool)
  | evictionComplete (x : EvictRef)
  | drainLimitExpiry (x : EvictRef)
  | streamDoorbell (by_ : Writer) (s : StrmIx) (tail : BitVec 32)
  | streamResume (by_ : Writer) (s : StrmIx)
  | streamAbort (by_ : Writer) (s : StrmIx)
  | streamPause (by_ : Writer) (s : StrmIx)
  | commandFetch (s : StrmIx) (hostRecord : BitVec 512) (err : Bool)
  | commandBind
  | sliceExpiry (gl : GloveRef)
  | swapSave (gl : GloveRef)
  | contextRestore (gl : GloveRef)
  | launch (s : StrmIx) (i : BitVec 32)
  | copy (s : StrmIx) (i : BitVec 32) (p : Pace)
  | relayout (s : StrmIx) (i : BitVec 32) (p : Pace)
  | boltSignal (s : StrmIx) (i : BitVec 32)
  | boltWait (s : StrmIx) (i : BitVec 32)
  | armTick (s : StrmIx) (i : BitVec 32)
  | disarmTick (s : StrmIx) (i : BitVec 32)
  | timestamp (s : StrmIx) (i : BitVec 32)
  | fenceCommand (s : StrmIx) (i : BitVec 32)
  | badCommand (s : StrmIx) (i : BitVec 32)
  | completionWrite (s : StrmIx)
  | targetGrant (port : PortId) (arrivals : List Req)
  | requestAged (port : PortId) (k : Nat)
  | qosAgeStep (port : PortId)
  | flitCrcFail (l : LinkId)
  | linkDown (l : LinkId)
  | hallRemapWrite (by_ : Writer) (v : Word)
  | remapDone
  | accUnitAccess (a : AccAccess)
  | detInit (by_ : Writer) (w : WingIx) (k : Fin 4)
  | detInitDone (w : WingIx) (k : Fin 4)
  | eccCntRead (by_ : Writer) (w : WingIx)
  | hallEccRead (by_ : Writer)
  | patrolScrub (w : WingIx) (found : List (Nat × Ecc))
  | hbmTrainingEnd (w : WingIx) (ok : Bool)
  | hbmSelfRefreshEntry (w : WingIx)
  | hbmSelfRefreshExit (w : WingIx)
  | hbmZeroFillDone (w : WingIx)
  | tickEdgeCapture (n : Fin 4) (level : Bool)
  | tickEdgeQualify (n : Fin 4)
  | tickFire (n : Fin 4)
  | sealReadReturn (e : EngIx)
  | graceExpiry (e : EngIx)
  | bypassLaneSend (p : PortIx)
  | wakeEntryDue (i : Fin 64)
  | syncOutPulse
  | engineDozeEntry (e : EngIx)
  | engineNapEntry (e : EngIx)
  | engineSleepEntry (e : EngIx)
  | engineWakeDone (e : EngIx)
  | wingStandbyEntry (w : WingIx)
  | wingWakeDone (w : WingIx)
  | devPwrActive (by_ : Writer)
  | devPwrStandby (by_ : Writer)
  | devPwrOffAo (by_ : Writer)
  | deviceStandbyReached
  | offAoReached
  | deviceActiveReached
  | governorWindow (power : BitVec 16)
  | thermalSample (t : TempSample)
  | emergClear
  | hwdtKick (by_ : Writer)
  | hwdtExpiry
  | powerOnReset
  | porEnd
  | resetNLow
  | resetNHigh
  | pwrGoodLow
  | pwrGoodHigh
  | railUndervoltage (r : Fin 10)
  | hearthUndervoltage
  | warm (by_ : Writer)
  | engineReset (by_ : Writer) (e : EngIx)
  | coreReset (by_ : Writer) (mask : BitVec 4)
  | coreRun (by_ : Writer) (mask : BitVec 4)
  | loadGo (by_ : Writer)
  | bootImageAuth (f : FlashRead)
  | hartMsipStart (h : HartIx)
  | coreMemoryAccess (h : HartIx) (addr : Nat) (k : CoreKind)
  | directoryRequest (line : Nat) (writebacks : List HartIx) (reqs : List DirReq)
  | coreWriteback (h : HartIx) (line : Nat)
  | directoryForward (line : Nat)
  | speculationBarrier (h : HartIx)
  | mtimerInterrupt (h : HartIx)
  | plicClaim (ctx : Fin 8)
  | plicComplete (ctx : Fin 8) (src : Nat)
  | hostInboundRead (p : PortIx) (bar : Fin 3) (off : Nat) (len : Nat)
  | hostInboundWrite (p : PortIx) (bar : Fin 3) (off : Nat) (data : List Byte) (poisoned : Bool)
  | perstAssert (p : PortIx)
  | perstDeassert (p : PortIx)
  | pcieLinkLoss (p : PortIx)
  | hotReset (p : PortIx)
  | linkDisable (p : PortIx)
  | flr (p : PortIx)
  | d3hotEntry (p : PortIx)
  | d0Return (p : PortIx)
  | aspmL1Entry (p : PortIx)
  | portLinkChange (p : PortIx) (speed : BitVec 4) (width : BitVec 3)
  | completionTimeout (p : PortIx) (gl : Option GloveRef)
  | msixUnmask (p : PortIx) (v : Fin 128)
  | flashGo (by_ : Writer)
  | flashCommandDone (data : List Byte)
  | ident
  | temps
  | rails (sample : Vector (BitVec 16 × BitVec 16) 10)
  | alertStat
  | alertMask (write : Option (BitVec 16))
  | alertClr (v : BitVec 16)
  | fuseRecord (d : Fin 5)
  | bbRead (i : Byte)
  | read64 (addr : BitVec 32)
  | wake (v : Byte)
  | alertResponse
  | uartTxPush (by_ : Writer) (b : Byte)
  | uartRxPop (by_ : Writer)
  | uartRxByte (b : Byte)
  | uartTxByte
  | tapReset
  | extest (dr : List Bool)
  | idcode
  | samplePreload (dr : List Bool)
  | clamp
  | highz
  | dtmcs (dr : BitVec 32)
  | dmi (op : BitVec 2) (addr : BitVec 7) (data : BitVec 32)
  | bypass (code : BitVec 5) (tdi : Bool)
  | obsClear (by_ : Writer)
  | traceFlush (by_ : Writer) (c : Fin 17)
  | traceDmaChunk (c : Fin 17)
  | obsWriteIssue
  | samplerDue (k : Fin 4)
  | watchdogExpiry (gl : GloveRef)
  | gloveFrozen (gl : GloveRef)
  | dumpStart
  | dumpComplete
  | hangResume (by_ : Writer) (gl : GloveRef)
  | hangAbort (by_ : Writer) (gl : GloveRef)
  | cellarSlotFree (by_ : Writer) (w : WingIx) (mask : Word)
  | mgrEvqRead (by_ : Writer)
  | registerWrite (by_ : Writer) (addr : Nat) (v : Word)
  | rowStepEnd (e : EngIx) (u : UnitName)
  | hartInstruction (h : HartIx) (enc : BitVec 32)
  | configurationRequest (p : PortIx) (off : Nat) (write : Option (BitVec 32 × BitVec 4))
  | aspmL1Exit (p : PortIx)
  deriving DecidableEq, Repr

end Sys2Proof
end

