-- ==== Sys2Proof/Decode.lean ====
section
/-!
DEFINITION. The command that a word spells. The opcode table gives no bits to any row, so `decodeTableWord` answers
none; a Jenli command carries a 64-bit instruction word, and `decodeJenli` and `encodeJenli` read and write it by the
layout of R79 and the opcode maps of R81, R102, R130, R145, R175 and R275.
-/
namespace Sys2Proof

/-- The command that a word spells by the table's bits: no row of the table gives bits. -/
def decodeTableWord (_nbits _w : Nat) : Option Instr := none

/-- The fields of an instruction word (R79). -/
def fieldsOf (w : Word) : JFields :=
  ⟨w.extractLsb' 52 4, w.extractLsb' 46 6, w.extractLsb' 40 6, w.extractLsb' 34 6, w.extractLsb' 0 34⟩

/-- The opcode of an instruction word. -/
def opcodeOf (w : Word) : BitVec 8 := w.extractLsb' 56 8

/-- An opcode and fields as an instruction word (R79). -/
def packWord (op : BitVec 8) (f : JFields) : Word := op ++ f.flags ++ f.a ++ f.b ++ f.d ++ f.imm

/-- Opcode 0x84: `suniq.cnt`, or with EMIT (bit 6) `suniq` (R175). -/
def decodeSuniq (gl : GloveRef) (p : Pace) (f : JFields) : Instr :=
  if f.imm.getLsbD 6 then .suniq gl f p else .suniqCnt gl f p

/-- Opcode 0x87: `sbox` by PHASE; PHASE 3 is illegal (R175). -/
def decodeSbox (gl : GloveRef) (p : Pace) (f : JFields) : Instr :=
  match f.imm.getLsbD 1, f.imm.getLsbD 0 with
  | false, false => .sboxRoots gl f p
  | false, true => .sboxFold gl f p
  | true, false => .sboxFinish gl f p
  | true, true => .reservedOpcode gl 0x87 f

/-- Opcode 0x89: `snear`, or with RADIUS (bit 9) `snear.r` (R175). -/
def decodeSnear (gl : GloveRef) (p : Pace) (f : JFields) : Instr :=
  if f.imm.getLsbD 9 then .snearR gl f p else .snear gl f p

/-- The command that an instruction word spells on a glove. -/
def decodeJenli (gl : GloveRef) (p : Pace) (w : Word) : Instr :=
  let f := fieldsOf w
  match (opcodeOf w).toNat with
  | 0x00 => .nop gl f
  | 0x01 => .endI gl f
  | 0x02 => .br gl f
  | 0x03 => .bc gl f
  | 0x04 => .jal gl f
  | 0x05 => .jr gl f
  | 0x06 => .loop gl f
  | 0x07 => .scmp gl f
  | 0x08 => .add gl f
  | 0x09 => .sub gl f
  | 0x0A => .mul gl f
  | 0x0B => .and gl f
  | 0x0C => .or gl f
  | 0x0D => .xor gl f
  | 0x0E => .shl gl f
  | 0x0F => .shr gl f
  | 0x10 => .sar gl f
  | 0x11 => .li gl f
  | 0x12 => .lih gl f
  | 0x14 => .dset gl f
  | 0x15 => .dget gl f
  | 0x16 => .pset gl f
  | 0x17 => .pget gl f
  | 0x18 => .mset gl f
  | 0x19 => .mget gl f
  | 0x1A => .bwait gl f
  | 0x1B => .bsig gl f
  | 0x1C => .fence gl f
  | 0x1D => .trel gl f
  | 0x1E => .rdsr gl f
  | 0x20 => .ld gl f p
  | 0x21 => .st gl f p
  | 0x22 => .ldAcc gl f p
  | 0x23 => .stAcc gl f p
  | 0x24 => .relay gl f p
  | 0x28 => .dld gl f p
  | 0x29 => .dst gl f p
  | 0x30 => .sld gl f p
  | 0x31 => .sst gl f p
  | 0x40 => .perm gl f p
  | 0x41 => .pmix gl f p
  | 0x42 => .brev gl f p
  | 0x43 => .pgat gl f p
  | 0x44 => .trn gl f p
  | 0x45 => .pcomp gl f p
  | 0x46 => .pcompt gl f p
  | 0x48 => .gath gl f p
  | 0x49 => .scat gl f p
  | 0x4A => .exch gl f p
  | 0x60 => .mma gl f p
  | 0x61 => .mmas gl f p
  | 0x64 => .vadd gl f p
  | 0x65 => .vsub gl f p
  | 0x66 => .vmul gl f p
  | 0x67 => .vfma gl f p
  | 0x68 => .vmin gl f p
  | 0x69 => .vmax gl f p
  | 0x6A => .vand gl f p
  | 0x6B => .vor gl f p
  | 0x6C => .vxor gl f p
  | 0x6D => .vsh gl f p
  | 0x6E => .vun gl f p
  | 0x6F => .vcmp gl f p
  | 0x70 => .vcred gl f p
  | 0x71 => .vhred gl f p
  | 0x72 => .vcvt gl f p
  | 0x73 => .vquant gl f p
  | 0x74 => .vdeq gl f p
  | 0x75 => .vpdep gl f p
  | 0x76 => .vpext gl f p
  | 0x80 => .sqz gl f p
  | 0x81 => .shist gl f p
  | 0x82 => .spfx gl f p
  | 0x83 => .sdist gl f p
  | 0x84 => decodeSuniq gl p f
  | 0x85 => .shash gl f p
  | 0x86 => .slabel gl f p
  | 0x87 => decodeSbox gl p f
  | 0x88 => .soct gl f p
  | 0x89 => decodeSnear gl p f
  | 0x90 => .tmark gl f p
  | 0x91 => .tdig gl f p
  | 0x92 => .cread gl f p
  | _ => .reservedOpcode gl (opcodeOf w) f

/-- The glove, opcode and fields of a Jenli command; none for a command of another kind. -/
def jenliParts : Instr → Option (GloveRef × BitVec 8 × JFields)
  | .nop gl f => some (gl, 0x00, f)
  | .endI gl f => some (gl, 0x01, f)
  | .br gl f => some (gl, 0x02, f)
  | .bc gl f => some (gl, 0x03, f)
  | .jal gl f => some (gl, 0x04, f)
  | .jr gl f => some (gl, 0x05, f)
  | .loop gl f => some (gl, 0x06, f)
  | .scmp gl f => some (gl, 0x07, f)
  | .add gl f => some (gl, 0x08, f)
  | .sub gl f => some (gl, 0x09, f)
  | .mul gl f => some (gl, 0x0A, f)
  | .and gl f => some (gl, 0x0B, f)
  | .or gl f => some (gl, 0x0C, f)
  | .xor gl f => some (gl, 0x0D, f)
  | .shl gl f => some (gl, 0x0E, f)
  | .shr gl f => some (gl, 0x0F, f)
  | .sar gl f => some (gl, 0x10, f)
  | .li gl f => some (gl, 0x11, f)
  | .lih gl f => some (gl, 0x12, f)
  | .dset gl f => some (gl, 0x14, f)
  | .dget gl f => some (gl, 0x15, f)
  | .pset gl f => some (gl, 0x16, f)
  | .pget gl f => some (gl, 0x17, f)
  | .mset gl f => some (gl, 0x18, f)
  | .mget gl f => some (gl, 0x19, f)
  | .bwait gl f => some (gl, 0x1A, f)
  | .bsig gl f => some (gl, 0x1B, f)
  | .fence gl f => some (gl, 0x1C, f)
  | .trel gl f => some (gl, 0x1D, f)
  | .rdsr gl f => some (gl, 0x1E, f)
  | .reservedOpcode gl op f => some (gl, op, f)
  | .perm gl f _ => some (gl, 0x40, f)
  | .pmix gl f _ => some (gl, 0x41, f)
  | .brev gl f _ => some (gl, 0x42, f)
  | .pgat gl f _ => some (gl, 0x43, f)
  | .trn gl f _ => some (gl, 0x44, f)
  | .pcomp gl f _ => some (gl, 0x45, f)
  | .pcompt gl f _ => some (gl, 0x46, f)
  | .gath gl f _ => some (gl, 0x48, f)
  | .scat gl f _ => some (gl, 0x49, f)
  | .exch gl f _ => some (gl, 0x4A, f)
  | .ld gl f _ => some (gl, 0x20, f)
  | .st gl f _ => some (gl, 0x21, f)
  | .ldAcc gl f _ => some (gl, 0x22, f)
  | .stAcc gl f _ => some (gl, 0x23, f)
  | .relay gl f _ => some (gl, 0x24, f)
  | .dld gl f _ => some (gl, 0x28, f)
  | .dst gl f _ => some (gl, 0x29, f)
  | .sld gl f _ => some (gl, 0x30, f)
  | .sst gl f _ => some (gl, 0x31, f)
  | .mma gl f _ => some (gl, 0x60, f)
  | .mmas gl f _ => some (gl, 0x61, f)
  | .vadd gl f _ => some (gl, 0x64, f)
  | .vsub gl f _ => some (gl, 0x65, f)
  | .vmul gl f _ => some (gl, 0x66, f)
  | .vfma gl f _ => some (gl, 0x67, f)
  | .vmin gl f _ => some (gl, 0x68, f)
  | .vmax gl f _ => some (gl, 0x69, f)
  | .vand gl f _ => some (gl, 0x6A, f)
  | .vor gl f _ => some (gl, 0x6B, f)
  | .vxor gl f _ => some (gl, 0x6C, f)
  | .vsh gl f _ => some (gl, 0x6D, f)
  | .vun gl f _ => some (gl, 0x6E, f)
  | .vcmp gl f _ => some (gl, 0x6F, f)
  | .vcred gl f _ => some (gl, 0x70, f)
  | .vhred gl f _ => some (gl, 0x71, f)
  | .vcvt gl f _ => some (gl, 0x72, f)
  | .vquant gl f _ => some (gl, 0x73, f)
  | .vdeq gl f _ => some (gl, 0x74, f)
  | .vpdep gl f _ => some (gl, 0x75, f)
  | .vpext gl f _ => some (gl, 0x76, f)
  | .sqz gl f _ => some (gl, 0x80, f)
  | .shist gl f _ => some (gl, 0x81, f)
  | .spfx gl f _ => some (gl, 0x82, f)
  | .sdist gl f _ => some (gl, 0x83, f)
  | .suniqCnt gl f _ => some (gl, 0x84, f)
  | .suniq gl f _ => some (gl, 0x84, f)
  | .shash gl f _ => some (gl, 0x85, f)
  | .slabel gl f _ => some (gl, 0x86, f)
  | .sboxRoots gl f _ => some (gl, 0x87, f)
  | .sboxFold gl f _ => some (gl, 0x87, f)
  | .sboxFinish gl f _ => some (gl, 0x87, f)
  | .soct gl f _ => some (gl, 0x88, f)
  | .snear gl f _ => some (gl, 0x89, f)
  | .snearR gl f _ => some (gl, 0x89, f)
  | .tmark gl f _ => some (gl, 0x90, f)
  | .tdig gl f _ => some (gl, 0x91, f)
  | .cread gl f _ => some (gl, 0x92, f)
  | _ => none

/-- The instruction word of a Jenli command. -/
def encodeJenli (i : Instr) : Option Word := (jenliParts i).map fun x => packWord x.2.1 x.2.2

/-- The pace of a tile command; any pace for the others. -/
def paceOf : Instr → Pace
  | .perm _ _ p | .pmix _ _ p | .brev _ _ p | .pgat _ _ p | .trn _ _ p | .pcomp _ _ p | .pcompt _ _ p
  | .gath _ _ p | .scat _ _ p | .exch _ _ p | .ld _ _ p | .st _ _ p | .ldAcc _ _ p | .stAcc _ _ p | .relay _ _ p
  | .dld _ _ p | .dst _ _ p | .sld _ _ p | .sst _ _ p | .mma _ _ p | .mmas _ _ p | .vadd _ _ p | .vsub _ _ p
  | .vmul _ _ p | .vfma _ _ p | .vmin _ _ p | .vmax _ _ p | .vand _ _ p | .vor _ _ p | .vxor _ _ p | .vsh _ _ p
  | .vun _ _ p | .vcmp _ _ p | .vcred _ _ p | .vhred _ _ p | .vcvt _ _ p | .vquant _ _ p | .vdeq _ _ p
  | .vpdep _ _ p | .vpext _ _ p | .sqz _ _ p | .shist _ _ p | .spfx _ _ p | .sdist _ _ p | .suniqCnt _ _ p
  | .suniq _ _ p | .shash _ _ p | .slabel _ _ p | .sboxRoots _ _ p | .sboxFold _ _ p | .sboxFinish _ _ p
  | .soct _ _ p | .snear _ _ p | .snearR _ _ p | .tmark _ _ p | .tdig _ _ p | .cread _ _ p => p
  | _ => ⟨0, false⟩

/-- Whether an opcode is assigned by R81, R102, R130, R145, R175 or R275. -/
def assignedOpcode (op : BitVec 8) : Bool :=
  let n := op.toNat
  (n ≤ 0x12) || (0x14 ≤ n && n ≤ 0x1E) || (0x20 ≤ n && n ≤ 0x24) || n == 0x28 || n == 0x29 || n == 0x30 || n == 0x31
    || (0x40 ≤ n && n ≤ 0x46) || (0x48 ≤ n && n ≤ 0x4A) || n == 0x60 || n == 0x61 || (0x64 ≤ n && n ≤ 0x76)
    || (0x80 ≤ n && n ≤ 0x89) || (0x90 ≤ n && n ≤ 0x92)

end Sys2Proof
end

