-- ==== Sys2Proof/Machine/Bits.lean ====
section
/-!
DEFINITION. Bit fields, byte lists and the elements of a 256-byte row (R78, R118, R126, R127: little-endian).
-/
namespace Sys2Proof.Machine

/-- Bits [hi:lo] of a word, as a number. -/
def fld {n : Nat} (w : BitVec n) (hi lo : Nat) : Nat := (w.toNat >>> lo) % 2 ^ (hi + 1 - lo)

/-- Bit i of a word. -/
def bitAt {n : Nat} (w : BitVec n) (i : Nat) : Bool := w.getLsbD i

/-- A word with bits [lo+width-1:lo] replaced by a number. -/
def setFld {n : Nat} (w : BitVec n) (lo width v : Nat) : BitVec n :=
  (w &&& ~~~(BitVec.ofNat n (2 ^ width - 1) <<< lo)) ||| (BitVec.ofNat n (v % 2 ^ width) <<< lo)

/-- The word that keeps only the bits of `mask`. -/
def keep (w mask : Word) : Word := w &&& mask

/-- One bit as a number. -/
def b2n (b : Bool) : Nat := if b then 1 else 0

/-- A value placed at a bit. -/
def at_ (v lo : Nat) : Word := BitVec.ofNat 64 v <<< lo

/-- The number that a little-endian list of bytes spells. -/
def ofBytes : List Byte → Nat
  | [] => 0
  | b :: bs => b.toNat + 256 * ofBytes bs

/-- The n low bytes of a number, lowest first. -/
def toBytes : Nat → Nat → List Byte
  | 0, _ => []
  | n + 1, v => BitVec.ofNat 8 v :: toBytes n (v / 256)

/-- Element j of a row whose elements are w bits wide. -/
def elt (r : Row) (w j : Nat) : Nat := (r.toNat >>> (w * j)) % 2 ^ w

/-- The number whose w-bit digits are f i, f (i+1), … for n digits, lowest first. -/
def digits (w : Nat) (f : Nat → Nat) : Nat → Nat → Nat
  | _, 0 => 0
  | i, n + 1 => f i % 2 ^ w + 2 ^ w * digits w f (i + 1) n

/-- The row whose elements of w bits are f 0, f 1, …: 2048 / w of them. -/
def rowOf (w : Nat) (f : Nat → Nat) : Row := BitVec.ofNat 2048 (digits w f 0 (2048 / w))

/-- Byte lane i of a row (R54). -/
def lane (r : Row) (i : Nat) : Byte := BitVec.ofNat 8 (elt r 8 i)

/-- The row that holds a list of bytes from lane 0 on, zero elsewhere. -/
def rowOfBytes (bs : List Byte) : Row := BitVec.ofNat 2048 (ofBytes bs)

/-- The first n bytes of a row. -/
def rowBytes (r : Row) (n : Nat) : List Byte := toBytes n r.toNat

/-- A signed reading of the low w bits of a number. -/
def sgn (w v : Nat) : Int := let u := v % 2 ^ w; if u < 2 ^ (w - 1) then u else (u : Int) - 2 ^ w

/-- The low w bits of an integer. -/
def unsgn (w : Nat) (i : Int) : Nat := (i % (2 ^ w : Int)).toNat

/-- A saturating increase of a counter of n bits. -/
def satAdd {n : Nat} (c : BitVec n) (k : Nat) : BitVec n := BitVec.ofNat n (min (2 ^ n - 1) (c.toNat + k))

/-- Replace element i of a vector by a function of it. -/
def vmod {α : Type} {n : Nat} (v : Vector α n) (i : Fin n) (f : α → α) : Vector α n := v.set i.val (f v[i.val]) i.isLt

/-- Replace element i of a vector. -/
def vset {α : Type} {n : Nat} (v : Vector α n) (i : Fin n) (x : α) : Vector α n := v.set i.val x i.isLt

/-- A number below n as an index of n things, zero when it is not. -/
def toFin (n : Nat) (h : 0 < n) (v : Nat) : Fin n := if hv : v < n then ⟨v, hv⟩ else ⟨0, h⟩

/-- The indices of n things, in ascending order. -/
def allFin (n : Nat) : List (Fin n) := List.finRange n

end Sys2Proof.Machine
end

