-- ==== Sys2Proof/Config.lean ====
section
/-!
DEFINITION. What one part fixes and the manual does not state, and the free values of the model.
Every constant here is opaque: it has no body, so no proof can use a value of it (assumption log 2).
-/
namespace Sys2Proof.Config

/-- The byte of the boot ROM at an offset (R12 gives its place, no rule its contents). -/
opaque romByte : Nat → Byte
/-- The word of the fuse identity block at an offset (R340: values are per part). -/
opaque fuseWord : Nat → Word
/-- The byte that a read of host memory returns: the port, the bus address, the draw number.
Host memory belongs to the host (R326). -/
opaque hostByte : Nat → Nat → Nat → Byte
/-- Which of the fp32 values within 1 ulp `vun` gives (R148): the function code and the input bits. -/
opaque vunPick : Nat → Nat → Nat
/-- The result of `vun` where the real function has no value at the input (R148 states none): FN, TYPE, bits. -/
opaque vunOpen : Nat → Nat → Nat → Nat
/-- The code that `st.acc` stores for a source value where R133 states no conversion (FMT BYTE or E8M0): FMT, source bits. -/
opaque convOpen : Nat → Nat → Nat
/-- A field of configuration space that R320 leaves to the PCI Express specification: port, dword offset. -/
opaque cfgOpen : Nat → Nat → BitVec 32
/-- A dword of the AER header log after an error (R320): port, dword offset, how many headers the port has logged. -/
opaque cfgHeader : Nat → Nat → Nat → BitVec 32
/-- The latency in ns that a port reports by LTR while it is free to enter L1 (R320, R328: no rule states it): port. -/
opaque ltr : Nat → Nat
/-- The value a boundary-scan cell samples from its ball: cell number, draw number (R338). -/
opaque ballSample : Nat → Nat → Bool
/-- What stands at a place of a census page that holds several items without R287 giving the place of each: area of the page and offset in
it give the group of the area, the item of the group and the byte of the item. -/
opaque censusPlace : Nat → Nat → Nat × Nat × Nat
/-- A byte of an attic that holds no record at present (R277): its address, TIME. -/
opaque atticOpen : Nat → Nat → Byte
/-- An error that strikes a row of a tile file or an accumulator in a hearth cycle (R58): engine, glove, register, row, whether two bits are
wrong; by TIME and draw number. -/
opaque tileUpset : Nat → Nat → Option (Nat × Nat × Nat × Nat × Bool)
/-- An error that is found in Hall SRAM in a hearth cycle (R350): offset, whether two bits are wrong. -/
opaque sramUpset : Nat → Nat → Option (Nat × Bool)
/-- A double-bit error that is found in a state array in a hearth cycle (R350): the engine, 16 and more the wing, 20 the Hall. -/
opaque stateUpset : Nat → Nat → Option Nat
/-- A byte of the 40-byte shadow entry that stands for an exact sum, whose layout R46 does not state: the sum in units of 2^-149, whether a
NaN, a positive and a negative infinity went in, the byte's place. -/
opaque shadowByte : Int → Bool → Bool → Bool → Nat → Byte
/-- The lane-fc in which a request of a wing waited for a refresh of its HBM (R38, R269): the wing, TIME. -/
opaque hbmRefresh : Nat → Nat → Nat
/-- An unstated value drawn afresh: the draw number. -/
opaque fresh : Nat → Word
/-- The instruction set of the harts leaves a value open: kind, draw number. -/
opaque hartOpen : Nat → Nat → Word

end Sys2Proof.Config
end

