-- ==== Sys2Proof/Machine/Num.lean ====
section
/-!
DEFINITION. Floating-point and integer arithmetic: decoding a code to an exact dyadic value, rounding an exact
value once to nearest even, and the operations of R42, R126, R133, R142, R146-R148 and R153 over them.
-/
namespace Sys2Proof.Machine

/-- How a floating-point format spends its top codes (R126): IEEE (infinities and NaNs), E4M3 (one NaN code, no
infinity), or neither (E2M1). -/
inductive FKind
  | ieee | e4m3 | finite
  deriving DecidableEq, Repr

/-- A floating-point format: exponent bits, mantissa bits, kind. -/
structure FFmt where
  eb : Nat
  mb : Nat
  kind : FKind
  deriving DecidableEq, Repr

/-- The floating-point formats of R126, and binary64 (R272). -/
def fp32 : FFmt := ⟨8, 23, .ieee⟩
def fp64 : FFmt := ⟨11, 52, .ieee⟩
def fp16 : FFmt := ⟨5, 10, .ieee⟩
def bf16 : FFmt := ⟨8, 7, .ieee⟩
def e4m3 : FFmt := ⟨4, 3, .e4m3⟩
def e5m2 : FFmt := ⟨5, 2, .ieee⟩
def e2m1 : FFmt := ⟨2, 1, .finite⟩

/-- Width of a format in bits. -/
def FFmt.width (f : FFmt) : Nat := 1 + f.eb + f.mb
/-- Exponent bias. -/
def FFmt.bias (f : FFmt) : Int := 2 ^ (f.eb - 1) - 1
/-- Exponent of the least normal value. -/
def FFmt.emin (f : FFmt) : Int := 1 - f.bias
/-- The first code above the largest finite one, without sign. -/
def FFmt.topCode (f : FFmt) : Nat :=
  match f.kind with
  | .ieee => (2 ^ f.eb - 1) * 2 ^ f.mb
  | .e4m3 => 2 ^ (f.eb + f.mb) - 1
  | .finite => 2 ^ (f.eb + f.mb)
/-- The canonical NaN without sign (R42, R126, R133, R147). -/
def FFmt.nanCode (f : FFmt) : Nat :=
  match f.kind with
  | .ieee => (2 ^ f.eb - 1) * 2 ^ f.mb + 2 ^ (f.mb - 1)
  | .e4m3 => 2 ^ (f.eb + f.mb) - 1
  | .finite => 0
/-- The sign bit's weight. -/
def FFmt.signW (f : FFmt) : Nat := 2 ^ (f.eb + f.mb)

/-- An exact value: NaN, an infinity, or ± m × 2^e. -/
inductive FV
  | nan (neg : Bool)
  | inf (neg : Bool)
  | fin (neg : Bool) (m : Nat) (e : Int)
  deriving DecidableEq, Repr

/-- The value that a code stands for (R126). -/
def FFmt.decode (f : FFmt) (bits : Nat) : FV :=
  let neg := (bits / f.signW) % 2 == 1
  let body := bits % f.signW
  let ex := body / 2 ^ f.mb
  let mant := body % 2 ^ f.mb
  if body ≥ f.topCode then
    if f.kind = .ieee ∧ mant = 0 then .inf neg else .nan neg
  else if ex = 0 then .fin neg mant (f.emin - f.mb)
  else .fin neg (2 ^ f.mb + mant) (f.emin + ex - 1 - f.mb)

/-- Number of bits of a number. -/
def bitLen (n : Nat) : Nat := if n = 0 then 0 else Nat.log2 n + 1

/-- n divided by 2^d, rounded to nearest even; `sticky` says that the true value is a little above n. -/
def shiftRne (n d : Nat) (sticky : Bool) : Nat :=
  let q := n / 2 ^ d
  let r := n % 2 ^ d
  if d = 0 then q
  else if 2 * r > 2 ^ d ∨ (2 * r = 2 ^ d ∧ (sticky ∨ q % 2 = 1)) then q + 1 else q

/-- The code without sign nearest to m × 2^e (a little more when `sticky`), ties to even, before any overflow. -/
def FFmt.roundMag (f : FFmt) (m : Nat) (e : Int) (sticky : Bool) : Nat :=
  if m = 0 then 0
  else
    let top : Int := e + (bitLen m : Int) - 1
    let q : Int := max top f.emin - f.mb
    let mant := if q ≤ e then m * 2 ^ (e - q).toNat else shiftRne m (q - e).toNat sticky
    if top < f.emin then mant
    else (top - f.emin + 1).toNat * 2 ^ f.mb + mant - 2 ^ f.mb

/-- The code of m × 2^e truncated toward zero, without sign. -/
def FFmt.truncMag (f : FFmt) (m : Nat) (e : Int) : Nat :=
  if m = 0 then 0
  else
    let top : Int := e + (bitLen m : Int) - 1
    let q : Int := max top f.emin - f.mb
    let mant := if q ≤ e then m * 2 ^ (e - q).toNat else m / 2 ^ (q - e).toNat
    if top < f.emin then mant
    else (top - f.emin + 1).toNat * 2 ^ f.mb + mant - 2 ^ f.mb

/-- What a finite value too large for the format becomes: infinity, or (R133) the largest finite value. -/
inductive Overflow
  | toInf | saturate
  deriving DecidableEq, Repr

/-- Round an exact value once to a format. -/
def FFmt.encodeWith (f : FFmt) (o : Overflow) (v : FV) (sticky : Bool := false) : Nat :=
  match v with
  | .nan neg => if f.kind = .e4m3 ∧ neg then f.signW + f.nanCode else f.nanCode
  | .inf neg =>
    let body := if f.kind = .ieee then f.topCode else f.topCode - 1
    if neg then f.signW + body else body
  | .fin neg m e =>
    let body := f.roundMag m e sticky
    let body := if body < f.topCode then body
      else if f.kind = .ieee ∧ o = .toInf then f.topCode else f.topCode - 1
    if neg then f.signW + body else body

/-- Round to a format, overflow giving infinity (R42, R143, R147). -/
def FFmt.encode (f : FFmt) (v : FV) (sticky : Bool := false) : Nat := f.encodeWith .toInf v sticky

/-- An exact dyadic number m × 2^e. -/
structure Dy where
  m : Int
  e : Int
  deriving DecidableEq, Repr

/-- Exact sum. -/
def Dy.add (a b : Dy) : Dy :=
  if a.e ≤ b.e then ⟨a.m + b.m * 2 ^ (b.e - a.e).toNat, a.e⟩ else ⟨a.m * 2 ^ (a.e - b.e).toNat + b.m, b.e⟩
/-- Exact product. -/
def Dy.mul (a b : Dy) : Dy := ⟨a.m * b.m, a.e + b.e⟩
/-- The sign of a − b. -/
def Dy.cmp (a b : Dy) : Ordering :=
  let d := (Dy.add a ⟨-b.m, b.e⟩).m
  if d < 0 then .lt else if d = 0 then .eq else .gt
/-- A dyadic number as an exact value; an exact zero is +0. -/
def Dy.toFV (a : Dy) : FV := .fin (a.m < 0) a.m.natAbs a.e

/-- The dyadic number of a finite value. -/
def FV.dy : FV → Dy
  | .fin neg m e => ⟨if neg then -(m : Int) else m, e⟩
  | _ => ⟨0, 0⟩
/-- The sign of a value. -/
def FV.neg : FV → Bool
  | .nan n => n
  | .inf n => n
  | .fin n _ _ => n
def FV.isNan : FV → Bool
  | .nan _ => true
  | _ => false
def FV.isZero : FV → Bool
  | .fin _ 0 _ => true
  | _ => false
/-- The value with the sign bit inverted. -/
def FV.negate : FV → FV
  | .nan n => .nan !n
  | .inf n => .inf !n
  | .fin n m e => .fin (!n) m e

/-- Exact sum with the IEEE 754 rules for NaN, infinities and zeros. -/
def FV.add (a b : FV) : FV :=
  match a, b with
  | .nan _, _ => .nan false
  | _, .nan _ => .nan false
  | .inf x, .inf y => if x = y then .inf x else .nan false
  | .inf x, _ => .inf x
  | _, .inf y => .inf y
  | .fin x 0 _, .fin y 0 e => .fin (x && y) 0 e
  | a, b => (Dy.add a.dy b.dy).toFV
/-- Exact product with the IEEE 754 rules. -/
def FV.mul (a b : FV) : FV :=
  match a, b with
  | .nan _, _ => .nan false
  | _, .nan _ => .nan false
  | .inf x, .inf y => .inf (x != y)
  | .inf x, .fin y m _ => if m = 0 then .nan false else .inf (x != y)
  | .fin x m _, .inf y => if m = 0 then .nan false else .inf (x != y)
  | .fin x m e, .fin y n f => .fin (x != y) (m * n) (e + f)

/-- Ordering of two values that are not NaN. -/
def FV.cmp (a b : FV) : Ordering :=
  match a, b with
  | .inf x, .inf y => if x = y then .eq else if x then .lt else .gt
  | .inf x, _ => if x then .lt else .gt
  | _, .inf y => if y then .gt else .lt
  | a, b => Dy.cmp a.dy b.dy

/-- IEEE 754 minimumNumber and maximumNumber on codes (R42, R147): the other operand for one NaN, the canonical NaN
for two, −0 below +0. -/
def FFmt.minMax (f : FFmt) (wantMax : Bool) (x y : Nat) : Nat :=
  let a := f.decode x
  let b := f.decode y
  if a.isNan && b.isNan then f.nanCode
  else if a.isNan then y
  else if b.isNan then x
  else
    let less := match FV.cmp a b with
      | .lt => true
      | .gt => false
      | .eq => a.neg && !b.neg
    if less != wantMax then x else y

/-- x + y rounded once (R42, R147). -/
def FFmt.addB (f : FFmt) (x y : Nat) : Nat := f.encode (FV.add (f.decode x) (f.decode y))
/-- x − y rounded once. -/
def FFmt.subB (f : FFmt) (x y : Nat) : Nat := f.encode (FV.add (f.decode x) (f.decode y).negate)
/-- x × y rounded once. -/
def FFmt.mulB (f : FFmt) (x y : Nat) : Nat := f.encode (FV.mul (f.decode x) (f.decode y))
/-- x × y + z rounded once. -/
def FFmt.fmaB (f : FFmt) (x y z : Nat) : Nat := f.encode (FV.add (FV.mul (f.decode x) (f.decode y)) (f.decode z))

/-- Quotient of two magnitudes: m × 2^e and whether something remains. -/
def divMag (m : Nat) (e : Int) (n : Nat) (g : Int) : Nat × Int × Bool :=
  let k := 140 + bitLen n
  ((m * 2 ^ k) / n, e - g - k, (m * 2 ^ k) % n != 0)
/-- x ÷ y rounded once, with the IEEE 754 rules (R161). -/
def FFmt.divB (f : FFmt) (x y : Nat) : Nat :=
  match f.decode x, f.decode y with
  | .nan _, _ => f.nanCode
  | _, .nan _ => f.nanCode
  | .inf _, .inf _ => f.nanCode
  | .inf a, b => f.encode (.inf (a != b.neg))
  | .fin a _ _, .inf b => f.encode (.fin (a != b) 0 0)
  | .fin a m e, .fin b n g =>
    if n = 0 then (if m = 0 then f.nanCode else f.encode (.inf (a != b)))
    else
      let q := divMag m e n g
      f.encode (.fin (a != b) q.1 q.2.1) q.2.2

/-- Integer square root by binary digits from bit i down. -/
def isqrtFrom (n : Nat) : Nat → Nat → Nat
  | 0, r => r
  | i + 1, r => let c := r + 2 ^ i; isqrtFrom n i (if c * c ≤ n then c else r)
/-- Integer square root. -/
def isqrt (n : Nat) : Nat := isqrtFrom n (bitLen n / 2 + 1) 0
/-- Square root of a magnitude: m × 2^e and whether something remains. -/
def sqrtMag (m : Nat) (e : Int) : Nat × Int × Bool :=
  let k : Nat := 280 + (if e % 2 = 0 then 0 else 1)
  let n := m * 2 ^ k
  let r := isqrt n
  (r, (e - k) / 2, r * r != n)

/-! ### Elementary functions in fixed point (R148): the value times 2^P, truncated -/

/-- Fraction bits of the fixed-point work. -/
def fxP : Nat := 640
/-- ln 2 times 2^P: the series 1 / (k 2^k). -/
def fxLn2 : Nat := (List.range 660).foldl (fun a k => a + 2 ^ fxP / ((k + 1) * 2 ^ (k + 1))) 0
/-- exp of x / 2^P for 0 ≤ x < 2^P, times 2^P: n terms of the series. -/
def fxExpTerms (x : Nat) : Nat → Nat → Nat → Nat → Nat
  | 0, _, _, acc => acc
  | n + 1, k, term, acc => let t := term * x / 2 ^ fxP / k; fxExpTerms x n (k + 1) t (acc + t)
def fxExp (x : Nat) : Nat := fxExpTerms x 140 1 (2 ^ fxP) (2 ^ fxP)
/-- n binary digits of log2 of x / 2^P for 1 ≤ x / 2^P < 2, by squaring. -/
def fxLog2Digits : Nat → Nat → Nat → Nat
  | 0, _, acc => acc
  | n + 1, x, acc =>
    let y := x * x / 2 ^ fxP
    if y ≥ 2 ^ (fxP + 1) then fxLog2Digits n (y / 2) (2 * acc + 1) else fxLog2Digits n y (2 * acc)

/-- An approximation from below: sign, m × 2^e, and whether it is exact. -/
structure Approx where
  neg : Bool
  m : Nat
  e : Int
  exact : Bool
  deriving DecidableEq, Repr

/-- 2^x for a finite x. -/
def exp2A (v : Dy) : Approx :=
  let big : Dy := ⟨4096, 0⟩
  if Dy.cmp v big = .gt then ⟨false, 1, 4097, false⟩
  else if Dy.cmp v ⟨-4096, 0⟩ = .lt then ⟨false, 1, -4097, false⟩
  else
    let fx : Int := if 0 ≤ v.e + fxP then v.m * 2 ^ (v.e + fxP).toNat else v.m / 2 ^ (-(v.e + fxP)).toNat
    let n : Int := fx / 2 ^ fxP
    let fr : Nat := (fx % 2 ^ fxP).toNat
    if fr = 0 ∧ 0 ≤ v.e + fxP then ⟨false, 1, n, true⟩
    else ⟨false, fxExp (fr * fxLn2 / 2 ^ fxP), n - fxP, false⟩
/-- log2 of a positive m × 2^e. -/
def log2A (m : Nat) (e : Int) : Approx :=
  let l := bitLen m
  let n : Int := e + l - 1
  if m = 2 ^ (l - 1) then ⟨n < 0, n.natAbs, 0, true⟩
  else
    let fr := fxLog2Digits 200 (m * 2 ^ fxP / 2 ^ (l - 1)) 0
    let tot : Int := n * 2 ^ 200 + fr
    if tot < 0 then ⟨true, (tot.natAbs - 1), -200, false⟩ else ⟨false, tot.natAbs, -200, false⟩
/-- tanh of a finite value with magnitude m × 2^e. -/
def tanhA (neg : Bool) (m : Nat) (e : Int) : Approx :=
  if m = 0 then ⟨neg, 0, 0, true⟩
  else if Dy.cmp ⟨m, e⟩ ⟨100, 0⟩ = .gt then ⟨neg, 2 ^ 200 - 1, -200, false⟩
  else
    let two : Nat := if 0 ≤ e + 1 + fxP then m * 2 ^ (e + 1 + fxP).toNat else m / 2 ^ (-(e + 1 + fxP)).toNat
    let n := two / fxLn2
    let ex := fxExp (two % fxLn2) * 2 ^ n
    ⟨neg, (ex - 2 ^ fxP) * 2 ^ 400 / (ex + 2 ^ fxP), -400, false⟩

/-- An approximation rounded correctly to a format. -/
def Approx.roundTo (a : Approx) (f : FFmt) : Nat := f.encode (.fin a.neg a.m a.e) (!a.exact)
/-- A value within 1 ulp in a format (R148), the one that a pick names: a value that the format holds exactly may be
it or a neighbour; any other lies between two neighbours. -/
def Approx.within1 (a : Approx) (f : FFmt) (pick : Nat) : Nat :=
  let t := f.truncMag a.m a.e
  let holds := a.exact && (f.encode (.fin false a.m a.e) false == t) && (f.decode t).dy.cmp ⟨a.m, a.e⟩ == .eq
  let c := if holds then (if t = 0 then t + pick % 2 else t - 1 + pick % 3) else t + pick % 2
  let c := min c f.topCode
  if a.neg then f.signW + c else c

/-! ### Integers -/

/-- An integer clamped to w bits, signed or not (R133, R146). -/
def clampInt (signed : Bool) (w : Nat) (i : Int) : Nat :=
  let lo : Int := if signed then -(2 ^ (w - 1)) else 0
  let hi : Int := if signed then 2 ^ (w - 1) - 1 else 2 ^ w - 1
  unsgn w (max lo (min hi i))
/-- A dyadic number rounded to an integer, to nearest even. -/
def Dy.roundInt (a : Dy) (sticky : Bool := false) : Int :=
  let n := if 0 ≤ a.e then a.m.natAbs * 2 ^ a.e.toNat else shiftRne a.m.natAbs (-a.e).toNat sticky
  if a.m < 0 then -(n : Int) else n
/-- The greatest integer not above a dyadic number. -/
def Dy.floor (a : Dy) : Int := if 0 ≤ a.e then a.m * 2 ^ a.e.toNat else a.m / 2 ^ (-a.e).toNat

end Sys2Proof.Machine
end

