-- ==== Sys2Proof/Machine/Flags.lean ====
section
/-!
DEFINITION. Condition codes of the scalar instructions (R81) and of `vcmp` (R149). The block has no flag register.
-/
namespace Sys2Proof.Machine

/-- The condition cc of `bc` and `scmp` (R81); none for the codes 6 and 7. -/
def branchCond (cc : Nat) (x y : Word) : Option Bool :=
  match cc with
  | 0 => some (x == y)
  | 1 => some (x != y)
  | 2 => some (x.slt y)
  | 3 => some (!x.slt y)
  | 4 => some (x.ult y)
  | 5 => some (!x.ult y)
  | _ => none

/-- The condition cc of `vcmp` on an ordering, none meaning that an operand is a NaN (R149); none for the codes 6 and 7. -/
def vcond (cc : Nat) (o : Option Ordering) : Option Bool :=
  match cc with
  | 0 => some (o == some .eq)
  | 1 => some (o != some .eq)
  | 2 => some (o == some .lt)
  | 3 => some (o == some .gt || o == some .eq)
  | 4 => some (o == none)
  | 5 => some (o != none)
  | _ => none

end Sys2Proof.Machine
end

