-- ==== Sys2Proof/Machine/State.lean ====
section
/-!
DEFINITION. The state of the block as plain data: every register, queue, buffer, counter, mode and pin
that the manual gives the MRU-1600, the reasons a step can stop, and the state right after POR.
Where a table gives a register's bits, a field here holds the bits that software can write (as one word)
or one named piece of it; Machine/RegRead.lean packs the words that a read returns.
-/
namespace Sys2Proof.Machine

/-- A step of this block never stops with a fault of its own: the part's faults are recorded in its state
(R90, R347). The type has one constructor so that a reason exists; no meaning raises it. -/
inductive Fault
  /-- Raised by no meaning. Safe. -/
  | none
  deriving DecidableEq, Repr

/-- Why a command has no meaning. -/
inductive Refusal
  /-- Raised by an arm of `exec` whose command has no meaning yet. Safe: nothing can be proved of it. -/
  | notModelled (mnemonic : String)
  deriving DecidableEq, Repr

/-! ### Memory -/

/-- Memory contents (R12): the bytes that are not zero, by canonical address, strictly rising; and the poisoned
ECC words and granules (R48), by canonical address, strictly rising. -/
structure MemS where
  cells : List Host.Cell
  poison : List Nat
  deriving DecidableEq, Repr

/-! ### Gloves and engines -/

/-- The tile instructions (opcodes 0x20-0x9F, R62), and the two stream commands that run on a glove's
load/store path (R198). -/
inductive TOp
  | ld | st | ldAcc | stAcc | relay | dld | dst | sld | sst
  | perm | pmix | brev | pgat | trn | pcomp | pcompt | gath | scat | exch
  | mma | mmas | vadd | vsub | vmul | vfma | vmin | vmax | vand | vor | vxor | vsh
  | vun | vcmp | vcred | vhred | vcvt | vquant | vdeq | vpdep | vpext
  | sqz | shist | spfx | sdist | suniqCnt | suniq | shash | slabel | sbox | soct | snear
  | tmark | tdig | cread
  | copy | relayout
  deriving DecidableEq, Repr

/-- A tile register or accumulator (R55, R57): its valid bit, 64 row-written bits, its rows, the rows that hold a double-bit error
(R58, R346), and those that hold a single-bit error, which the next read corrects (R58). -/
structure Tile where
  valid : Bool
  written : BitVec 64
  rows : Vector Row 64
  bad : BitVec 64
  weak : BitVec 64
  deriving DecidableEq, Repr

/-- Where the data of a response goes (R131, R109, R137). -/
inductive RespDest
  | tile (t : Fin 16) (r : Fin 64)
  | acc (a : Fin 4) (r : Fin 64)
  | sreg (d : Fin 32)
  | dreg (k : Fin 16)
  | accept
  deriving DecidableEq, Repr

/-- A transaction of a glove at its master port: first address, bytes, whether it writes. -/
structure GloveReq where
  addr : Nat
  bytes : Nat
  write : Bool
  deriving DecidableEq, Repr

/-- A response that has not yet returned to its glove (R26): its row step, destination, data, whether the
data are poisoned (R49), the fault code of an error response (0: none), the transactions that wait behind
it, and how many of them, from the first on, are outstanding: each holds a memory ID (R63). -/
structure Resp where
  row : Nat
  dest : RespDest
  data : Row
  poisoned : Bool
  err : Byte
  reqs : List GloveReq
  ids : Nat
  deriving DecidableEq, Repr

/-- A tile instruction in flight (R62, R66): the instruction, its fields and PC, the next row step, how many
there are, the descriptors it read at issue (R119), whether its responses wait, the responses outstanding, a
word that the instruction keeps (its transpose bank, B-load steps or mode), the rows completed before a resume, the
cupboard slots it has locked, the scales of tb that an `mmas` has read (R144), and whether the B buffer spared its load (R141). -/
structure Rec where
  op : TOp
  w : JFields
  pc : BitVec 32
  row : Nat
  rows : Nat
  ds : List Desc
  held : Bool
  resp : List Resp
  aux : Nat
  start : Nat
  slots : List Nat
  scales : List Word
  hit : Bool
  deriving DecidableEq, Repr

/-- What a glove waits for. -/
inductive Wait
  | none
  /-- `bwait` (R85): bolt, n, deadline, when it was queued, destination register, the timeout in µs. -/
  | bolt (b : BoltIx) (n : BitVec 32) (deadline : Option Nat) (since : Nat) (d : BitVec 6) (us : Nat)
  /-- `fence` (R87), with the time it issued. -/
  | fence (since : Nat)
  /-- `trel` (R58, R88) waiting for in-flight users. -/
  | trel (tmask : BitVec 16) (amask : BitVec 4)
  /-- `end` (R77) with its STATUS. -/
  | ending (status : BitVec 16)
  /-- The seal decision of a tick run (R218, R219). -/
  | seal
  deriving DecidableEq, Repr

/-- What runs on a glove. -/
inductive RunKind
  | none | launch | copy | relayout | tick
  deriving DecidableEq, Repr

/-- A reuse latch or B-buffer tag (R64, R141): the register code and row, and the row's bytes. -/
structure Latch where
  reg : BitVec 6
  row : Fin 64
  data : Row
  deriving DecidableEq, Repr

/-- The B buffer of a glove (R141). -/
structure BBuf where
  reg : BitVec 6
  rows : List Row
  deriving DecidableEq, Repr

/-- An entry of the collision combiner (R111): address, value, bytes of the element. -/
structure CombEnt where
  addr : Nat
  value : Word
  deriving DecidableEq, Repr

/-- A line of the instruction buffer (R69): offset in the program region, data, and what a fetch of it
found (0, or a fault code that is raised when execution reaches it, R70). -/
structure IBufLine where
  off : BitVec 32
  data : BitVec 512
  err : Byte
  deriving DecidableEq, Repr

/-- HANG of a glove and what the freeze recorded (R281-R286, R290). -/
structure HangS where
  frozen : Bool
  freezing : Bool
  dump : BitVec 2
  noSlot : Bool
  slot : BitVec 6
  action : BitVec 2
  freezes : BitVec 32
  frozenAt : Word
  lastProgress : Word
  bolt : Option (BoltIx × BitVec 32 × Nat × BitVec 6)
  deriving DecidableEq, Repr

/-- A glove: its architectural registers (R55), what runs on it, and its state elements. `woken` is the destination and the result
of a `bwait` that ended while the engine slept with the glove's context saved (R297); `resuming` says that record 0 of a restored
context has still to complete (R68); `swapQos` and `swapLower` are the QoS of the stream for which the context is swapped out (R67), and
whether rule 2 of R192 chose it; `dying` holds the PC of a fault whose older instructions have still to complete (R90); `reqs` are
the transactions of the row step that runs (the model's own; empty between commands). -/
structure Glove where
  s : Vector Word 32
  d : Vector Desc 16
  m : Vector Mask 8
  p : Vector Word 8
  pc : BitVec 32
  trow : BitVec 6
  tile : Vector Tile 16
  acc : Vector Tile 4
  state : BitVec 3
  pinned : Bool
  armed : Bool
  tenant : TenIx
  inflight : List Rec
  wait : Wait
  latchA : Option Latch
  latchB : Option Latch
  bbuf : Option BBuf
  staging : Row
  combiner : List CombEnt
  spatialRows : List Nat
  ibuf : List IBufLine
  kind : RunKind
  strm : StrmIx
  cmdIx : BitVec 32
  rank : BitVec 8
  lease : LeaseIx
  prog : Nat
  regionLen : BitVec 32
  align : Bool
  launchWord : Word
  tickEdge : Word
  elapsed : Word
  boundAt : Word
  gfault : Word
  lastSave : BitVec 16
  lastRestore : BitVec 16
  swaps : BitVec 32
  wdogLimit : BitVec 20
  progressAt : Word
  hang : HangS
  swapping : Bool
  woken : Option (BitVec 6 × Bool)
  resuming : Bool
  dying : Option (BitVec 32)
  swapQos : BitVec 4
  swapLower : Bool
  reqs : List GloveReq
  deriving DecidableEq, Repr

/-- A slot of the cupboard (R99): the compiled pattern is its 256 lane sources (256 stands for ZERO). -/
structure Slot where
  valid : Bool
  kind : BitVec 2
  key : BitVec 40
  tenant : TenIx
  num : BitVec 56
  age : Nat
  lock : Nat
  route : List Nat
  deriving DecidableEq, Repr

/-- A bank of the transpose buffer (R107): the glove that holds it, and its rows. -/
structure Bank where
  holder : Option GlvIx
  rows : Vector Row 64
  deriving DecidableEq, Repr

/-- The phases of a tick run (R217-R219). -/
inductive TickPhase
  | idle | sealRead | grace (deadline : Nat) | running
  deriving DecidableEq, Repr

/-- The tick lease of an engine (R213, R229), with the time at which it was armed, and its run in progress. -/
structure TickS where
  armed : Bool
  armedAt : Nat
  lease : LeaseIx
  pin : Fin 4
  spilled : Bool
  sealEn : Bool
  skip : Bool
  chains : BitVec 4
  expect : BitVec 32
  grace : Nat
  sealOff : BitVec 32
  args : Vector Word 4
  prog : Nat
  regionLen : BitVec 32
  entry : BitVec 32
  strm : StrmIx
  tag : BitVec 16
  first : Bool
  runSeq : BitVec 32
  phase : TickPhase
  seen : BitVec 32
  fresh : Bool
  stale : Bool
  queued : Bool
  void : Bool
  skipped : Bool
  faulted : Bool
  firedAt : Word
  laneDone : Bool
  disarm : Option (Option (StrmIx × BitVec 32))
  overruns : BitVec 16
  staleCnt : BitVec 16
  skips : BitVec 12
  faults : BitVec 8
  voids : BitVec 8
  bound : BitVec 32
  lastNs : BitVec 32
  maxNs : BitVec 32
  deriving DecidableEq, Repr

/-- An engine (R53): its gloves and the shared state of its units. `keeps` names for each unit the glove whose stalled row step keeps it
(R63). `work` are the ec that its network, array, gather/scatter unit and
vector unit, and its context moves, have still to run in, and that their busy counters have still to count (R235). -/
structure Engine where
  gloves : Vector Glove 4
  issuePtr : GlvIx
  unitPtr : Vector GlvIx 7
  keeps : Vector (Option GlvIx) 7
  cupboard : Vector Slot 64
  compileCnt : BitVec 56
  banks : Vector Bank 3
  tick : TickS
  pwr : Word
  pwrState : BitVec 3
  step : BitVec 2
  waking : Bool
  saved : Vector Bool 4
  holdUntil : Nat
  tickHold : Bool
  counters : Vector (BitVec 48) 21
  work : Vector Nat 5
  attic : List (BitVec 128)
  deriving DecidableEq, Repr

/-! ### Wings -/

/-- A link direction (R30, R31): down, consecutive failed replays, the replays counted, credits in use per
channel, and when the last flit failed its CRC. -/
structure Link where
  down : Bool
  fails : Nat
  retries : Nat
  reqUsed : Nat
  rspUsed : Nat
  failAt : Nat
  deriving DecidableEq, Repr

/-- A line of the combining buffer (R43), most recently used first in its list: its local line number, whether it is dirty, and
the masters whose writes it holds that the stack does not (R29), by the code of `AccSrc`. -/
structure CombLine where
  line : Nat
  dirty : Bool
  writers : List Nat
  deriving DecidableEq, Repr

/-- The exact sum of one element of a deterministic-order window (R46, R47), in units of 2^-149; a NaN and the
infinities that went in. -/
structure DetSum where
  addr : Nat
  sum : Int
  nan : Bool
  pinf : Bool
  ninf : Bool
  deriving DecidableEq, Repr

/-- A deterministic-order window (R46, R51). -/
structure DetWin where
  base : Word
  limit : Word
  shadow : Word
  ctl : Word
  initing : Bool
  initDone : Bool
  sums : List DetSum
  deriving DecidableEq, Repr

/-- A watchpoint (R273, R276). -/
structure Watch where
  base : Word
  limit : Word
  ctl : Word
  hits : BitVec 32
  deriving DecidableEq, Repr

/-- A memory ring (R266, R276): BASE and LOG2SIZE as one word, the write and read counts. -/
structure Ring where
  cfg : Word
  write : BitVec 32
  read : BitVec 32
  deriving DecidableEq, Repr

/-- A wing: switch, memories, accumulate unit, observation and power (R32, R51, R276, R317, R357). -/
structure Wing where
  arbMode : Word
  prio : Vector Word 7
  pinLo : Word
  pinHi : Word
  trained : Bool
  training : Bool
  selfRefresh : Bool
  trainFail : Bool
  filled : Bool
  hot : Bool
  temp : BitVec 8
  cePantry : BitVec 16
  ceHbm : BitVec 16
  uePantry : BitVec 8
  ueHbm : BitVec 8
  accPoisoned : BitVec 8
  ueAddr : Word
  scrub : Word
  det : Vector DetWin 4
  comb : List CombLine
  presence : List Nat
  links : Vector Link 4
  dig : Bool
  watchPend : BitVec 16
  digRing : Ring
  digPend : List (BitVec 512)
  wp : Vector Watch 16
  counters : Vector (BitVec 48) 12
  pwr : Word
  pwrState : BitVec 2
  sleepBase : Word
  cellar : Word
  cellarUsed : Word
  deriving DecidableEq, Repr

/-! ### Hall and fabric -/

/-- A target or lane port (R21, R22, R201): the waiting requests in order of arrival, the rotating pointer, the tenant
pointer, the virtual times of the 64 tenants and the system tenant, the grants it has made. -/
structure PortSt where
  port : PortId
  waiting : List Req
  ptr : Fin 16
  tptr : Fin 65
  vt : Vector Nat 65
  deriving DecidableEq, Repr

/-- A granted transaction whose response has not left (R24, R25, R234). -/
structure Txn where
  port : PortId
  req : Req
  deriving DecidableEq, Repr

/-- An access that has arrived and waits for its target (R16, R40, R41, R47), or behind an earlier posted write of its host port (R27):
an inbound read or write of a port, with the tenant whose room admits it (none: a register), or an access at a wing. -/
inductive HeldAcc
  | read (p : PortIx) (t : Option TenIx) (a n : Nat)
  | write (p : PortIx) (t : Option TenIx) (a : Nat) (bs : List Byte) (poisoned : Bool)
  | acc (a : AccAccess)
  deriving DecidableEq, Repr

/-- The Hall's fabric (R15-R32). `held` are the accesses that wait, oldest first; `issued` numbers the transactions in issue order. -/
structure Hall where
  remap : Bool
  remapNew : Option Bool
  arbMode : Word
  prio : Vector Word 11
  ports : List PortSt
  txns : List Txn
  held : List HeldAcc
  issued : Nat
  toWing : Vector Link 4
  ceSram : BitVec 16
  ueSram : BitVec 8
  ueState : BitVec 8
  ueAddr : Word
  deriving DecidableEq, Repr

/-! ### Tenancy -/

/-- A room (R186, R207). -/
structure Room where
  valid : Bool
  perm : BitVec 5
  base : BitVec 36
  limit : BitVec 36
  guest : BitVec 6
  guestEn : Bool
  deriving DecidableEq, Repr

/-- A tenant's entry (R207) and its eviction in progress (R205). -/
structure Tenant where
  isOpen : Bool
  port : MbIx
  share : BitVec 8
  evicting : Bool
  cause : BitVec 32
  reply : Option MbIx
  began : Nat
  roomViol : BitVec 16
  openSeq : BitVec 32
  rooms : Vector Room 16
  deriving DecidableEq, Repr

/-- Where a command of a stream stands (R196). -/
inductive CmdPhase
  | fetched | started | running | done
  deriving DecidableEq, Repr

/-- A fetched command of a stream: index, 64-byte record, phase, what its completion will say (R199), the time it became
ready plus 1 (0: not ready), when it was bound, when a swap-out for it began (0: none), and whether it was ended by an abort
of its stream, which does not put the stream in ERROR; `align` is the alignment mode of its stream when it was bound (R122). -/
structure Cmd where
  index : BitVec 32
  record : BitVec 512
  phase : CmdPhase
  status : Byte
  detail : Word
  detail2 : Word
  spilled : Bool
  readyAt : Nat
  boundAt : Nat
  swapAt : Nat
  quiet : Bool
  align : Bool
  deriving DecidableEq, Repr

/-- A stream (R193-R196, R207). -/
structure Stream where
  isOpen : Bool
  tenant : TenIx
  cls : BitVec 2
  qos : BitVec 4
  align : Bool
  abort : Bool
  loc : Bool
  logSize : BitVec 4
  vector : BitVec 7
  state : BitVec 3
  doorbellBad : Bool
  head : BitVec 32
  tail : BitVec 32
  tailReg : BitVec 32
  ctl : BitVec 3
  ringBase : Word
  complBase : Word
  relayNext : Word
  fetchIx : BitVec 32
  cmds : List Cmd
  draining : Bool
  began : Nat
  reply : Option MbIx
  doors : List (BitVec 32 × Nat)
  deriving DecidableEq, Repr

/-- What the scheduler keeps of a launch whose context is saved (R122, R192): the command, the instance's rank, launch word and
ELAPSED, its program, when it was saved, and the record of a COPY or RELAYOUT, which no save area holds. -/
structure SavedRun where
  strm : StrmIx
  index : BitVec 32
  home : GloveRef
  rank : BitVec 8
  launchWord : Word
  elapsed : Word
  prog : Nat
  regionLen : BitVec 32
  align : Bool
  savedAt : Nat
  lower : Bool
  recs : List Rec
  deriving DecidableEq, Repr

/-- A lease (R190, R207) and the context of a glove lease (R192). -/
structure Lease where
  valid : Bool
  kind : BitVec 2
  tenant : TenIx
  engine : EngIx
  firstPage : BitVec 7
  pages : BitVec 5
  spilled : Bool
  slot : BitVec 6
  emask : BitVec 16
  resident : Option GlvIx
  saved : Bool
  savedRun : Option SavedRun
  freeing : Option MbIx
  deriving DecidableEq, Repr

/-- A waiter in a bolt's FIFO (R202). -/
structure BWaiter where
  who : BoltParty
  n : BitVec 32
  since : Nat
  deadline : Option Nat
  cmdIx : BitVec 32
  deriving DecidableEq, Repr

/-- A bolt (R202), and the source of the last signal applied to it (R264). -/
structure Bolt where
  count : BitVec 32
  ovf : Bool
  owner : TenIx
  alloc : Bool
  waker : BitVec 16
  fifo : List BWaiter
  deriving DecidableEq, Repr

/-- A mailbox page (R181), with the copy of REQ that the scheduler works on. -/
structure Mailbox where
  req : Vector Word 8
  held : Vector Word 8
  go : Word
  busy : Bool
  collide : Bool
  doneSeq : BitVec 32
  rsp : Vector Word 8
  deriving DecidableEq, Repr

/-- One running launch of a stream (R75, R91): its instances with whether each has ended, the largest `end`
STATUS, the recorded fault word and its glove, whether an abort without fault is in progress, the times of R199, and
the bytes or the outer index that a COPY or RELAYOUT has reached (R198, R136). -/
structure Launch where
  strm : StrmIx
  index : BitVec 32
  insts : List (GloveRef × BitVec 8 × Bool)
  maxStatus : BitVec 16
  fault : Option Word
  faultOn : Option GloveRef
  aborted : Bool
  queueNs : BitVec 32
  swapNs : BitVec 32
  progress : Nat
  deriving DecidableEq, Repr

/-- Tenants, streams, leases, bolts, mailboxes and the scheduler (R207, R208). -/
structure Tenancy where
  schedCtl : Word
  save : Vector Word 4
  quota : Vector Word 5
  portViol : Vector (BitVec 16) 5
  portDiscard : Vector (BitVec 32) 5
  pend : BitVec 5
  decide : Vector Bool 5
  tenants : Vector Tenant 64
  streams : Vector Stream 512
  leases : Vector Lease 512
  bolts : Vector Bolt 4096
  mbs : Vector Mailbox 5
  launches : List Launch
  vt : Vector Nat 65
  tptr : Fin 65
  strmPtr : Vector StrmIx 64
  tableGen : BitVec 32
  deriving DecidableEq, Repr

/-! ### Hearth -/

/-- An entry of a capture FIFO (R210, R217). -/
structure FifoEnt where
  ts : Word
  fast : Bool
  served : List EngIx
  deriving DecidableEq, Repr

/-- A candidate edge (R209): its timestamp, the leases that were armed when it was captured, and those for which it is an overrun
(R220). -/
structure EdgeCand where
  ts : Word
  armed : List EngIx
  behind : List EngIx
  deriving DecidableEq, Repr

/-- A tick pin (R209-R211): `any` says that an edge has qualified; `moves` are the last levels that the synchroniser has shown, newest
first, with their times. -/
structure TPin where
  ctl : Word
  ovf : Bool
  fast : Bool
  lost : BitVec 16
  edges : BitVec 32
  last : Word
  interval : BitVec 32
  any : Bool
  level : Bool
  moves : List (Nat × Bool)
  cand : Option EdgeCand
  fifo : List FifoEnt
  deriving DecidableEq, Repr

/-- A wake-schedule entry (R304): DUE, word 1 without HOLD's run-time part, PERIOD. -/
structure WakeEnt where
  due : Word
  ctl : Word
  period : Word
  deriving DecidableEq, Repr

/-- A black-box entry (R354). -/
structure BBEnt where
  time : Word
  seq : BitVec 32
  code : Byte
  scope : Byte
  unit : Byte
  tenant : Byte
  count : BitVec 16
  cause : BitVec 16
  info : Word
  deriving DecidableEq, Repr

/-- The hearth (R292, R293, R317, R354, R334, R379): time, power, clocks, pins, wake schedule, black box, SMBus. `gated` says that
a trip holds every other domain off (R310), which TRIPPED outlives; `warmAt` is the time of the manager's last WARM (R312). -/
structure Hearth where
  time : Word
  por : Bool
  pinReset : Bool
  resetN : Bool
  pwrGood : Bool
  mgrStrap : BitVec 2
  bootStrap : BitVec 2
  smbStrap : BitVec 2
  mgrSel : BitVec 2
  bootSrc : BitVec 2
  smbAddr : BitVec 2
  last : BitVec 4
  tripped : Bool
  gated : Bool
  warms : BitVec 32
  warmAt : Option Nat
  devTarget : BitVec 2
  devState : BitVec 2
  refused : Bool
  toward : BitVec 2
  rstCtl : Word
  hwdt : Option Nat
  govCtl : Word
  power : BitVec 16
  step : BitVec 2
  overPower : Bool
  lowWindows : Nat
  thermCtl : Word
  tj : BitVec 8
  warn : Bool
  emerg : Bool
  coolSince : Option Nat
  wake : Vector WakeEnt 64
  tpin : Vector TPin 4
  syncCtl : Word
  syncUntil : Nat
  bb : Vector BBEnt 64
  bbHead : BitVec 6
  bbSeq : BitVec 32
  railStat : BitVec 10
  alertStat : BitVec 6
  alertMask : BitVec 16
  dieTemps : Vector (BitVec 8) 5
  smbOut : List Byte
  deriving DecidableEq, Repr

/-! ### Observation and census -/

/-- A trace channel (R263, R276); `index` is the write index of its attic (R277). -/
structure Tch where
  ctl : Word
  ring : Ring
  lost : BitVec 32
  loss : Bool
  index : Nat
  chunk : List (BitVec 128)
  deriving DecidableEq, Repr

/-- A sampler ring (R271, R276). `clr` names the units whose counters have been cleared since its previous record: the engines, the wings,
the Hall. -/
structure Samp where
  period : BitVec 16
  ring : Ring
  sel : Vector Word 14
  seq : BitVec 32
  clr : BitVec 21
  pend : Option (BitVec 1024)
  lastDue : Nat
  deriving DecidableEq, Repr

/-- The observation block (R263-R277) and the census and dump engine (R284-R290). -/
structure Obs where
  ctl : Word
  tokens : Nat
  remainder : Nat
  tch : Vector Tch 17
  samp : Vector Samp 4
  attic : List (BitVec 128)
  counters : Vector (BitVec 48) 7
  rot : Nat
  censusCtl : Word
  dumpQueue : List GloveRef
  dumping : Option GloveRef
  deriving DecidableEq, Repr

/-! ### Application cores, UART, flash, TAP -/

/-- A hart (R240, R262): PC, registers, mode, CSRs that differ from their reset value, reservation, TLB. -/
structure Hart where
  pc : Word
  x : Vector Word 32
  f : Vector Word 32
  priv : BitVec 2
  csrs : List (Nat × Word)
  wfi : Bool
  inReset : Bool
  inRom : Bool
  halted : Bool
  resv : Option Nat
  tlb : List (Nat × Word)
  msip : Bool
  mtimecmp : Word
  ssip : Bool
  haveReset : Bool
  resumeAck : Bool
  deriving DecidableEq, Repr

/-- The state of a line at the Hall directory (R251). -/
inductive DirSt
  | shared (mask : BitVec 4)
  | owned (core : HartIx)
  deriving DecidableEq, Repr

/-- A pending slot of the directory (R253). -/
structure DirPend where
  line : Nat
  core : HartIx
  own : Bool
  deriving DecidableEq, Repr

/-- The application cores and what hangs on the core platform (R244, R251, R261, R333, R336). Memory holds what a coherent read of
a line returns; `dirty` keeps, for each line that a core holds modified, the bytes that lie behind it until a writeback. `cached`, `l1i`
and `l1d` are the lines of each L2 and of the L1 caches that it includes, the last used first (R242); `dirHeld` are the requests that the
CPU master port holds back, `owing` the lines that a core has received for a store which it has still to complete (R253, R254); `sampIrq`
is the sampler's event (R246). -/
structure Cores where
  harts : Vector Hart 4
  run : BitVec 4
  loadGo : Bool
  coreReset : BitVec 4
  bootEntry : Word
  bootCode : Byte
  bootCopy : Bool
  bootSvn : BitVec 32
  bootWait : Bool
  bootSram : Bool
  win : Word
  plicPrio : Vector (BitVec 3) 160
  plicEn : Vector (BitVec 160) 8
  plicThr : Vector (BitVec 3) 8
  plicClaimed : BitVec 160
  mailboxIrq : Bool
  strmIrq : BitVec 128
  faultIrq : Bool
  sampIrq : Bool
  dir : List (Nat × DirSt)
  dirPtr : HartIx
  dirPend : List DirPend
  dirHeld : List DirPend
  owing : List (HartIx × Nat)
  victim : List (HartIx × Nat)
  cached : Vector (List Nat) 4
  l1i : Vector (List Nat) 4
  l1d : Vector (List Nat) 4
  dirty : Vector (List (Nat × BitVec 512)) 4
  uartTx : List Byte
  uartRx : List Byte
  uartCtl : Word
  uartOverrun : Bool
  uartSent : List Byte
  flashCmd : Word
  flashBusy : Bool
  flashAddr : BitVec 32
  flashData : Vector Byte 256
  tapIr : BitVec 5
  tapDr : List Bool
  tapPins : List Bool
  dmControl : BitVec 32
  dmData : Vector (BitVec 32) 12
  dmProg : Vector (BitVec 32) 8
  dmCmdErr : BitVec 3
  dmSbcs : BitVec 32
  dmSbAddr : Word
  dmSbData : Word
  dmLast : BitVec 41
  deriving DecidableEq, Repr

/-! ### Host ports -/

/-- A posted write that leaves a port: host address, bytes, whether it is poisoned, whether it went by the bypass
lane, the tick engine it came from, and when it entered the lane. -/
structure Tlp where
  addr : Nat
  data : List Byte
  poisoned : Bool
  lane : Bool
  eng : Option EngIx
  since : Nat
  deriving DecidableEq, Repr

/-- A completion sent for an inbound read (R324, R325): status (0 success, 1 UR, 4 CA), data, poisoned. -/
structure Cpl where
  status : BitVec 3
  data : List Byte
  poisoned : Bool
  deriving DecidableEq, Repr

/-- An MSI-X table entry (R327). -/
structure MsixEnt where
  addr : Word
  data : BitVec 32
  mask : Bool
  deriving DecidableEq, Repr

/-- A host port (R320, R327, R328, R332, R357). -/
structure HostPort where
  speed : BitVec 4
  width : BitVec 3
  lstate : BitVec 3
  perst : Bool
  l1Idle : BitVec 16
  linkDowns : BitVec 16
  cplTimeouts : BitVec 16
  inboundRej : BitVec 16
  evt : BitVec 3
  d3hot : Bool
  cfg : List (Nat × BitVec 32)
  msix : Vector MsixEnt 128
  pba : BitVec 128
  lane : List Tlp
  egress : List Tlp
  sent : List Tlp
  vectors : List Nat
  cpls : List Cpl
  cfgOut : List (BitVec 32)
  crs : Bool
  aerStat : BitVec 32
  aerFirst : BitVec 5
  aerLogs : Nat
  deriving DecidableEq, Repr

/-- Fault reporting of the Hall (R348, R349, R357). -/
structure FaultS where
  evq : List Word
  evqOvf : Bool
  sumLo : Word
  sumHi : Word
  errRoute : BitVec 5
  memUe : List Nat
  deriving DecidableEq, Repr

/-! ### The whole block -/

/-- The state of the block. `pending` is the queue of commands that wait, first in first out; `draws` numbers the
free values drawn so far (the model's own field, assumption log 2); `out` holds the bytes that the last read
returned to its reader (the model's own output port, assumption log 3). -/
structure State where
  pending : List Instr
  draws : Nat
  out : List Byte
  mem : MemS
  hall : Hall
  wings : Vector Wing 4
  engines : Vector Engine 16
  ten : Tenancy
  hearth : Hearth
  obs : Obs
  cores : Cores
  ports : Vector HostPort 4
  flt : FaultS
  deriving DecidableEq, Repr

/-! ### Reset values -/

/-- A tile register that is not valid (R57, R76). -/
def Tile.empty : Tile := ⟨false, 0, Vector.replicate 64 0, 0, 0⟩

/-- HANG after reset (R290). -/
def HangS.reset : HangS := ⟨false, false, 0, false, 0, 0, 0, 0, 0, none⟩

/-- A glove after reset: empty (R71, R94, R290); registers as at a launch (R76; log 4). -/
def Glove.reset : Glove where
  s := Vector.replicate 32 0
  d := Vector.replicate 16 0
  m := Vector.replicate 8 0
  p := Vector.replicate 8 0
  pc := 0
  trow := 0
  tile := Vector.replicate 16 Tile.empty
  acc := Vector.replicate 4 Tile.empty
  state := 0
  pinned := false
  armed := false
  tenant := 0
  inflight := []
  wait := .none
  latchA := none
  latchB := none
  bbuf := none
  staging := 0
  combiner := []
  spatialRows := []
  ibuf := []
  kind := .none
  strm := 0
  cmdIx := 0
  rank := 0
  lease := 0
  prog := 0
  regionLen := 0
  align := false
  launchWord := 0
  tickEdge := 0
  elapsed := 0
  boundAt := 0
  gfault := 0
  lastSave := 0
  lastRestore := 0
  swaps := 0
  wdogLimit := 100000
  progressAt := 0
  hang := HangS.reset
  swapping := false
  woken := none
  resuming := false
  dying := none
  swapQos := 0
  swapLower := false
  reqs := []

/-- An empty cupboard slot (R99, R101). -/
def Slot.empty : Slot := ⟨false, 0, 0, 0, 0, 0, 0, []⟩

/-- No tick lease (R229). -/
def TickS.reset : TickS where
  armed := false
  armedAt := 0
  lease := 0
  pin := 0
  spilled := false
  sealEn := false
  skip := false
  chains := 0
  expect := 0
  grace := 0
  sealOff := 0
  args := Vector.replicate 4 0
  prog := 0
  regionLen := 0
  entry := 0
  strm := 0
  tag := 0
  first := true
  runSeq := 0
  phase := .idle
  seen := 0
  fresh := false
  stale := false
  queued := false
  void := false
  skipped := false
  faulted := false
  firedAt := 0
  laneDone := false
  disarm := none
  overruns := 0
  staleCnt := 0
  skips := 0
  faults := 0
  voids := 0
  bound := 0
  lastNs := 0
  maxNs := 0

/-- ENG_e_PWR after reset: DEEPEST 3, DOZE_EC 64, NAP_US 100, SLEEP_US 1,000 (R317). -/
def engPwrReset : Word := 0x3E800644003

/-- An engine after reset. -/
def Engine.reset : Engine where
  gloves := Vector.replicate 4 Glove.reset
  issuePtr := 0
  unitPtr := Vector.replicate 7 0
  keeps := Vector.replicate 7 none
  cupboard := Vector.replicate 64 Slot.empty
  compileCnt := 0
  banks := Vector.replicate 3 ⟨none, Vector.replicate 64 0⟩
  tick := TickS.reset
  pwr := engPwrReset
  pwrState := 0
  step := 0
  waking := false
  saved := Vector.replicate 4 false
  holdUntil := 0
  tickHold := false
  counters := Vector.replicate 21 0
  work := Vector.replicate 5 0
  attic := []

/-- A link that is up with every credit free (R30, R31). -/
def Link.up : Link := ⟨false, 0, 0, 0, 0, 0⟩

/-- A window after reset (R51). -/
def DetWin.reset : DetWin := ⟨0, 0, 0, 0, false, false, []⟩

/-- A ring after reset (R276). -/
def Ring.reset : Ring := ⟨0, 0, 0⟩

/-- A wing right after POR: its stack trains and is then filled with zeros (R41, R302). -/
def Wing.reset : Wing where
  arbMode := 0
  prio := Vector.replicate 7 0x924924
  pinLo := 0
  pinHi := 0
  trained := false
  training := true
  selfRefresh := false
  trainFail := false
  filled := false
  hot := false
  temp := 0
  cePantry := 0
  ceHbm := 0
  uePantry := 0
  ueHbm := 0
  accPoisoned := 0
  ueAddr := 0
  scrub := 24
  det := Vector.replicate 4 DetWin.reset
  comb := []
  presence := []
  links := Vector.replicate 4 Link.up
  dig := false
  watchPend := 0
  digRing := Ring.reset
  digPend := []
  wp := Vector.replicate 16 ⟨0, 0, 0, 0⟩
  counters := Vector.replicate 12 0
  pwr := 0x3E80000
  pwrState := 0
  sleepBase := 0
  cellar := 0
  cellarUsed := 0

/-- The Hall right after POR (R32, R357). -/
def Hall.reset : Hall where
  remap := false
  remapNew := none
  arbMode := 0
  prio := Vector.replicate 11 0x924924924924
  ports := []
  txns := []
  held := []
  issued := 0
  toWing := Vector.replicate 4 Link.up
  ceSram := 0
  ueSram := 0
  ueState := 0
  ueAddr := 0

/-- A room that is not in force. -/
def Room.empty : Room := ⟨false, 0, 0, 0, 0, false⟩

/-- A closed tenant entry with its OPEN_SEQ (R207). -/
def Tenant.closed (seq : BitVec 32) : Tenant :=
  ⟨false, 0, 0, false, 0, none, 0, 0, seq, Vector.replicate 16 Room.empty⟩

/-- A closed stream. -/
def Stream.closed : Stream where
  isOpen := false
  tenant := 0
  cls := 0
  qos := 0
  align := false
  abort := false
  loc := false
  logSize := 0
  vector := 0
  state := 0
  doorbellBad := false
  head := 0
  tail := 0
  tailReg := 0
  ctl := 0
  ringBase := 0
  complBase := 0
  relayNext := 0
  fetchIx := 0
  cmds := []
  draining := false
  began := 0
  reply := none
  doors := []

/-- A lease entry that is not held. -/
def Lease.free : Lease := ⟨false, 0, 0, 0, 0, 0, false, 0, 0, none, false, none, none⟩

/-- A free bolt. -/
def Bolt.free : Bolt := ⟨0, false, 0, false, 0, []⟩

/-- A mailbox after reset. -/
def Mailbox.reset : Mailbox := ⟨Vector.replicate 8 0, Vector.replicate 8 0, 0, false, false, 0, Vector.replicate 8 0⟩

/-- PORT_QUOTA with every field full (R185, R207): 64 tenants, 512 streams, 4,096 bolts, 16 ticks, share 255, all engines. -/
def quotaFull : Word :=
  64 ||| (512 <<< 7) ||| (4096 <<< 17) ||| (16 <<< 30) ||| (255 <<< 35) ||| (0xFFFF <<< 43)

/-- The mailbox of the manager that MGR_SEL names (R179, R185). -/
def mgrMb (sel : BitVec 2) : MbIx :=
  if sel = 3 then 4 else ⟨sel.toNat, by have := sel.isLt; omega⟩

/-- The port quotas after POR, PIN or WARM (R185). -/
def quotaReset (sel : BitVec 2) : Vector Word 5 :=
  (Vector.replicate 5 0).set (mgrMb sel).val quotaFull (mgrMb sel).isLt

/-- Tenancy after POR (R207), for a latched MGR_SEL. -/
def Tenancy.reset (sel : BitVec 2) : Tenancy where
  schedCtl := 1000 ||| (100 <<< 16) ||| (64 <<< 32)
  save := Vector.replicate 4 0
  quota := quotaReset sel
  portViol := Vector.replicate 5 0
  portDiscard := Vector.replicate 5 0
  pend := 0
  decide := Vector.replicate 5 false
  tenants := Vector.replicate 64 (Tenant.closed 0)
  streams := Vector.replicate 512 Stream.closed
  leases := Vector.replicate 512 Lease.free
  bolts := Vector.replicate 4096 Bolt.free
  mbs := Vector.replicate 5 Mailbox.reset
  launches := []
  vt := Vector.replicate 65 0
  tptr := 0
  strmPtr := Vector.replicate 64 0
  tableGen := 0

/-- A tick pin right after POR (R211). -/
def TPin.reset : TPin := ⟨25 <<< 8, false, false, 0, 0, 0, 0, false, false, [], none, []⟩

/-- An empty black-box entry (R354). -/
def BBEnt.empty : BBEnt := ⟨0, 0, 0, 0, 0, 0, 0, 0, 0⟩

/-- The hearth right after the end of POR (R292, R317), for the strap levels of the board (log 5). -/
def Hearth.reset (mgr boot smb : BitVec 2) : Hearth where
  time := 0
  por := false
  pinReset := false
  resetN := true
  pwrGood := true
  mgrStrap := mgr
  bootStrap := boot
  smbStrap := smb
  mgrSel := mgr
  bootSrc := boot
  smbAddr := smb
  last := 1
  tripped := false
  gated := false
  warms := 0
  warmAt := none
  devTarget := 0
  devState := 0
  refused := false
  toward := 0
  rstCtl := 1000 <<< 16
  hwdt := none
  govCtl := 75
  power := 0
  step := 0
  overPower := false
  lowWindows := 0
  thermCtl := 100 ||| (110 <<< 8)
  tj := 0
  warn := false
  emerg := false
  coolSince := none
  wake := Vector.replicate 64 ⟨0, 0, 0⟩
  tpin := Vector.replicate 4 TPin.reset
  syncCtl := 10000 <<< 8
  syncUntil := 0
  bb := Vector.replicate 64 BBEnt.empty
  bbHead := 0
  bbSeq := 0
  railStat := 0
  alertStat := 0
  alertMask := 0
  dieTemps := Vector.replicate 5 0
  smbOut := []

/-- A trace channel after reset: GATE 1 (R276). -/
def Tch.reset : Tch := ⟨16, Ring.reset, 0, false, 0, []⟩

/-- A sampler ring after reset (R276). -/
def Samp.reset : Samp := ⟨0, Ring.reset, Vector.replicate 14 0, 0, 0, none, 0⟩

/-- The observation block after reset: BUDGET 20, CREAD_EN 1, a full bucket; DUMP_QOS 4, DUMP_EN 1 (R276, R290). -/
def Obs.reset : Obs where
  ctl := 20 ||| (1 <<< 10)
  tokens := 4096
  remainder := 0
  tch := Vector.replicate 17 Tch.reset
  samp := Vector.replicate 4 Samp.reset
  attic := []
  counters := Vector.replicate 7 0
  rot := 0
  censusCtl := 4 ||| (1 <<< 4)
  dumpQueue := []
  dumping := none

/-- A hart after reset: M-mode, PC 0 (R247); the other registers hold zero (log 6). -/
def Hart.reset (held : Bool) : Hart where
  pc := 0
  x := Vector.replicate 32 0
  f := Vector.replicate 32 0
  priv := 3
  csrs := []
  wfi := false
  inReset := held
  inRom := true
  halted := false
  resv := none
  tlb := []
  msip := false
  mtimecmp := 0
  ssip := false
  haveReset := true
  resumeAck := false

/-- CORE_CTL.RUN after reset (R261): hart 0 runs for BOOT_SRC 0b00 and 0b01. -/
def runReset (boot : BitVec 2) : BitVec 4 := if boot = 0 ∨ boot = 1 then 1 else 0

/-- BOOT_STAT.CODE after reset (R247): STRAP_BAD for BOOT_SRC 0b11, and for 0b10 or 0b01 under MGR_SEL 0b11. -/
def bootCodeReset (mgr boot : BitVec 2) : Byte :=
  if boot = 3 ∨ (mgr = 3 ∧ (boot = 1 ∨ boot = 2)) then 8 else 0

/-- The cores after POR (R244, R247, R261, R333, R336). Under BOOT_SRC 0b00 and 0b01 harts 1-3 wait in the boot
ROM in WFI; hart 0 waits there for LOAD_GO under 0b01. -/
def Cores.reset (mgr boot : BitVec 2) : Cores where
  harts := (Vector.replicate 4 { Hart.reset (boot = 2 ∨ boot = 3) with wfi := (boot = 0 ∨ boot = 1) }).set 0
    { Hart.reset (boot = 2 ∨ boot = 3) with wfi := (mgr = 3 ∧ boot = 1) }
  run := runReset boot
  loadGo := false
  coreReset := 0
  bootEntry := 0
  bootCode := bootCodeReset mgr boot
  bootCopy := false
  bootSvn := 0
  bootWait := (boot = 1 ∧ mgr ≠ 3)
  bootSram := false
  win := 0
  plicPrio := Vector.replicate 160 0
  plicEn := Vector.replicate 8 0
  plicThr := Vector.replicate 8 0
  plicClaimed := 0
  mailboxIrq := false
  strmIrq := 0
  faultIrq := false
  sampIrq := false
  dir := []
  dirPtr := 0
  dirPend := []
  dirHeld := []
  owing := []
  victim := []
  cached := Vector.replicate 4 []
  l1i := Vector.replicate 4 []
  l1d := Vector.replicate 4 []
  dirty := Vector.replicate 4 []
  uartTx := []
  uartRx := []
  uartCtl := 217
  uartOverrun := false
  uartSent := []
  flashCmd := 0
  flashBusy := false
  flashAddr := 0
  flashData := Vector.replicate 256 0
  tapIr := 1
  tapDr := []
  tapPins := []
  dmControl := 0
  dmData := Vector.replicate 12 0
  dmProg := Vector.replicate 8 0
  dmCmdErr := 0
  dmSbcs := 0
  dmSbAddr := 0
  dmSbData := 0
  dmLast := 0

/-- A host port right after POR: link down, PERST_N read as low (R332), every vector masked (R327). -/
def HostPort.reset : HostPort where
  speed := 0
  width := 0
  lstate := 0
  perst := true
  l1Idle := 64
  linkDowns := 0
  cplTimeouts := 0
  inboundRej := 0
  evt := 0
  d3hot := false
  cfg := []
  msix := Vector.replicate 128 ⟨0, 0, true⟩
  pba := 0
  lane := []
  egress := []
  sent := []
  vectors := []
  cpls := []
  cfgOut := []
  crs := false
  aerStat := 0
  aerFirst := 0
  aerLogs := 0

/-- ERR_ROUTE after reset: the manager only (R349). -/
def errRouteReset (sel : BitVec 2) : BitVec 5 := if sel = 3 then 16 else 1 <<< sel.toNat

/-- Fault reporting after reset (R357). -/
def FaultS.reset (sel : BitVec 2) : FaultS := ⟨[], false, 0, 0, errRouteReset sel, []⟩

/-- The block right after the end of POR, on a board that leaves the straps to their pull-downs (R339, log 5):
port 0 is the manager and hart 0 boots from flash. -/
def State.reset : State where
  pending := []
  draws := 0
  out := []
  mem := ⟨[], []⟩
  hall := Hall.reset
  wings := Vector.replicate 4 Wing.reset
  engines := Vector.replicate 16 Engine.reset
  ten := Tenancy.reset 0
  hearth := Hearth.reset 0 0 0
  obs := Obs.reset
  cores := Cores.reset 0 0
  ports := Vector.replicate 4 HostPort.reset
  flt := FaultS.reset 0

end Sys2Proof.Machine
end

