-- ==== Sys2Proof/Machine/Ops.lean ====
section
/-!
DEFINITION. The named operations on the state: updates of one unit, counters (R269), the manager role (R179),
interrupts (R327), the event routes of R344 and R347, the manager event queue (R348) and the black box (R354).
-/
namespace Sys2Proof.Machine

/-! ### One unit of the state -/

/-- Engine e. -/
def State.eng (s : State) (e : EngIx) : Engine := s.engines[e.val]
/-- The glove that a reference names. -/
def State.glv (s : State) (gl : GloveRef) : Glove := (s.eng gl.e).gloves[gl.g.val]
/-- Wing w. -/
def State.wing (s : State) (w : WingIx) : Wing := s.wings[w.val]
/-- Port p. -/
def State.port (s : State) (p : PortIx) : HostPort := s.ports[p.val]
/-- Tenant t. -/
def State.tenant (s : State) (t : TenIx) : Tenant := s.ten.tenants[t.val]
/-- Stream n. -/
def State.stream (s : State) (n : StrmIx) : Stream := s.ten.streams[n.val]
/-- Lease n. -/
def State.lease (s : State) (n : LeaseIx) : Lease := s.ten.leases[n.val]
/-- Bolt b. -/
def State.bolt (s : State) (b : BoltIx) : Bolt := s.ten.bolts[b.val]
/-- Mailbox m. -/
def State.mbox (s : State) (m : MbIx) : Mailbox := s.ten.mbs[m.val]
/-- Hart h. -/
def State.hart (s : State) (h : HartIx) : Hart := s.cores.harts[h.val]

/-- Change engine e. -/
def State.modEng (s : State) (e : EngIx) (f : Engine → Engine) : State := { s with engines := vmod s.engines e f }
/-- Change one glove. -/
def State.modGlv (s : State) (gl : GloveRef) (f : Glove → Glove) : State :=
  s.modEng gl.e fun x => { x with gloves := vmod x.gloves gl.g f }
/-- Change wing w. -/
def State.modWing (s : State) (w : WingIx) (f : Wing → Wing) : State := { s with wings := vmod s.wings w f }
/-- Change port p. -/
def State.modPort (s : State) (p : PortIx) (f : HostPort → HostPort) : State := { s with ports := vmod s.ports p f }
/-- Change the tenancy tables. -/
def State.modTen (s : State) (f : Tenancy → Tenancy) : State := { s with ten := f s.ten }
/-- Change tenant t. -/
def State.modTenant (s : State) (t : TenIx) (f : Tenant → Tenant) : State :=
  s.modTen fun x => { x with tenants := vmod x.tenants t f }
/-- Change stream n. -/
def State.modStream (s : State) (n : StrmIx) (f : Stream → Stream) : State :=
  s.modTen fun x => { x with streams := vmod x.streams n f }
/-- Change lease n. -/
def State.modLease (s : State) (n : LeaseIx) (f : Lease → Lease) : State :=
  s.modTen fun x => { x with leases := vmod x.leases n f }
/-- Change bolt b. -/
def State.modBolt (s : State) (b : BoltIx) (f : Bolt → Bolt) : State :=
  s.modTen fun x => { x with bolts := vmod x.bolts b f }
/-- Change mailbox m. -/
def State.modMb (s : State) (m : MbIx) (f : Mailbox → Mailbox) : State :=
  s.modTen fun x => { x with mbs := vmod x.mbs m f }
/-- Change the hearth. -/
def State.modHearth (s : State) (f : Hearth → Hearth) : State := { s with hearth := f s.hearth }
/-- Change the Hall. -/
def State.modHall (s : State) (f : Hall → Hall) : State := { s with hall := f s.hall }
/-- Change the observation block. -/
def State.modObs (s : State) (f : Obs → Obs) : State := { s with obs := f s.obs }
/-- Change the cores. -/
def State.modCores (s : State) (f : Cores → Cores) : State := { s with cores := f s.cores }
/-- Change one hart. -/
def State.modHart (s : State) (h : HartIx) (f : Hart → Hart) : State :=
  s.modCores fun x => { x with harts := vmod x.harts h f }
/-- Change fault reporting. -/
def State.modFlt (s : State) (f : FaultS → FaultS) : State := { s with flt := f s.flt }
/-- Change a tick lease's engine part. -/
def State.modTick (s : State) (e : EngIx) (f : TickS → TickS) : State := s.modEng e fun x => { x with tick := f x.tick }

/-- TIME in ns (R292). -/
def State.now (s : State) : Nat := s.hearth.time.toNat

/-- A fresh free value (log 2): the drawn word, and the state that has counted the draw. -/
def State.draw (s : State) : Word × State := (Config.fresh s.draws, { s with draws := s.draws + 1 })

/-! ### Counters (R269, R270): none advances while FREEZE is 1 -/

/-- FREEZE of OBS_CTL. -/
def State.frozenCnt (s : State) : Bool := bitAt s.obs.ctl 8

/-- Add k to engine counter i of engine e. -/
def State.engCnt (s : State) (e : EngIx) (i : Fin 21) (k : Nat) : State :=
  if s.frozenCnt then s else s.modEng e fun x => { x with counters := vmod x.counters i (· + BitVec.ofNat 48 k) }
/-- Add k to wing counter 0x40 + i of wing w. -/
def State.wingCnt (s : State) (w : WingIx) (i : Fin 12) (k : Nat) : State :=
  if s.frozenCnt then s else s.modWing w fun x => { x with counters := vmod x.counters i (· + BitVec.ofNat 48 k) }
/-- Add k to Hall counter 0x80 + i. -/
def State.hallCnt (s : State) (i : Fin 7) (k : Nat) : State :=
  if s.frozenCnt then s else s.modObs fun x => { x with counters := vmod x.counters i (· + BitVec.ofNat 48 k) }

/-! ### What hearth cycles do to one unit (R84, R235, R267, R292) -/

/-- Engine cycles in one hearth cycle at a clock step: 1.6, 1.2, 0.8 and 0.4 GHz times 40 ns (R84). -/
def ecPerHc (step : BitVec 2) : Nat :=
  match step.toNat with
  | 0 => 64
  | 1 => 48
  | 2 => 32
  | _ => 16

/-- The clock of an engine runs in RUN only; DOZE and deeper gate it (R297). -/
def Engine.clocked (x : Engine) : Bool := x.pwrState == 0

/-- n ec of a glove: ELAPSED counts while something runs on it. -/
def Glove.passEc (n : Nat) (g : Glove) : Glove :=
  if g.kind = .none ∨ g.hang.frozen then g else { g with elapsed := g.elapsed + BitVec.ofNat 64 n }

/-- The busy counter of each kind of work: PN_BUSY, CA_BUSY, GS_BUSY, VU_BUSY, SWAP_EC. -/
def workCnt : Fin 5 → Fin 21
  | 0 => 3
  | 1 => 4
  | 2 => 6
  | 3 => 7
  | 4 => 9

/-- k hearth cycles of an engine: ECYC counts each ec, and each busy counter the ec in which its unit has work, so that no busy count
rises above the cycle count (R235). -/
def Engine.passHc (frozenCnt : Bool) (k : Nat) (x : Engine) : Engine :=
  if x.clocked then
    let n := k * ecPerHc x.step
    { x with
      gloves := x.gloves.map (Glove.passEc n)
      counters := if frozenCnt then x.counters
        else (allFin 5).foldl (fun c i => vmod c (workCnt i) (· + BitVec.ofNat 48 (min n x.work[i.val])))
          (vmod x.counters 0 (· + BitVec.ofNat 48 n))
      work := x.work.map (· - n) }
  else x

/-- Work of one kind is added to an engine. -/
def State.addWork (s : State) (e : EngIx) (i : Fin 5) (n : Nat) : State :=
  s.modEng e fun x => { x with work := vmod x.work i (· + n) }

/-- The budget meter over 48 fc of each of k hearth cycles: 704 · BUDGET / 1,000 bytes in each fc, at most 4,096 in the bucket (R267). -/
def Obs.refill (k : Nat) (o : Obs) : Obs :=
  let b := min 30 (max 5 (fld o.ctl 4 0))
  let n := o.remainder + k * 48 * 704 * b
  if 4096 ≤ o.tokens + n / 1000 then { o with tokens := 4096, remainder := 0 }
  else { o with tokens := o.tokens + n / 1000, remainder := n % 1000 }

/-- A stored CSR; zero where it has its reset value. -/
def Hart.csr (h : Hart) (n : Nat) : Word :=
  match h.csrs.find? fun c => c.1 == n with
  | some c => c.2
  | none => 0

/-- Store a CSR; a zero is not listed. -/
def Hart.setCsr (h : Hart) (n : Nat) (v : Word) : Hart :=
  let l := h.csrs.filter fun c => c.1 != n
  { h with csrs := if v = 0 then l else (n, v) :: l }

/-- mcycle over 80 cycles of 2.0 GHz in each of k hearth cycles, unless mcountinhibit stops it. -/
def Hart.passHc (k : Nat) (h : Hart) : Hart :=
  if h.inReset || bitAt (h.csr 0x320) 0 then h else h.setCsr 0xB00 (h.csr 0xB00 + BitVec.ofNat 64 (80 * k))

/-! ### The manager role (R179, R180) -/

/-- Whether a writer can issue anything: a hart that is held in reset or waits in WFI cannot (R260). -/
def State.acts (s : State) : Writer → Bool
  | .port _ => true
  | .hart h => !s.cores.harts[h.val].inReset && !s.cores.harts[h.val].wfi

/-- Whether a writer holds the manager role. Firmware holds it from boot on: a hart that still runs the boot ROM is no manager (R247, R249,
R259). -/
def State.isManager (s : State) : Writer → Bool
  | .port p => p.val == s.hearth.mgrSel.toNat
  | .hart h => s.hearth.mgrSel == 3 && s.acts (.hart h) && !s.cores.harts[h.val].inRom

/-- The number under which a writer's port counts (R180): a core counts as port 4. -/
def writerMb : Writer → MbIx
  | .port p => ⟨p.val, by omega⟩
  | .hart _ => 4

/-- The manager's port, when the role is on a port. -/
def State.mgrPort (s : State) : Option PortIx :=
  if s.hearth.mgrSel = 3 then none else some ⟨s.hearth.mgrSel.toNat, s.hearth.mgrSel.isLt⟩

/-! ### MSI-X (R327) -/

/-- MSI-X Enable and Function Mask of the MSI-X capability at 0xB0 (R320): bits 31 and 30 of its first dword. -/
def HostPort.msixOn (p : HostPort) : Bool :=
  match p.cfg.find? (·.1 == 0xB0) with
  | some (_, v) => bitAt v 31 && !bitAt v 30
  | none => false

/-- The port sends vector v once: the message write leaves by the ordinary queue. -/
def HostPort.sendVector (p : HostPort) (v : Fin 128) : HostPort :=
  let en := p.msix[v.val]
  { p with vectors := p.vectors ++ [v.val], egress := p.egress ++ [⟨en.addr.toNat, toBytes 4 en.data.toNat, false, false, none, 0⟩] }

/-- Raise vector v of port p: sent, or its pending bit set when it is masked or MSI-X is disabled (R327). -/
def State.msix (s : State) (p : PortIx) (v : Fin 128) : State :=
  s.modPort p fun x =>
    if x.msixOn && !x.msix[v.val].mask then x.sendVector v else { x with pba := x.pba ||| (1 <<< v.val) }

/-- Raise the VECTOR of a stream: on its tenant's port, or the PLIC source of a firmware tenant (R199, R246). -/
def State.raiseVector (s : State) (n : StrmIx) : State :=
  let st := s.stream n
  let port := (s.tenant st.tenant).port
  if h : port.val < 4 then s.msix ⟨port.val, h⟩ ⟨st.vector.toNat, st.vector.isLt⟩
  else s.modCores fun c => { c with strmIrq := c.strmIrq ||| (1 <<< st.vector.toNat) }

/-! ### Events (R343-R356) -/

/-- An event of R347 or R345: its code, scope, tenant, unit, glove, INFO, CAUSE, the stream whose VECTOR is raised,
and the black box's INFO when it is not the queue word. -/
structure Event where
  code : Byte
  scope : Byte
  tenant : Option TenIx := none
  unit : Nat := 0
  glove : Nat := 0
  info : Nat := 0
  cause : Nat := 0
  strm : Option StrmIx := none
  bbInfo : Option Word := none
  deriving DecidableEq, Repr

/-- The 64-bit queue word of an event (R348), with the OVF bit given. -/
def Event.word (v : Event) (ovf : Bool) : Word :=
  at_ v.code.toNat 0 ||| at_ (b2n ovf) 8 ||| at_ ((v.tenant.map (·.val)).getD 0) 9 ||| at_ (b2n v.tenant.isSome) 15
    ||| at_ (v.unit % 16) 16 ||| at_ (v.glove % 4) 20 ||| at_ (v.info % 2 ^ 32) 32

/-- MSI-X vector 1 to the manager's port (R344); PLIC source 2 follows the queue itself (R348). -/
def State.mgrVector (s : State) : State :=
  match s.mgrPort with
  | some p => s.msix p 1
  | none => s

/-- Route M (R348): queue the event, or, when the queue is full, set its MGR_EVSUM bit. -/
def State.routeM (s : State) (v : Event) : State :=
  if v.code = 0x46 ∧ (s.flt.evq.any fun w => fld w 7 0 == 0x46 && fld w 19 16 == v.unit % 16) then s
  else if s.flt.evq.length < 64 then
    let wasEmpty := s.flt.evq.isEmpty
    let s1 := s.modFlt fun f => { f with evq := f.evq ++ [v.word f.evqOvf], evqOvf := false }
    if wasEmpty then s1.mgrVector else s1
  else s.modFlt fun f =>
    let bit : Word := 1 <<< (v.code.toNat % 64)
    if v.code.toNat < 64 then { f with sumLo := f.sumLo ||| bit, evqOvf := true }
    else { f with sumHi := f.sumHi ||| bit, evqOvf := true }

/-- A bit of PORT_EVT that goes from 0 to 1 sends vector 2 once (R349). -/
def State.setPortEvt (s : State) (p : PortIx) (b : Fin 3) : State :=
  if bitAt (s.port p).evt b.val then s
  else (s.modPort p fun x => { x with evt := x.evt ||| (1 <<< b.val) }).msix p 2

/-- Route D (R344, R349). -/
def State.routeD (s : State) : State :=
  let s1 := (allFin 4).foldl (fun t p => if bitAt t.flt.errRoute p.val then t.setPortEvt p 0 else t) s
  if bitAt s.flt.errRoute 4 then s1.modCores fun c => { c with faultIrq := true } else s1

/-- Route T (R344): the bit of the tenant's port, or PLIC source 3 for a firmware tenant. -/
def State.routeT (s : State) (t : TenIx) (b : Fin 3) : State :=
  let port := (s.tenant t).port
  if h : port.val < 4 then s.setPortEvt ⟨port.val, h⟩ b else s.modCores fun c => { c with faultIrq := true }

/-- Route B (R354, R355): a black-box entry, or COUNT of the newest one for the same CODE, SCOPE and UNIT within 1 ms. -/
def State.routeB (s : State) (v : Event) : State :=
  let s0 := s.modHearth fun h => { h with alertStat := h.alertStat ||| 8 }
  let h := s0.hearth
  let newest := h.bb[(h.bbHead - 1).toNat]
  let unit : Byte := BitVec.ofNat 8 (v.unit % 16 + 16 * (v.glove % 4))
  if newest.seq ≠ 0 ∧ newest.code = v.code ∧ newest.scope = v.scope ∧ newest.unit = unit
      ∧ h.time.toNat < newest.time.toNat + 1000000 then
    s0.modHearth fun h => { h with bb := vmod h.bb (h.bbHead - 1).toFin fun e => { e with count := satAdd e.count 1 } }
  else
    let entry : BBEnt :=
      { time := h.time, seq := h.bbSeq + 1, code := v.code, scope := v.scope, unit := unit,
        tenant := match v.tenant with | some t => BitVec.ofNat 8 t.val | none => 0xFF,
        count := 1, cause := BitVec.ofNat 16 v.cause, info := v.bbInfo.getD (v.word false) }
    s0.modHearth fun h => { h with bb := vset h.bb h.bbHead.toFin entry, bbHead := h.bbHead + 1, bbSeq := h.bbSeq + 1 }

/-- Route A (R344): a bit of ALERT_STAT. -/
def State.routeA (s : State) (b : Nat) : State :=
  s.modHearth fun h => { h with alertStat := h.alertStat ||| (1 <<< b) }

/-- Route V (R344). -/
def State.routeV (s : State) (v : Event) : State :=
  match v.strm with
  | some n => s.raiseVector n
  | none => s

/-- Report an event on the routes that R347 lists for its code. -/
def State.report (s : State) (v : Event) : State :=
  match v.code.toNat with
  | 0x15 => ((s.routeM v).routeV v).routeB v
  | 0x40 | 0x41 | 0x42 | 0x50 => ((s.routeM v).routeD).routeB v
  | 0x43 => ((s.routeM v).routeV v).routeB v
  | 0x44 => (s.routeM v).routeV v
  | 0x45 => match v.tenant with | some t => (s.routeM v).routeT t 1 | none => s.routeM v
  | 0x46 | 0x51 => s.routeM v
  | 0x47 | 0x52 => (s.routeM v).routeB v
  | 0x48 => match v.tenant with | some t => (s.routeM v).routeT t 2 | none => s.routeM v
  | 0x49 => ((s.routeM v).routeD).routeA 0
  | 0x4A => (((s.routeM v).routeD).routeA 1).routeB v
  | 0x4B => (s.routeA 2).routeB v
  | 0x4C => ((s.routeM v).routeA 5).routeB v
  | 0x4D => (s.routeA 4).routeB v
  | 0x4E | 0x4F => s.routeB v
  | _ => s

/-- A write to a manager-only register by another master (R180): counted in PORT_VIOL, signalled ROOM_INBOUND. -/
def State.refuseWrite (s : State) (w : Writer) : State :=
  if !s.acts w then s
  else (s.modTen fun x => { x with portViol := vmod x.portViol (writerMb w) (· + 1) }).report
    { code := 0x46, scope := 2, unit := (writerMb w).val }

/-- Run a manager-only effect, or refuse the write (R180). -/
def State.asManager (s : State) (w : Writer) (f : State → State) : State :=
  if s.isManager w then f s else s.refuseWrite w

/-- The tenancy tables change: TABLE_GEN rises when the change begins and when it ends (R289). -/
def State.tableChange (s : State) (f : State → State) : State :=
  (f (s.modTen fun x => { x with tableGen := x.tableGen + 1 })).modTen fun x => { x with tableGen := x.tableGen + 1 }

/-- Whether the logic outside the hearth runs: no reset is held, no trip, no OFF_AO (R293, R310, R311). -/
def State.alive (s : State) : Bool :=
  !s.hearth.por && !s.hearth.pinReset && !s.hearth.gated && s.hearth.devState != 3

/-- Whether the Hall fabric runs: alive, and not in device STANDBY (R300). -/
def State.fabricOn (s : State) : Bool := s.alive && s.hearth.devState != 2

end Sys2Proof.Machine
end

