-- ==== Sys2Proof/Machine/Trace.lean ====
section
/-!
DEFINITION. Trace records (R263-R265) and the rings of the observation block (R266).
-/
namespace Sys2Proof.Machine

/-- MODE of a trace channel (R276). -/
def Tch.mode (c : Tch) : Nat := fld c.ctl 1 0

/-- Whether channel c records an event of a tenant now (R263): MODE not 0, GATE 1, the filter passes. -/
def Tch.records (c : Tch) (t : Option TenIx) : Bool :=
  c.mode != 0 && bitAt c.ctl 4 && (!bitAt c.ctl 12 || t.map (·.val) == some (fld c.ctl 11 6))

/-- The records that a channel's attic holds, and how many it can hold (R263). -/
def State.attic (s : State) (c : Fin 17) : List (BitVec 128) :=
  if h : c.val < 16 then (s.eng ⟨c.val, h⟩).attic else s.obs.attic
def atticSize (c : Fin 17) : Nat := if c.val < 16 then 4096 else 16384

/-- Replace a channel's attic. -/
def State.setAttic (s : State) (c : Fin 17) (l : List (BitVec 128)) : State :=
  if h : c.val < 16 then s.modEng ⟨c.val, h⟩ fun x => { x with attic := l } else s.modObs fun o => { o with attic := l }

/-- Change a trace channel. -/
def State.modTch (s : State) (c : Fin 17) (f : Tch → Tch) : State :=
  s.modObs fun o => { o with tch := vmod o.tch c f }

/-- Count a dropped record of a channel (R265). -/
def State.dropRecord (s : State) (c : Fin 17) : State :=
  (s.modTch c fun t => { t with lost := t.lost + 1, loss := true }).hallCnt 4 1

/-- A 16-byte record (R264). -/
def traceWord (time : Word) (ty src : Nat) (loss : Bool) (w1 : Word) : BitVec 128 :=
  w1 ++ (at_ (fld time 47 0) 0 ||| at_ ty 48 ||| at_ src 53 ||| at_ (b2n loss) 62)

/-- Offer an event to a channel (R263, R265): `sync` says whether MODE SYNC records it, `cmd` whether MODE CMD does. -/
def State.trace (s : State) (c : Fin 17) (sync cmd : Bool) (t : Option TenIx) (ty src : Nat) (w1 : Word) : State :=
  let ch := s.obs.tch[c.val]
  if ch.records t && ((ch.mode == 1 && sync) || (ch.mode == 2 && cmd)) then
    let l := s.attic c
    let r := traceWord s.hearth.time ty src ch.loss w1
    if l.length < atticSize c then (s.setAttic c (l ++ [r])).modTch c fun x => { x with loss := false, index := (x.index + 1) % atticSize c }
    else if bitAt ch.ctl 2 then ((s.modTch c fun x => { x with loss := false, index := (x.index + 1) % atticSize c }).setAttic c (l.drop 1 ++ [r])).dropRecord c
    else s.dropRecord c
  else s

/-- The channel of an engine. -/
def engChan (e : EngIx) : Fin 17 := ⟨e.val, by omega⟩
/-- Channel 16. -/
def hallChan : Fin 17 := 16

/-- WAKER of a signal's source (R264). -/
def wakerOf : BoltParty → Nat
  | .glove gl => 4 * gl.e.val + gl.g.val
  | .stream s => 2 ^ 15 + s.val

/-- The size in bytes of a ring, LOG2SIZE from 12 to 30 (log 20), and the address of its next record (R266). -/
def Ring.size (r : Ring) : Nat := 2 ^ max 12 (min 30 (fld r.cfg 52 48))
def Ring.nextAddr (r : Ring) : Nat := fld r.cfg 47 0 + r.write.toNat % r.size
/-- Whether n more bytes fit (R266). -/
def Ring.fits (r : Ring) (n : Nat) : Bool := (r.write - r.read).toNat + n ≤ r.size
/-- Account for n written bytes. -/
def Ring.push (r : Ring) (n : Nat) : Ring := { r with write := r.write + BitVec.ofNat 32 n }

end Sys2Proof.Machine
end

