-- ==== Sys2Proof/Machine/Mem.lean ====
section
/-!
DEFINITION. The address map (R12-R14), memory contents and poison (R35, R48), rooms (R186-R188), and the accumulate
unit of a wing (R42-R47) with its watchpoints (R273, R274).
-/
namespace Sys2Proof.Machine

/-! ### The address map -/

/-- Where an address leads (R12). -/
inductive Tgt
  | rom (off : Nat)
  | sram (off : Nat)
  | pantry (w : WingIx) (off : Nat)
  | hbm (w : WingIx) (off : Nat)
  | reg (a : Nat)
  | census (a : Nat)
  | none
  deriving DecidableEq, Repr

/-- The wing that the low two bits of a number name. -/
def wingNo (n : Nat) : WingIx := ⟨n % 4, by omega⟩

/-- Whether a register address lies in a decoded block (R12, R359). -/
def regDecoded (a : Nat) : Bool :=
  let off := a % 0x100000
  if a < 0x40000100 then true
  else if a < 0x40000300 then true
  else if a < 0x41000000 then (0x40003000 ≤ a && a < 0x40003140) || (0x40004000 ≤ a && a < 0x40004030)
  else if a < 0x42000000 then a < 0x41800000
  else if a < 0x42400000 then off < 0x10000
  else if a < 0x44000000 then false
  else if a < 0x45000000 then off < 0x10000
  else if a < 0x48000000 then false
  else if a < 0x49000000 then a < 0x48002000
  else if a < 0x4A000000 then a < 0x49004000
  else if a < 0x4B000000 then a < 0x4A400000 && off < 0x20000
  else if a < 0x4B400000 then true
  else if a < 0x4B800000 then a < 0x4B430000
  else if a < 0x4C000000 then
    a < 0x4B801000 || (0x4B900000 ≤ a && a < 0x4B901000) || (0x4BA00000 ≤ a && a < 0x4BA01000)
  else a < 0x4C001000

/-- Address decode under a value of REMAP (R12, R14). -/
def decodeAddr (remap : Bool) (a : Nat) : Tgt :=
  if a < 0x10000000 then
    if remap then (if a < 0x1000000 then .sram a else .none) else if a < 0x40000 then .rom a else .none
  else if a < 0x20000000 then
    let o := a - 0x10000000
    if remap then (if o < 0x40000 then .rom o else .none) else if o < 0x1000000 then .sram o else .none
  else if a < 0x24000000 then
    let o := a % 0x1000000
    if o < 0x800000 then .pantry (wingNo (a / 0x1000000)) o else .none
  else if a < 0x40000000 then .none
  else if a < 0x4D000000 then (if regDecoded a then .reg a else .none)
  else if a < 0x50000000 then .none
  else if a < 0x60000000 then .census a
  else if a < 0x1000000000 then .none
  else if a < 0x2000000000 then .hbm (wingNo (a / 2 ^ 34)) (a % 2 ^ 34)
  else if a < 0x3000000000 then
    let g := (a - 0x2000000000) / 4096
    .hbm (wingNo g) (g / 4 * 4096 + a % 4096)
  else .none

/-- The canonical address of a byte of memory: REMAP and the alias taken out. The boot ROM has none. -/
def Tgt.key : Tgt → Option Nat
  | .sram o => some (0x10000000 + o)
  | .pantry w o => some (0x20000000 + w.val * 0x1000000 + o)
  | .hbm w o => some (0x1000000000 + w.val * 2 ^ 34 + o)
  | _ => Option.none

/-- The wing whose accumulate unit an address passes (R6). -/
def Tgt.wing : Tgt → Option WingIx
  | .pantry w _ => some w
  | .hbm w _ => some w
  | _ => Option.none

/-! ### Memory contents -/

/-- The byte at a canonical address: zero where nothing is listed (R302). -/
def cellGet : List Host.Cell → Nat → Byte
  | [], _ => 0
  | (k, b) :: l, a => if k = a then b else cellGet l a

/-- Write a byte at a canonical address; a zero byte is not listed. -/
def cellPut : List Host.Cell → Nat → Byte → List Host.Cell
  | [], a, v => if v = 0 then [] else [(a, v)]
  | (k, b) :: l, a, v =>
    if a < k then (if v = 0 then (k, b) :: l else (a, v) :: (k, b) :: l)
    else if a = k then (if v = 0 then l else (a, v) :: l)
    else (k, b) :: cellPut l a v

/-- Zero the canonical addresses lo ≤ a < hi. -/
def cellZero (l : List Host.Cell) (lo hi : Nat) : List Host.Cell := l.filter fun c => !(lo ≤ c.1 && c.1 < hi)

/-- Replace the canonical addresses lo ≤ a < lo + n by the bytes of a function of the offset. -/
def cellFill (l : List Host.Cell) (lo n : Nat) (f : Nat → Byte) : List Host.Cell :=
  l.filter (fun c => decide (c.1 < lo)) ++ ((List.range n).filterMap fun i => if f i = 0 then none else some (lo + i, f i))
    ++ l.filter (fun c => decide (lo + n ≤ c.1))

/-- Insert into a rising list of addresses. -/
def addrPut : List Nat → Nat → List Nat
  | [], a => [a]
  | k :: l, a => if a < k then a :: k :: l else if a = k then k :: l else k :: addrPut l a

/-- Whether a list of addresses rises strictly. -/
def rising : List Nat → Bool
  | a :: b :: l => a < b && rising (b :: l)
  | _ => true

/-- The canonical form of memory: addresses strictly rising, no listed byte zero, poison marks strictly rising. -/
def Memory.wf (m : MemS) : Bool :=
  rising (m.cells.map (·.1)) && m.cells.all (fun c => c.2 != 0) && rising m.poison

/-- The ECC word or granule of a canonical address (R48): 32 bytes in HBM, 8 elsewhere. -/
def granSize (k : Nat) : Nat := if 0x1000000000 ≤ k then 32 else 8
def gran (k : Nat) : Nat := k / granSize k * granSize k

/-- The byte that a canonical target holds. -/
def State.byteAt (s : State) (t : Tgt) : Byte :=
  match t with
  | .rom o => Config.romByte o
  | t => match t.key with
    | some k => cellGet s.mem.cells k
    | none => 0

/-- The byte at a physical address under the mapping in force. -/
def State.physByte (s : State) (a : Nat) : Byte := s.byteAt (decodeAddr s.hall.remap a)

/-- The bytes from a physical address on. -/
def State.physBytes (s : State) (a n : Nat) : List Byte := (List.range n).map fun i => s.physByte (a + i)

/-- The canonical addresses of n bytes from a physical address on. -/
def State.keysOf (s : State) (a n : Nat) : List Nat :=
  (List.range n).filterMap fun i => (decodeAddr s.hall.remap (a + i)).key

/-- Whether any byte of a range lies in a poisoned word or granule (R49). -/
def State.poisoned (s : State) (a n : Nat) : Bool := (s.keysOf a n).any fun k => s.mem.poison.contains (gran k)

/-- Write bytes at consecutive physical addresses. -/
def putBytes (remap : Bool) : List Host.Cell → Nat → List Byte → List Host.Cell
  | l, _, [] => l
  | l, a, b :: bs =>
    match (decodeAddr remap a).key with
    | some k => putBytes remap (cellPut l k b) (a + 1) bs
    | none => putBytes remap l (a + 1) bs

/-- The poison marks after a write of some canonical addresses (R48): a word or granule written whole loses its
mark, a partial write leaves it; a poisoned write marks every word or granule it touches (R325). -/
def poisonAfter (p : List Nat) (keys : List Nat) (poisonedWrite : Bool) : List Nat :=
  if poisonedWrite then keys.foldl (fun q k => addrPut q (gran k)) p
  else p.filter fun g => !((keys.filter fun k => gran k == g).length == granSize g)

/-- Store bytes at a physical address: contents and poison. -/
def State.poke (s : State) (a : Nat) (bs : List Byte) (poisonedWrite : Bool := false) : State :=
  let keys := s.keysOf a bs.length
  let p := poisonAfter s.mem.poison keys poisonedWrite
  { s with
    mem := ⟨putBytes s.hall.remap s.mem.cells a bs, p⟩
    flt := { s.flt with memUe := s.flt.memUe.filter fun g => p.contains g } }

/-- Zero a canonical range, its poison and the record of its MEM_UE too (R190, R302, R352). -/
def State.zeroRange (s : State) (lo hi : Nat) : State :=
  { s with
    mem := ⟨cellZero s.mem.cells lo hi, s.mem.poison.filter fun k => !(lo ≤ k && k < hi)⟩
    flt := { s.flt with memUe := s.flt.memUe.filter fun k => !(lo ≤ k && k < hi) } }

/-! ### Rooms (R186-R188) -/

/-- The permission that an access needs (PERM bits R, W, X, U of R207). -/
inductive Perm
  | r | w | x | u
  deriving DecidableEq, Repr

def Perm.bit : Perm → Nat
  | .r => 0
  | .w => 1
  | .x => 2
  | .u => 3

/-- Whether a room's range holds an address. -/
def Room.covers (r : Room) (a : Nat) : Bool :=
  r.valid && decide (r.base.toNat * 4096 ≤ a) && decide (a ≤ r.limit.toNat * 4096 + 4095)

/-- HOST bit of a room. -/
def Room.host (r : Room) : Bool := bitAt r.perm 4

/-- The tenant whose tick lease pins a pantry page (R36). -/
def State.pinHolder (s : State) (w : WingIx) (page : Nat) : Option TenIx :=
  if bitAt (s.wing w).pinLo page || (64 ≤ page && bitAt (s.wing w).pinHi (page - 64)) then
    (s.ten.leases.toList.find? fun l =>
      l.valid && l.kind == 2 && wingOf l.engine == w && l.firstPage.toNat ≤ page && page < l.firstPage.toNat + l.pages.toNat).map
      (·.tenant)
  else none

/-- The tenant that pins the page of an address, when it is pinned. -/
def State.pinHolderAt (s : State) (a : Nat) : Option TenIx :=
  match decodeAddr s.hall.remap a with
  | .pantry w o => s.pinHolder w (o / 65536)
  | _ => none

/-- Whether a tenant's own rooms admit an access to one address (R186), leaving out HOST rooms. -/
def State.ownRoom (s : State) (t : TenIx) (a : Nat) (p : Perm) : Bool :=
  (s.tenant t).rooms.toList.any fun r => r.covers a && !r.host && bitAt r.perm p.bit

/-- Whether a guest room of a tenant admits a read by another (R187). -/
def State.guestRoom (s : State) (owner t : TenIx) (a : Nat) : Bool :=
  (s.tenant owner).rooms.toList.any fun r =>
    r.covers a && !r.host && r.guestEn && bitAt r.perm 0 && r.guest.toNat == t.val

/-- Whether an access by a tenant to one address passes (R186, R187): through a room of its own or, for a read, a
guest room; a pinned page only through a room of the lease holder. -/
def State.roomByte (s : State) (t : TenIx) (a : Nat) (p : Perm) : Bool :=
  match s.pinHolderAt a with
  | some o => (o == t && s.ownRoom t a p) || (p == .r && s.guestRoom o t a)
  | none => s.ownRoom t a p || (p == .r && (allFin 64).any fun o => (s.tenant o).isOpen && s.guestRoom o t a)

/-- The first byte of an access and of every further 4 KiB page that it touches. Rooms, pinned pages and the regions of
R12 begin on 4 KiB boundaries, so a check of these bytes is a check of every byte. -/
def spots (a n : Nat) : List Nat :=
  if n = 0 then [] else a :: ((List.range (n / 4096 + 1)).map fun k => (a / 4096 + 1 + k) * 4096).filter (· < a + n)

/-- Whether every byte of an access passes. -/
def State.roomOk (s : State) (t : TenIx) (a n : Nat) (p : Perm) : Bool := (spots a n).all fun x => s.roomByte t x p

/-- Whether every byte of an access lies in a HOST room of the tenant with the needed permission (R326). -/
def State.hostRoom (s : State) (t : TenIx) (a n : Nat) (p : Perm) : Bool :=
  0 < n && (spots a n).all fun x => (s.tenant t).rooms.toList.any fun r => r.covers x && r.host && bitAt r.perm p.bit

/-! ### Coherence with the cores (R251, R252) -/

/-- Core copies of some lines are written back and invalidated: the directory, the caches, the presence filters (R251, R252). -/
def State.dropLines (s : State) (hit : Nat → Bool) : State :=
  let s1 := s.modCores fun c => { c with
    dir := c.dir.filter fun d => !hit d.1
    cached := c.cached.map fun l => l.filter fun x => !hit x
    l1i := c.l1i.map fun l => l.filter fun x => !hit x
    l1d := c.l1d.map fun l => l.filter fun x => !hit x
    owing := c.owing.filter fun x => !hit x.2
    dirty := c.dirty.map fun l => l.filter fun x => !hit x.1
    victim := c.victim.filter fun x => !hit x.2 }
  { s1 with wings := s1.wings.map fun w => { w with presence := w.presence.filter fun x => !hit x } }

/-- Reservations of harts on some lines end (the A extension of R240). -/
def State.dropResv (s : State) (hit : Nat → Bool) : State :=
  s.modCores fun c => { c with harts := c.harts.map fun h => match h.resv with
    | some l => if hit l then { h with resv := none } else h
    | none => h }

/-- The bytes of some lines in place of what memory holds. -/
def restoreLines : List (Nat × BitVec 512) → List Host.Cell → List Host.Cell
  | [], m => m
  | (k, v) :: l, m => restoreLines l (putBytes false m k (toBytes 64 v.toNat))

/-- A core's entry leaves the directory state of a line; none once no core holds it. -/
def DirSt.without (h : HartIx) : DirSt → Option DirSt
  | .owned k => if k = h then none else some (.owned k)
  | .shared m => let m' := m &&& ~~~((1 : BitVec 4) <<< h.val); if m' = 0 then none else some (.shared m')

/-- The presence filters keep the lines that some core holds (R252). -/
def State.trimPresence (s : State) : State :=
  { s with wings := s.wings.map fun w => { w with presence := w.presence.filter fun l => s.cores.dir.any fun d => d.1 == l } }

/-- The caches of one core are invalidated without writeback, and its entries leave the directory (R260). -/
def State.loseCore (s : State) (h : HartIx) : State :=
  let lost := s.cores.dirty[h.val].filter fun x => !s.cores.victim.contains (h, x.1)
  let t := ({ s with mem := { s.mem with cells := restoreLines lost s.mem.cells } }).modCores fun c => { c with
    dir := c.dir.filterMap fun (x : Nat × DirSt) => (x.2.without h).map (x.1, ·)
    cached := vset c.cached h [], l1i := vset c.l1i h [], l1d := vset c.l1d h []
    dirty := vset c.dirty h [], owing := c.owing.filter (·.1 != h), victim := c.victim.filter (·.1 != h)
    dirPend := c.dirPend.filter (·.core != h), dirHeld := c.dirHeld.filter (·.core != h) }
  t.trimPresence

/-- Every core cache is invalidated without writeback (R259, R315): what was dirty is lost. -/
def State.loseCaches (s : State) : State :=
  let lost := s.cores.dirty.toList.flatten
  ({ s with mem := { s.mem with cells := restoreLines lost s.mem.cells } }).dropLines fun _ => true

/-! ### The accumulate unit -/

/-- The mesh port of wing w toward another wing: ports are numbered by the other wing in ascending order (R17's table). -/
def meshPort (w v : WingIx) : Fin 4 := ⟨(if v.val < w.val then v.val else v.val - 1) % 4, by omega⟩

/-- The wing master under which an engine's access reaches a wing (the table before R34). -/
def masterAt (e : EngIx) (v : WingIx) : Nat := if wingOf e = v then e.val % 4 else 4 + (meshPort v (wingOf e)).val

/-- Who makes an access: wing master index, tenant, whether it is an observer's or fetched ahead of need (R273), the QoS that the
access carries (R19), and the code of the master whose fences cover it (R29): 4e + g for glove g of engine e, 64 + p for port p, 68 the
cores, 69 SCHED, 70 OBS, 71 CENSUS, 72 HEARTH, 80 + 8w + m for master m of the switch of wing w. -/
structure AccSrc where
  master : Nat
  tenant : Option TenIx
  observer : Bool
  ahead : Bool
  qos : Nat
  who : Nat
  deriving DecidableEq, Repr

/-- The wing master under which an access reaches a wing: that of its engine, where it is a glove's. -/
def AccSrc.masterOf (x : AccSrc) (w : WingIx) : Nat :=
  if h : x.who < 64 then masterAt ⟨x.who / 4, by omega⟩ w else x.master

/-- Kind of access for watchpoints: 0 read, 1 write, 2 update (R264). -/
def watchBit (kind : Nat) : Nat := 1 + kind

/-- Whether a watchpoint matches (R273). -/
def Watch.hit (p : Watch) (lo n kind : Nat) (t : Option TenIx) : Bool :=
  bitAt p.ctl 0 && bitAt p.ctl (watchBit kind) && decide (lo ≤ fld p.limit 47 0) && decide (fld p.base 47 0 < lo + n)
    && (!bitAt p.ctl 10 || t.map (·.val) == some (fld p.ctl 9 4))

/-- The GATE bits that a set of matching watchpoints changes: TRACE_OFF wins (R274). -/
def gateAfter (c : Nat) (hits : List Watch) (g : Bool) : Bool :=
  if hits.any fun p => bitAt p.ctl 14 && bitAt p.ctl (15 + c) then false
  else if hits.any fun p => bitAt p.ctl 13 && bitAt p.ctl (15 + c) then true else g

/-- Watchpoints of a wing on an accepted access at a canonical address (R273, R274). -/
def State.watchAccess (s : State) (w : WingIx) (src : AccSrc) (key n kind : Nat) : State :=
  let wg := s.wing w
  if wg.dig || src.observer || src.ahead then s
  else
    let hits := (allFin 16).filter fun i => wg.wp[i.val].hit key n kind src.tenant
    if hits.isEmpty then s
    else
      let s1 := s.modWing w fun x => { x with
        wp := hits.foldl (fun v i => vmod v i fun p => { p with hits := p.hits + 1 }) x.wp
        watchPend := hits.foldl (fun b i => if bitAt wg.wp[i.val].ctl 12 then b ||| (1 <<< i.val) else b) x.watchPend }
      let s2 := s1.wingCnt w 10 1
      let ps := hits.map fun i => wg.wp[i.val]
      let s3 := s2.modObs fun o => { o with tch := o.tch.mapFinIdx fun c t _ =>
        { t with ctl := setFld t.ctl 4 1 (b2n (gateAfter c ps (bitAt t.ctl 4))) } }
      let s4 := if (hits.any fun i => bitAt wg.wp[i.val].ctl 12) && wg.watchPend == 0 then s3.mgrVector else s3
      match hits.find? fun i => bitAt wg.wp[i.val].ctl 11 with
      | some i => s4.trace hallChan true true src.tenant 0x18 0
          (at_ key 0 ||| at_ i.val 48 ||| at_ kind 52 ||| at_ (src.masterOf w % 16) 54 ||| at_ w.val 58)
      | none => s4

/-- A writer joins those of a line. -/
def withWriter (l : List Nat) : Option Nat → List Nat
  | some w => if l.contains w then l else w :: l
  | none => l

/-- Use of a line of the combining buffer (R43): hit, or, with `alloc`, allocation with eviction of the least recently
used of eight ways; `who` is the master of a write or update. Answers the list, whether it hit, and the 64-byte beats moved to or from
the stack. -/
def combUse (l : List CombLine) (line : Nat) (alloc : Bool) (who : Option Nat) : List CombLine × Bool × Nat :=
  match l.find? (·.line == line) with
  | some c => (⟨line, c.dirty || who.isSome, withWriter c.writers who⟩ :: l.filter (·.line != line), true, 0)
  | none =>
    if alloc then
      let new : CombLine := ⟨line, who.isSome, withWriter [] who⟩
      let ways := l.filter fun c => c.line % 512 == line % 512
      if ways.length < 8 then (new :: l, false, 1)
      else match ways.getLast? with
        | some v => (new :: l.filter (·.line != v.line), false, if v.dirty then 2 else 1)
        | none => (new :: l, false, 1)
    else (l, false, 1)

/-- Count and buffer one 64-byte line of an accepted access (R43, R235, R269): `alloc` for updates and partial writes,
`who` the master of a write, which marks a buffered line dirty. -/
def State.lineUse (s : State) (key : Nat) (alloc : Bool) (who : Option Nat) : State :=
  if 0x1000000000 ≤ key then
    let w := wingNo (key / 2 ^ 34)
    let line := (key % 2 ^ 34) / 64
    let r := combUse (s.wing w).comb line alloc who
    (s.modWing w fun x => { x with comb := r.1 }).wingCnt w 0 r.2.2
  else if 0x20000000 ≤ key then s.wingCnt (wingNo (key / 0x1000000)) 2 1 else s

/-- Some lines of a wing's combining buffer are written back: those that a test picks among the dirty ones (R43). -/
def State.cleanLines (s : State) (w : WingIx) (f : CombLine → Bool) : State :=
  let n := ((s.wing w).comb.filter fun c => c.dirty && f c).length
  if n = 0 then s
  else
    let clean (c : CombLine) : CombLine := if c.dirty && f c then ⟨c.line, false, []⟩ else c
    (s.modWing w fun x => { x with comb := x.comb.map clean }).wingCnt w 0 n

/-- The dirty lines of a wing's combining buffer are written back (R43). -/
def State.cleanWing (s : State) (w : WingIx) : State := s.cleanLines w fun _ => true

/-- A fence writes back the dirty lines that it covers: those that hold a write of its master (R29, R43). -/
def State.fenceClean (s : State) (covers : Nat → Bool) : State :=
  (allFin 4).foldl (fun t w => t.cleanLines w fun c => c.writers.any covers) s

/-- The code of a glove as the master of its accesses. -/
def gloveWho (gl : GloveRef) : Nat := 4 * gl.e.val + gl.g.val

/-- The 64-byte lines of some canonical addresses, in order. -/
def linesOf (keys : List Nat) : List Nat := (keys.map fun k => k / 64 * 64).eraseDups

/-- The wing of a canonical address at or above the pantries. -/
def keyWing (k : Nat) : WingIx := if 0x1000000000 ≤ k then wingNo (k / 2 ^ 34) else wingNo (k / 0x1000000)

/-- The transactions into which an access is split at the lanes of its target and at the granules of the alias (R14, R34), each as its first
canonical address and its length. A lane is 256 bytes. -/
def keyParts : List Nat → List (Nat × Nat)
  | [] => []
  | k :: l => match keyParts l with
    | (a, n) :: r => if a = k + 1 ∧ a / 256 = k / 256 then (k, n + 1) :: r else (k, 1) :: (a, n) :: r
    | [] => [(k, 1)]

/-- Side effects of an accepted access on counters, the combining buffer and the watchpoints, which see each part of a split access
as a transaction of its own (R14, R34, R273). -/
def State.accTouch (s : State) (src : AccSrc) (keys : List Nat) (kind : Nat) : State :=
  let s1 := (linesOf keys).foldl (fun t l =>
    let part := keys.filter fun k => k / 64 * 64 == l
    let whole := part.length % granSize l == 0 && (part.headD 0) % granSize l == 0
    t.lineUse l (kind == 2 || (kind == 1 && !whole)) (if kind = 0 then none else some src.who)) s
  (keyParts keys).foldl (fun t x => if 0x20000000 ≤ x.1 then t.watchAccess (keyWing x.1) src x.1 x.2 kind else t) s1

/-- The format of a window (R51). TYPE = 3 is only called reserved there: the model keeps what is written, reads the elements as bf16,
and answers ACC_TYPE to every ADD, whose type code never is 6 (DESIGN CHOICE, log 45). -/
def DetWin.fmt (d : DetWin) : FFmt := if fld d.ctl 2 1 = 0 then fp32 else if fld d.ctl 2 1 = 1 then fp16 else bf16
/-- Whether a window's range holds a canonical address, and whether it is enabled too (R46). -/
def DetWin.covers (d : DetWin) (k : Nat) : Bool := decide (fld d.base 47 0 ≤ k) && decide (k ≤ fld d.limit 47 0)
def DetWin.holds (d : DetWin) (k : Nat) : Bool := bitAt d.ctl 0 && d.covers k
/-- Bytes of a window element. -/
def DetWin.bytes (d : DetWin) : Nat := d.fmt.width / 8

/-- The exact sum that stands for a value (R47), in units of 2^-149. -/
def sumOf (addr : Nat) (v : FV) : DetSum :=
  match v with
  | .nan _ => ⟨addr, 0, true, false, false⟩
  | .inf n => ⟨addr, 0, false, !n, n⟩
  | .fin n m e => ⟨addr, (if n then -1 else 1) * ((m : Int) * 2 ^ (e + 149).toNat), false, false, false⟩
/-- Add a value to an exact sum. -/
def DetSum.plus (d : DetSum) (v : FV) : DetSum :=
  let x := sumOf d.addr v
  ⟨d.addr, d.sum + x.sum, d.nan || x.nan, d.pinf || x.pinf, d.ninf || x.ninf⟩
/-- The value of an exact sum (R47). -/
def DetSum.value (d : DetSum) : FV :=
  if d.nan || (d.pinf && d.ninf) then .nan false
  else if d.pinf then .inf false
  else if d.ninf then .inf true
  else Dy.toFV ⟨d.sum, -149⟩

/-- The window of a wing that holds a canonical address. -/
def Wing.detAt (w : Wing) (k : Nat) : Option (Fin 4) := (allFin 4).find? fun i => w.det[i.val].holds k

/-- Set the exact sum of an element. -/
def DetWin.setSum (d : DetWin) (x : DetSum) : DetWin := { d with sums := x :: d.sums.filter (·.addr != x.addr) }

/-- The element value at a canonical address, in a format. -/
def State.elemAt (s : State) (k n : Nat) : Nat := ofBytes ((List.range n).map fun i => cellGet s.mem.cells (k + i))

/-- Byte i of the shadow entry that stands for an exact sum. R46 gives the 40 bytes no layout: they are free (log 45). -/
def DetSum.byte (d : DetSum) (i : Nat) : Byte := Config.shadowByte d.sum d.nan d.pinf d.ninf i

/-- Where the shadow entry of an element of a window lies: 40 bytes in the HBM of the wing (R46). -/
def DetWin.entryAt (d : DetWin) (addr : Nat) : Nat := fld d.shadow 47 0 + 40 * ((addr - fld d.base 47 0) / d.bytes)

/-- Whether a range of canonical addresses lies in the HBM of a wing. -/
def inHbm (w : WingIx) (k n : Nat) : Bool := decide (0x1000000000 + w.val * 2 ^ 34 ≤ k) && decide (k + n ≤ 0x1000000000 + (w.val + 1) * 2 ^ 34)

/-- The exact sum of an element of a window is set, in the unit and in its shadow entry in HBM (R46, R47). -/
def State.setSum (s : State) (w : WingIx) (i : Fin 4) (x : DetSum) : State :=
  let k := ((s.wing w).det[i.val]).entryAt x.addr
  let t := s.modWing w fun g => { g with det := vmod g.det i fun d => d.setSum x }
  if inHbm w k 40 then { t with mem := { t.mem with cells := cellFill t.mem.cells k 40 x.byte } } else t

/-- A plain write, MIN or MAX in a window sets the exact sum of every element it touches (R47). -/
def State.detRewrite (s : State) (keys : List Nat) : State :=
  keys.foldl (fun t k =>
    if k < 0x20000000 then t else
    let w := keyWing k
    match (t.wing w).detAt k with
    | some i =>
      let d := (t.wing w).det[i.val]
      let a := k - (k - fld d.base 47 0) % d.bytes
      t.setSum w i (sumOf a (d.fmt.decode (t.elemAt a d.bytes)))
    | none => t) s

/-- Whether an update to an address must wait for INIT_DONE (R47). -/
def State.detHeld (s : State) (k : Nat) : Bool :=
  decide (0x20000000 ≤ k) && (s.wing (keyWing k)).det.toList.any fun d => d.initing && d.covers k

/-- A write by an engine, a host or the accumulate unit invalidates every core copy of its lines; writebacks precede it, and they reach
the unit as plain writes (R45, R47). -/
def State.snoopWrite (s : State) (keys : List Nat) : State :=
  if s.cores.dir.isEmpty && s.cores.harts.toList.all (fun h => h.resv.isNone) then s
  else
    let lines := (keys.map fun k => k / 64 * 64).eraseDups
    let back := lines.filter fun l => s.cores.dirty.toList.any fun d => d.any fun x => x.1 == l
    (((s.dropLines lines.contains).dropResv lines.contains).detRewrite (back.flatMap fun l => (List.range 64).map (l + ·)))

/-- Width in bytes of an update type (R42): 0 for the reserved code. -/
def accWidth (ty : Nat) : Nat :=
  match ty with
  | 0 | 1 | 3 => 4
  | 2 | 6 => 8
  | 4 | 5 => 2
  | _ => 0

/-- The bytes that an access that waits names: its address and how many. -/
def HeldAcc.range : HeldAcc → Nat × Nat
  | .read _ _ a n => (a, n)
  | .write _ _ a bs _ => (a, bs.length)
  | .acc x => (x.addr, match x.kind with
    | .read n => n
    | .write bs => bs.length
    | .update _ ty _ => accWidth ty.toNat)

/-- Whether an earlier access to one of the lines of some canonical addresses still waits: accesses to a line keep their order
(R45). -/
def State.heldLine (s : State) (keys : List Nat) : Bool :=
  !s.hall.held.isEmpty &&
    let lines := linesOf keys
    s.hall.held.any fun h => (linesOf (s.keysOf h.range.1 h.range.2)).any lines.contains

/-- An accepted read of physical memory (R45): the bytes, whether any is poisoned, the state after. -/
def State.accRead (s : State) (src : AccSrc) (a n : Nat) : List Byte × Bool × State :=
  (s.physBytes a n, s.poisoned a n, s.accTouch src (s.keysOf a n) 0)

/-- An accepted write (R45): overwrites, and re-bases the exact sums of the windows it touches. -/
def State.accWrite (s : State) (src : AccSrc) (a : Nat) (bs : List Byte) (poisonedWrite : Bool := false) : State :=
  let keys := s.keysOf a bs.length
  (((s.snoopWrite keys).poke a bs poisonedWrite).detRewrite keys).accTouch src keys 1

/-- The supported pairs of operation and type (R42). -/
def accPair (op ty : Nat) : Bool :=
  match op with
  | 0 => ty == 0 || ty == 2 || ty == 3 || ty == 4 || ty == 5
  | 1 | 2 => ty == 0 || ty == 1 || ty == 2 || ty == 3 || ty == 4 || ty == 5
  | 3 | 4 | 5 => ty == 6
  | _ => false

/-- Fold a value into an old one (R42). -/
def accFold (op ty old v : Nat) : Nat :=
  let w := 8 * accWidth ty
  let pick (b : Bool) := if b then old else v % 2 ^ w
  match op, ty with
  | 0, 3 => fp32.addB old v
  | 0, 4 => fp16.addB old v
  | 0, 5 => bf16.addB old v
  | 0, _ => (old + v) % 2 ^ w
  | 1, 3 => fp32.minMax false old v
  | 1, 4 => fp16.minMax false old v
  | 1, 5 => bf16.minMax false old v
  | 1, 1 => pick (old ≤ v % 2 ^ w)
  | 1, _ => pick (sgn w old ≤ sgn w v)
  | 2, 3 => fp32.minMax true old v
  | 2, 4 => fp16.minMax true old v
  | 2, 5 => bf16.minMax true old v
  | 2, 1 => pick (v % 2 ^ w ≤ old)
  | 2, _ => pick (sgn w v ≤ sgn w old)
  | 3, _ => old &&& (v % 2 ^ w)
  | 4, _ => old ||| (v % 2 ^ w)
  | _, _ => old ^^^ (v % 2 ^ w)

/-- Type code of a window (R46) as an update type. -/
def DetWin.accTy (d : DetWin) : Nat := 3 + fld d.ctl 2 1

/-- An accepted accumulate update at a canonical address (R42, R45, R47, R49): none when it completes with an error
response (ACC_TYPE). -/
def State.accUpdate (s : State) (src : AccSrc) (k op ty v : Nat) : Option State :=
  let n := accWidth ty
  let keys := (List.range n).map (k + ·)
  if !accPair op ty || k < 0x20000000 then none
  else
    let w := keyWing k
    let det := (s.wing w).detAt k
    let wrong := match det with
      | some i => op == 0 && (s.wing w).det[i.val].accTy != ty
      | none => false
    if wrong then none
    else if s.mem.poison.contains (gran k) then
      some (((s.modWing w fun x => { x with accPoisoned := satAdd x.accPoisoned 1 }).wingCnt w 6 1).accTouch src keys 2)
    else
      let old := s.elemAt k n
      let s0 := s.snoopWrite keys
      let s1 := match det with
        | some i =>
          if op = 0 then
            let d : DetWin := (s.wing w).det[i.val]
            let cur := (d.sums.find? fun (x : DetSum) => x.addr == k).getD (sumOf k (d.fmt.decode old))
            let new := cur.plus (d.fmt.decode v)
            let t := s0.setSum w i new
            { t with mem := { t.mem with cells := putBytes false t.mem.cells k (toBytes n (d.fmt.encode new.value)) } }
          else
            let t := { s0 with mem := { s0.mem with cells := putBytes false s0.mem.cells k (toBytes n (accFold op ty old v)) } }
            t.detRewrite keys
        | none => { s0 with mem := { s0.mem with cells := putBytes false s0.mem.cells k (toBytes n (accFold op ty old v)) } }
      some ((s1.wingCnt w 6 1).accTouch src keys 2)

/-- MEM_UE of a double-bit error at a canonical address (R48, R350, R352): poison the location, count it, record the
first address, and raise MEM_UE once per location. -/
def State.memUe (s : State) (k : Nat) : State :=
  let g := gran k
  let already := s.mem.poison.contains g || s.flt.memUe.contains g
  let s1 : State := { s with mem := { s.mem with poison := addrPut s.mem.poison g } }
  if 0x20000000 ≤ k then
    let w := keyWing k
    let hbm := decide (0x1000000000 ≤ k)
    let s2 := s1.modWing w fun x =>
      let x := if hbm then { x with ueHbm := satAdd x.ueHbm 1 } else { x with uePantry := satAdd x.uePantry 1 }
      if bitAt x.ueAddr 63 then x else { x with ueAddr := at_ g 0 ||| at_ (b2n hbm) 48 ||| at_ 1 63 }
    if already then s2
    else (s2.modFlt fun f => { f with memUe := g :: f.memUe }).report
      { code := 0x40, scope := 4, unit := w.val, cause := b2n hbm, bbInfo := some (at_ g 0) }
  else
    let s2 := s1.modHall fun x =>
      let x := { x with ueSram := satAdd x.ueSram 1 }
      if bitAt x.ueAddr 63 then x else { x with ueAddr := at_ g 0 ||| at_ 1 63 }
    if already then s2
    else (s2.modFlt fun f => { f with memUe := g :: f.memUe }).report
      { code := 0x40, scope := 5, unit := 15, cause := 2, bbInfo := some (at_ g 0) }

/-- A single-bit error at a canonical address: corrected and counted (R48, R350). -/
def State.memCe (s : State) (k : Nat) : State :=
  if 0x1000000000 ≤ k then s.modWing (keyWing k) fun x => { x with ceHbm := satAdd x.ceHbm 1 }
  else if 0x20000000 ≤ k then s.modWing (keyWing k) fun x => { x with cePantry := satAdd x.cePantry 1 }
  else s.modHall fun x => { x with ceSram := satAdd x.ceSram 1 }

/-- What ECC finds at a location (R48). -/
def State.eccAt (s : State) (k : Nat) (e : Ecc) : State :=
  match e with
  | .clean => s
  | .single => s.memCe k
  | .double => s.memUe k

/-! ### Readiness of a target (R16, R40, R41, R299, R302, R353) -/

/-- Whether an access can be served now. -/
inductive Ready
  | ok | stall | busErr
  deriving DecidableEq, Repr

/-- Whether a wing's stack answers: errors after a training failure, held before training and fill or in self-refresh. -/
def Wing.hbmReady (w : Wing) : Ready :=
  if w.trainFail then .busErr else if !w.trained || !w.filled || w.selfRefresh then .stall else .ok

/-- Whether the links between a wing's engines and a target are up, in both directions (R7, R353). -/
def State.linkOk (s : State) (w : WingIx) (t : Tgt) : Bool :=
  match t.wing with
  | some v =>
    if v = w then true
    else !(s.wing w).links[(meshPort w v).val].down && !(s.wing v).links[(meshPort v w).val].down
  | none => !(s.wing w).links[3].down && !s.hall.toWing[w.val].down

/-- Whether a change of REMAP holds an access to an address until the new mapping decodes it (R16). -/
def State.remapHolds (s : State) (a : Nat) : Bool := s.hall.remapNew.isSome && decide (a < 0x11000000)

/-- Readiness of a target for a master on a wing (none: a Hall master). -/
def State.ready (s : State) (from_ : Option WingIx) (a : Nat) : Ready :=
  let t := decodeAddr s.hall.remap a
  if s.remapHolds a then .stall
  else
    let linkUp := match from_, t.wing with
      | some w, _ => s.linkOk w t
      | none, some v => !(s.wing v).links[3].down && !s.hall.toWing[v.val].down
      | none, none => true
    if !linkUp then .busErr
    else match t with
      | .hbm w _ => if (s.wing w).pwrState ≠ 0 then .stall else (s.wing w).hbmReady
      | .pantry w _ => if (s.wing w).pwrState ≠ 0 then .stall else .ok
      | .none => .busErr
      | _ => .ok

/-- An access that waits for a wing wakes it from STANDBY (R299). -/
def State.wakeWing (s : State) (w : Option WingIx) : State :=
  match w with
  | some w => if (s.wing w).pwrState = 1 then s.modWing w fun x => { x with pwrState := 2 } else s
  | none => s

/-- An access to a wing in STANDBY wakes it (R299). -/
def State.touchWake (s : State) (a : Nat) : State := s.wakeWing (decodeAddr s.hall.remap a).wing

end Sys2Proof.Machine
end

