-- ==== Sys2Proof/Machine/Operands.lean ====
section
/-!
DEFINITION. Operand classes and fields (R56, R78, R79, R102), the registers of a glove (R55-R58), its reuse latches
and B buffer (R64, R141).
-/
namespace Sys2Proof.Machine

/-! ### Fields -/

/-- Bits [hi:lo] of the immediate or extension. -/
def imf (w : JFields) (hi lo : Nat) : Nat := fld w.imm hi lo
/-- Bit i of the immediate or extension. -/
def imb (w : JFields) (i : Nat) : Bool := bitAt w.imm i
/-- The immediate, sign-extended. -/
def immS (w : JFields) : Word := w.imm.signExtend 64
/-- REUSE_A, REUSE_B and the two format-specific flags [53] and [52] (R79). -/
def reuseA (w : JFields) : Bool := bitAt w.flags 3
def reuseB (w : JFields) : Bool := bitAt w.flags 2
def flag53 (w : JFields) : Bool := bitAt w.flags 1
def flag52 (w : JFields) : Bool := bitAt w.flags 0

/-- ROW0 of a row range (R102). -/
def row0 (w : JFields) : Nat := imf w 27 22
/-- NROWS of a row range, 0 meaning 64. -/
def nrows (w : JFields) : Nat := if imf w 33 28 = 0 then 64 else imf w 33 28
/-- Whether the row range stays inside a tile. -/
def rowsOk (w : JFields) : Bool := row0 w + nrows w ≤ 64

/-- A row number modulo 64. -/
def row64 (r : Nat) : Fin 64 := ⟨r % 64, by omega⟩

/-! ### Operand classes -/

/-- The class of an operand code (R78). -/
inductive Cls
  | s (n : Fin 32)
  | t (n : Fin 16)
  | a (n : Fin 4)
  | m (n : Fin 8)
  | bad
  deriving DecidableEq, Repr

/-- The register that an operand code names (R78). -/
def clsOf (c : BitVec 6) : Cls :=
  let n := c.toNat
  if n < 0x20 then .s ⟨n % 32, by omega⟩
  else if n < 0x30 then .t ⟨n % 16, by omega⟩
  else if n < 0x34 then .a ⟨n % 4, by omega⟩
  else if n < 0x3C then .m ⟨(n - 0x34) % 8, by omega⟩
  else .bad

def Cls.isS : Cls → Bool
  | .s _ => true
  | _ => false
def Cls.isT : Cls → Bool
  | .t _ => true
  | _ => false
def Cls.isA : Cls → Bool
  | .a _ => true
  | _ => false
def Cls.isM : Cls → Bool
  | .m _ => true
  | _ => false

/-- The S register number of a code (0 for another class). -/
def sNum (c : BitVec 6) : Fin 32 :=
  match clsOf c with
  | .s n => n
  | _ => 0
/-- The M register number of a code. -/
def mNum (c : BitVec 6) : Fin 8 :=
  match clsOf c with
  | .m n => n
  | _ => 0

/-- A register of a glove, as hazards name it (R62). -/
inductive RegId
  | s (n : Fin 32)
  | t (n : Fin 16)
  | a (n : Fin 4)
  | m (n : Fin 8)
  | d (n : Fin 16)
  | p (n : Fin 8)
  deriving DecidableEq, Repr

/-- The register that an operand code names; S0 is no register that can be written. -/
def regOf (c : BitVec 6) : List RegId :=
  match clsOf c with
  | .s n => if n = 0 then [] else [.s n]
  | .t n => [.t n]
  | .a n => [.a n]
  | .m n => [.m n]
  | .bad => []

/-! ### Registers of a glove -/

/-- S[n]; S0 reads as zero (R56). -/
def Glove.sreg (g : Glove) (n : Fin 32) : Word := if n = 0 then 0 else g.s[n.val]
/-- Write S[n]; a write to S0 is discarded (R56). -/
def Glove.setS (g : Glove) (n : Fin 32) (v : Word) : Glove := if n = 0 then g else { g with s := vset g.s n v }

/-- A row of a tile or accumulator: zero while it is not valid or the row is not written (R57). -/
def Tile.row (t : Tile) (r : Fin 64) : Row := if t.valid && bitAt t.written r.val then t.rows[r.val] else 0
/-- Write a row (R57): the first write sets the valid bit and leaves every other row unwritten. -/
def Tile.setRow (t : Tile) (r : Fin 64) (v : Row) : Tile :=
  { valid := true
    written := (if t.valid then t.written else 0) ||| (1 <<< r.val)
    rows := vset t.rows r v
    bad := t.bad &&& ~~~((1 : BitVec 64) <<< r.val)
    weak := t.weak &&& ~~~((1 : BitVec 64) <<< r.val) }

/-- A single-bit error of a row is corrected in place (R58). -/
def Tile.correct (t : Tile) (r : Fin 64) : Tile := { t with weak := t.weak &&& ~~~((1 : BitVec 64) <<< r.val) }

/-- The tile or accumulator of a class. -/
def Glove.tileOf (g : Glove) (c : Cls) : Tile :=
  match c with
  | .t n => g.tile[n.val]
  | .a n => g.acc[n.val]
  | _ => Tile.empty

/-- Whether a latch holds a row of an operand code. -/
def latchHas (l : Option Latch) (code : BitVec 6) (r : Fin 64) : Bool :=
  match l with
  | some x => x.reg == code && x.row == r
  | none => false

/-- A write to a row drops the latches that hold it and a B buffer of its register (R64, R141). -/
def Glove.dropRow (g : Glove) (code : BitVec 6) (r : Fin 64) : Glove :=
  { g with
    latchA := if latchHas g.latchA code r then none else g.latchA
    latchB := if latchHas g.latchB code r then none else g.latchB
    bbuf := match g.bbuf with
      | some b => if b.reg = code then none else g.bbuf
      | none => none }

/-- A read of a row corrects a single-bit error in place; the latches and the B buffer that hold the row become invalid (R58, R64,
R141). -/
def Glove.correctRow (g : Glove) (code : BitVec 6) (r : Fin 64) : Glove :=
  let t := g.tileOf (clsOf code)
  if t.valid && bitAt t.weak r.val then
    let h := g.dropRow code r
    match clsOf code with
    | .t n => { h with tile := vmod h.tile n fun t => t.correct r }
    | .a n => { h with acc := vmod h.acc n fun t => t.correct r }
    | _ => h
  else g

/-- Write row r of the tile or accumulator that a code names. -/
def Glove.putRow (g : Glove) (code : BitVec 6) (r : Fin 64) (v : Row) : Glove :=
  let g := g.dropRow code r
  match clsOf code with
  | .t n => { g with tile := vmod g.tile n fun t => t.setRow r v }
  | .a n => { g with acc := vmod g.acc n fun t => t.setRow r v }
  | _ => g

/-- The operand code of tile n and of accumulator n (R78). -/
def tCode (n : Fin 16) : BitVec 6 := BitVec.ofNat 6 (0x20 + n.val)
def aCode (n : Fin 4) : BitVec 6 := BitVec.ofNat 6 (0x30 + n.val)

/-- Release the registers that the masks name: valid bits, latches and B buffer (R58). -/
def Glove.release (g : Glove) (tm : BitVec 16) (am : BitVec 4) : Glove :=
  let named (code : BitVec 6) : Bool :=
    match clsOf code with
    | .t n => bitAt tm n.val
    | .a n => bitAt am n.val
    | _ => false
  { g with
    tile := g.tile.mapFinIdx fun i t _ => if bitAt tm i then Tile.empty else t
    acc := g.acc.mapFinIdx fun i t _ => if bitAt am i then Tile.empty else t
    latchA := match g.latchA with
      | some l => if named l.reg then none else g.latchA
      | none => none
    latchB := match g.latchB with
      | some l => if named l.reg then none else g.latchB
      | none => none
    bbuf := match g.bbuf with
      | some b => if named b.reg then none else g.bbuf
      | none => none }

/-- TVALID and AVALID (R55). -/
def Glove.tvalid (g : Glove) : BitVec 16 := BitVec.ofNat 16 (digits 1 (fun i => b2n ((g.tile[i]?).any (·.valid))) 0 16)
def Glove.avalid (g : Glove) : BitVec 4 := BitVec.ofNat 4 (digits 1 (fun i => b2n ((g.acc[i]?).any (·.valid))) 0 4)

/-- Which operand a row is read as. -/
inductive Side
  | a | b
  deriving DecidableEq, Repr

/-- Read a tile or accumulator row as an operand (R64): the row (none: a double-bit error, R58), whether the latch gave it,
and the glove with its latch refilled. -/
def Glove.readRow (g : Glove) (side : Side) (reuse : Bool) (code : BitVec 6) (r : Fin 64) : Option Row × Bool × Glove :=
  let l := match side with
    | .a => g.latchA
    | .b => g.latchB
  if reuse && latchHas l code r then (l.map (·.data), true, g)
  else
    let t := g.tileOf (clsOf code)
    if t.valid && bitAt t.bad r.val then (none, false, g)
    else
      let h := g.correctRow code r
      let x : Latch := ⟨code, r, t.row r⟩
      (some (t.row r), false, match side with
        | .a => { h with latchA := some x }
        | .b => { h with latchB := some x })

/-- The responses that a glove waits for. -/
def Glove.responses (g : Glove) : List Resp := (g.inflight.map (·.resp)).flatten

/-- Memory IDs that a glove holds: one per outstanding transaction (R63). -/
def Glove.ids (g : Glove) : Nat := (g.responses.map (·.ids)).sum

/-- The address of the instruction after the one at PC (R69). -/
def Glove.pcNext (g : Glove) : BitVec 32 := g.pc + 8

/-- Registers as at the start of a launch or first tick run (R76), apart from those the launch loads. -/
def Glove.clearRegs (g : Glove) : Glove :=
  { g with
    s := Vector.replicate 32 0
    d := Vector.replicate 16 0
    m := Vector.replicate 8 0
    p := Vector.replicate 8 0
    tile := Vector.replicate 16 Tile.empty
    acc := Vector.replicate 4 Tile.empty
    latchA := none
    latchB := none
    bbuf := none
    staging := 0
    combiner := []
    spatialRows := [] }

end Sys2Proof.Machine
end

