-- ==== Sys2Proof/Machine/Access.lean ====
section
/-!
DEFINITION. Accesses of a glove at its master port: reach of a tick run (R216), rooms (R186, R326), decode (R12, R13),
readiness (R16, R40, R41, R353), and the codes of R345 that they raise.
-/
namespace Sys2Proof.Machine

/-! ### Fault codes (R345) -/

def fcIllegal : Byte := 0x01
def fcPcRange : Byte := 0x02
def fcRoom : Byte := 0x03
def fcUnmapped : Byte := 0x04
def fcReadonly : Byte := 0x05
def fcAlign : Byte := 0x06
def fcDesc : Byte := 0x07
def fcPoison : Byte := 0x08
def fcTileUe : Byte := 0x09
def fcBolt : Byte := 0x0A
def fcPatBad : Byte := 0x0B
def fcPatLost : Byte := 0x0C
def fcGather : Byte := 0x0D
def fcAccType : Byte := 0x0E
def fcExch : Byte := 0x0F
def fcSpatial : Byte := 0x10
def fcHashFull : Byte := 0x11
def fcReach : Byte := 0x12
def fcHost : Byte := 0x13
def fcBus : Byte := 0x14
def fcHang : Byte := 0x15

/-- A value, a fault code, or a wait: for a target of a wing, if it is one's. -/
inductive Res (α : Type) where
  | ok (x : α)
  | fault (code : Byte)
  | stall (w : Option WingIx := none)
  deriving DecidableEq, Repr

/-- Continue with the value. -/
def Res.bind {α β : Type} : Res α → (α → Res β) → Res β
  | .ok x, f => f x
  | .fault c, _ => .fault c
  | .stall w, _ => .stall w

/-- The first result that is not a value, in order; the values otherwise. -/
def Res.all {α : Type} : List (Res α) → Res (List α)
  | [] => .ok []
  | r :: l => r.bind fun x => (Res.all l).bind fun xs => .ok (x :: xs)

/-- A value when a condition holds, a fault otherwise. -/
def Res.guard (c : Bool) (code : Byte) : Res Unit := if c then .ok () else .fault code

/-- Where an access of a glove goes. -/
inductive Path
  | mem
  | host (p : PortIx)
  deriving DecidableEq, Repr

/-- Whether a byte lies in the pinned pages of a lease (R36, R216). -/
def State.inLeasePages (s : State) (n : LeaseIx) (a : Nat) : Bool :=
  let l := s.lease n
  match decodeAddr s.hall.remap a with
  | .pantry w o => w == wingOf l.engine && decide (l.firstPage.toNat ≤ o / 65536) && decide (o / 65536 < l.firstPage.toNat + l.pages.toNat)
  | _ => false

/-- Whether a tick run of an engine may make an access to one byte of memory (R216). -/
def State.tickReach (s : State) (e : EngIx) (a : Nat) : Bool :=
  let t := (s.eng e).tick
  s.inLeasePages t.lease a || (t.spilled && match decodeAddr s.hall.remap a with
    | .hbm w _ => w == wingOf e
    | _ => false)

/-- Whether an address decodes to what a permission needs: mapped, and not the boot ROM for a write (R12, R13, R110). -/
def State.decodeRes (s : State) (a : Nat) (p : Perm) : Res Unit :=
  match decodeAddr s.hall.remap a with
  | .none => .fault fcUnmapped
  | .rom _ => match p with
    | .w => .fault fcReadonly
    | .u => .fault fcAccType
    | _ => .ok ()
  | .sram _ => if p = .u then .fault fcAccType else .ok ()
  | .reg _ => .fault fcRoom
  | .census _ => .fault fcRoom
  | _ => .ok ()

/-- Readiness of the target of one address for a glove on wing w. -/
def State.readyRes (s : State) (w : WingIx) (a : Nat) : Res Unit :=
  match s.ready (some w) a with
  | .ok => .ok ()
  | .busErr => .fault fcBus
  | .stall => .stall (decodeAddr s.hall.remap a).wing

/-- Whether a host port carries memory requests of the part now (R206, R326, R329). -/
def HostPort.carries (p : HostPort) : Bool := p.lstate != 0 && !p.d3hot

/-- The stored value of a writable dword. -/
def HostPort.cfgStored (p : HostPort) (off : Nat) (reset : BitVec 32) : BitVec 32 :=
  match p.cfg.find? fun c => c.1 == off with
  | some c => c.2
  | none => reset

/-- The Max Payload Size that the host has programmed in Device Control, at most the 256 bytes that the part supports (R320). -/
def HostPort.mps (p : HostPort) : Nat := min 256 (128 * 2 ^ fld (p.cfgStored 0x58 0x2810) 7 5)

/-- The Max Read Request Size that the host has programmed, at most the 512 bytes that the part uses (R320). -/
def HostPort.mrrs (p : HostPort) : Nat := min 512 (128 * 2 ^ fld (p.cfgStored 0x58 0x2810) 14 12)

/-- The read requests that carry a read of at most 256 bytes: none crosses a 4 KiB boundary, none exceeds the programmed size
(R320, R321). -/
def HostPort.readTlps (p : HostPort) (a n : Nat) : Nat :=
  let k := min n (4096 - a % 4096)
  (k + p.mrrs - 1) / p.mrrs + (n - k + p.mrrs - 1) / p.mrrs

/-- A posted write as TLPs that obey a payload size (R320): it is cut at the addresses that are multiples of the size, so that no
TLP crosses a 4 KiB boundary. -/
def tlpSplit (mps : Nat) : Nat → Tlp → List Tlp
  | 0, t => [t]
  | n + 1, t =>
    let k := mps - t.addr % mps
    if t.data.length ≤ k then [t]
    else { t with data := t.data.take k } :: tlpSplit mps n { t with addr := t.addr + k, data := t.data.drop k }

/-- The TLPs in which a port sends a posted write. -/
def HostPort.tlps (p : HostPort) (t : Tlp) : List Tlp := tlpSplit p.mps t.data.length t

/-- The checks of an access of a glove at its master port and in the address map: where it goes. An access that a drain of REMAP holds is
decoded by the new mapping (R16). An element address of `gath` or `scat` beyond 2^48, for which R110 names no fault, is ADDR_UNMAPPED
before any room check, as R120 has it for segments (DESIGN CHOICE, log 42). -/
def State.gloveCheck (s : State) (gl : GloveRef) (a n : Nat) (p : Perm) : Res Path :=
  let g := s.glv gl
  let port := (s.tenant g.tenant).port
  if n = 0 then .ok .mem
  else if 2 ^ 48 < a + n then .fault (if g.kind = .tick then fcReach else fcUnmapped)
  else
    let viaHost := decide (port.val < 4) && s.hostRoom g.tenant a n p
    if g.kind = .tick && !(if viaHost then p == .w else (spots a n).all (s.tickReach gl.e)) then .fault fcReach
    else if viaHost then
      if h : port.val < 4 then (if p = .u then .fault fcAccType else .ok (.host ⟨port.val, h⟩)) else .fault fcRoom
    else if !s.roomOk g.tenant a n p then .fault fcRoom
    else if (spots a n).any s.remapHolds then .stall
    else (Res.all ((spots a n).map fun x => s.decodeRes x p)).bind fun _ => .ok .mem

/-- Whether the way to where an access goes carries it now: the wing's link to the Hall and the host port (R7, R206, R353), or the
target (R16, R40, R41). -/
def State.pathReady (s : State) (gl : GloveRef) (a n : Nat) (path : Path) : Res Unit :=
  let w := wingOf gl.e
  match path with
  | .host q => if !s.linkOk w .none then .fault fcBus else if (s.port q).carries then .ok () else .fault fcHost
  | .mem => (Res.all ((spots a n).map (s.readyRes w))).bind fun _ => .ok ()

/-- Where an access of a glove that passes its checks goes, once the way carries it. -/
def State.glovePath (s : State) (gl : GloveRef) (a n : Nat) (p : Perm) : Res Path :=
  (s.gloveCheck gl a n p).bind fun path => (s.pathReady gl a n path).bind fun _ => .ok path

/-- The QoS of a glove's accesses (R19, R36, R60, R194, R216): 15 while it is an armed tick glove, else that of its stream, at most 14. -/
def State.gloveQos (s : State) (gl : GloveRef) : Nat :=
  let g := s.glv gl
  if g.kind = .tick then 15 else min 14 (s.stream g.strm).qos.toNat

/-- The source that a glove's access carries to a target. -/
def State.gloveSrc (s : State) (gl : GloveRef) (a : Nat) : AccSrc :=
  let m := match (decodeAddr s.hall.remap a).wing with
    | some v => masterAt gl.e v
    | none => gl.e.val % 4
  ⟨m, some (s.glv gl).tenant, false, false, s.gloveQos gl, gloveWho gl⟩

/-! ### Transactions of a glove (R24, R25, R30, R63) -/

/-- The transactions of at most 256 bytes, in multiples of 32, that carry an access. -/
def reqsOf (a n : Nat) (write : Bool) : List GloveReq :=
  if n = 0 then [] else
    let lo := a / 32 * 32
    (List.range ((a + n - lo + 255) / 256)).map fun k => ⟨lo + 256 * k, min 256 ((a + n - lo + 31) / 32 * 32 - 256 * k), write⟩

/-- Note the transactions of an access of the row step that runs. -/
def State.noteReqs (s : State) (gl : GloveRef) (a n : Nat) (write : Bool) : State :=
  s.modGlv gl fun g => { g with reqs := g.reqs ++ reqsOf a n write }

/-- Flits of a request and of its response (R30): one per 64 bytes of data, one where there are none. -/
def flitsFor (data : Bool) (bytes : Nat) : Nat := if data then max 1 ((bytes + 63) / 64) else 1

/-- The host port that an access of a glove goes to (R326). -/
def State.hostOf (s : State) (gl : GloveRef) (a : Nat) : Option PortIx :=
  let t := (s.glv gl).tenant
  if h : (s.tenant t).port.val < 4 then
    if s.hostRoom t a 1 .r || s.hostRoom t a 1 .w then some ⟨(s.tenant t).port.val, h⟩ else none
  else none

/-- The wing that an access of a glove goes to; none: the Hall. -/
def State.wingTo (s : State) (gl : GloveRef) (a : Nat) : Option WingIx :=
  if (s.hostOf gl a).isSome then none else (decodeAddr s.hall.remap a).wing

/-- The link direction on which a request of a glove leaves its wing. -/
def State.reqLink (s : State) (gl : GloveRef) (a : Nat) : Option LinkId :=
  let w := wingOf gl.e
  match s.wingTo gl a with
  | some v => if v = w then none else some (.out w (meshPort w v))
  | none => some (.out w 3)

/-- Whether an access of a glove crosses a link direction, out or back. -/
def State.crosses (s : State) (gl : GloveRef) (a : Nat) (l : LinkId) : Bool :=
  let w := wingOf gl.e
  match s.wingTo gl a with
  | some v => v != w && (l == .out w (meshPort w v) || l == .out v (meshPort v w))
  | none => l == .out w 3 || l == .hallTo w

/-- Every glove of the part. -/
def allGloves : List GloveRef := (allFin 16).flatMap fun e => (allFin 4).map fun g => ⟨e, g⟩

/-- The outstanding transactions of a glove. -/
def Glove.outstanding (g : Glove) : List GloveReq := g.responses.flatMap fun r => r.reqs.take r.ids

/-- The request flits of some transactions of a glove on a link direction. -/
def State.flitsOn (s : State) (gl : GloveRef) (l : LinkId) (rs : List GloveReq) : Nat :=
  (rs.map fun q => if s.reqLink gl q.addr = some l then flitsFor q.write q.bytes else 0).sum

/-- The request credits that the gloves' outstanding transactions hold on a link direction (R30, R234). -/
def State.gloveFlits (s : State) (l : LinkId) : Nat := (allGloves.map fun gl => s.flitsOn gl l (s.glv gl).outstanding).sum

/-- How many of some transactions of a glove cross the Hall. -/
def State.hallCount (s : State) (gl : GloveRef) (rs : List GloveReq) : Nat := (rs.filter fun q => (s.wingTo gl q.addr).isNone).length

/-- Tracker entries in use (R25): a granted transaction of a Hall target, and a glove's transaction that crosses the Hall, holds one
until its response leaves. -/
def State.trkUsed (s : State) : Nat :=
  (s.hall.txns.filter fun t => match t.port with
    | .hall _ => true
    | _ => false).length + (allGloves.map fun gl => s.hallCount gl (s.glv gl).outstanding).sum

/-- The state of a link direction. -/
def State.link (s : State) : LinkId → Link
  | .out w j => (s.wing w).links[j.val]
  | .hallTo w => s.hall.toWing[w.val]

/-- Whether n more tracker entries are free (R25): sixteen are left to QoS 15. Which entries a QoS 15 transaction takes first is not stated:
the model counts every entry in use against the 4,080 of the others (DESIGN CHOICE, log 46). -/
def State.trackerHas (s : State) (q15 : Bool) (n : Nat) : Bool := decide (s.trkUsed + n ≤ if q15 then 4096 else 4080)

/-- Whether n more request credits are free on a link direction (R30): four are left to tick transactions. Which credits a tick
transaction takes first is not stated: the model counts every credit in use against the 124 of the others (DESIGN CHOICE, log 46). -/
def State.creditHas (s : State) (l : LinkId) (q15 : Bool) (n : Nat) : Bool :=
  decide ((s.link l).reqUsed + s.gloveFlits l + n ≤ if q15 then 128 else 124)

/-- Whether an engine holds a tick lease. -/
def State.engTick (s : State) (e : EngIx) : Bool :=
  s.ten.leases.toList.any fun l => l.valid && l.kind == 2 && l.engine == e

/-- Whether a glove may take n more memory IDs (R63). -/
def State.idHas (s : State) (gl : GloveRef) (n : Nat) : Bool :=
  let x := s.eng gl.e
  let total := (x.gloves.toList.map Glove.ids).sum + n
  let mine := (s.glv gl).ids + n
  if s.engTick gl.e then
    let three := (x.gloves[3]).ids
    if gl.g = 3 then decide (mine ≤ 64) && (decide (three + n ≤ 16) || decide (total - 16 ≤ 112))
    else decide (mine ≤ 64) && decide (total - min 16 three ≤ 112)
  else decide (mine ≤ 64) && decide (total ≤ 128)

/-- The read requests of some transactions of a glove that wait at a host port for their completions. -/
def State.readsAt (s : State) (gl : GloveRef) (p : PortIx) (rs : List GloveReq) : Nat :=
  (rs.map fun q => if !q.write && s.hostOf gl q.addr == some p then (s.port p).readTlps q.addr q.bytes else 0).sum

/-- Whether a host port can hold one more transaction of a glove: at most 128 read requests are outstanding (R321). -/
def State.npHas (s : State) (gl : GloveRef) (done : List GloveReq) (q : GloveReq) : Bool :=
  if q.write then true
  else match s.hostOf gl q.addr with
    | some p => decide ((allGloves.map fun x => s.readsAt x p (s.glv x).outstanding).sum + s.readsAt gl p (q :: done) ≤ 128)
    | none => true

/-- Whether a transaction of a glove can be outstanding beside some others of its row step: a memory ID, a tracker entry where it crosses
the Hall, credits of the link it leaves by, a place among the requests of its host port. -/
def State.reqFits (s : State) (gl : GloveRef) (done : List GloveReq) (q : GloveReq) : Bool :=
  let q15 := s.gloveQos gl == 15
  s.idHas gl (done.length + 1)
    && ((s.wingTo gl q.addr).isSome || s.trackerHas q15 (s.hallCount gl done + 1))
    && s.npHas gl done q
    && match s.reqLink gl q.addr with
      | some l => s.creditHas l q15 (s.flitsOn gl l (q :: done))
      | none => true

/-- How many transactions of a row step, from the first on, can be outstanding at once; the others follow as responses return. -/
def State.fitCount (s : State) (gl : GloveRef) : List GloveReq → List GloveReq → Nat
  | [], _ => 0
  | q :: l, done => if s.reqFits gl done q then 1 + s.fitCount gl l (q :: done) else 0

/-! ### Host memory (R322, R326) -/

/-- A read of host memory: the bytes that the host answers, each a free value of this draw. -/
def State.hostRead (s : State) (p : PortIx) (a n : Nat) : List Byte × State :=
  ((List.range n).map fun i => Config.hostByte p.val (a + i) s.draws, { s with draws := s.draws + 1 })

/-- A posted write to host memory of a port, in its ordinary queue. -/
def State.hostWrite (s : State) (p : PortIx) (a : Nat) (bs : List Byte) (poisonedWrite : Bool := false) : State :=
  s.modPort p fun x => { x with egress := x.egress ++ [⟨a, bs, poisonedWrite, false, none, 0⟩] }

/-- A write of a tick run enters the bypass lane of eight slots (R222), one slot for each TLP into which the port cuts it; the first of
a run sets the latency fields (R229). It waits for slots when the lane is full. -/
def State.laneWrite (s : State) (p : PortIx) (e : EngIx) (a : Nat) (bs : List Byte) : Res State :=
  let l := (s.port p).tlps ⟨a, bs, false, true, some e, s.now⟩
  if 8 < (s.port p).lane.length + l.length then .stall
  else
    let s1 := s.modPort p fun x => { x with lane := x.lane ++ l }
    .ok (s1.modTick e fun t =>
      if t.laneDone then t
      else
        let ns := BitVec.ofNat 32 (min (2 ^ 32 - 1) (s.now - ((s.eng e).gloves[3]).tickEdge.toNat))
        { t with laneDone := true, lastNs := ns, maxNs := if t.maxNs.ult ns then ns else t.maxNs })

/-! ### Reads and writes of a glove -/

/-- A read of a glove: the bytes, whether they are poisoned, and the state after. It waits behind an earlier access to its line. -/
def State.gloveRead (s : State) (gl : GloveRef) (a n : Nat) (p : Perm := .r) : Res (List Byte × Bool × State) :=
  (s.glovePath gl a n p).bind fun path =>
    match path with
    | .host port => let r := (s.noteReqs gl a n false).hostRead port a n; .ok (r.1, false, r.2)
    | .mem =>
      if s.heldLine (s.keysOf a n) then .stall
      else
        let r := s.accRead (s.gloveSrc gl a) a n
        .ok (r.1, r.2.1, r.2.2.noteReqs gl a n false)

/-- A write of a glove. It waits behind an earlier access to its line. -/
def State.gloveWrite (s : State) (gl : GloveRef) (a : Nat) (bs : List Byte) : Res State :=
  (s.glovePath gl a bs.length .w).bind fun path =>
    let t := s.noteReqs gl a bs.length true
    match path with
    | .host port => if (s.glv gl).kind = .tick then t.laneWrite port gl.e a bs else .ok (t.hostWrite port a bs)
    | .mem =>
      if s.heldLine (s.keysOf a bs.length) then .stall
      else .ok (t.accWrite (s.gloveSrc gl a) a bs)

/-- An accumulate update of a glove (R42): ACC_TYPE when the unit answers with an error response. It waits while INIT loads its window
(R47) and behind an earlier access to its line. -/
def State.gloveUpdate (s : State) (gl : GloveRef) (a op ty v : Nat) : Res State :=
  (s.glovePath gl a (accWidth ty) .u).bind fun _ =>
    match (decodeAddr s.hall.remap a).key with
    | none => .fault fcAccType
    | some k =>
      if s.detHeld k || s.heldLine [k] then .stall
      else match (s.noteReqs gl a (accWidth ty) true).accUpdate (s.gloveSrc gl a) k op ty v with
        | some t => .ok t
        | none => .fault fcAccType

/-! ### What passes with the hearth cycles (R84, R235, R269, R292) -/

/-- The link direction that a target port feeds, if any. -/
def portLink : PortId → Option LinkId
  | .hall t => if h : 6 ≤ t.val ∧ t.val ≤ 9 then some (.hallTo ⟨t.val - 6, by omega⟩) else none
  | .wing w t _ => if h : 2 ≤ t.val ∧ t.val ≤ 5 then some (.out w ⟨t.val - 2, by omega⟩) else none

/-- Request flits of a transaction at a target port (R17, R30). -/
def reqFlits (r : Req) : Nat := flitsFor r.write r.bytes

/-- A tracker entry of its class (R25) for a transaction at a port. -/
def State.trackerFree (s : State) (p : PortId) (r : Req) : Bool :=
  match p with
  | .hall _ => s.trackerHas (r.qos == 15) 1
  | _ => true

/-- Credits of its class on the link behind the port (R30). -/
def State.creditFree (s : State) (p : PortId) (r : Req) : Bool :=
  match portLink p with
  | some l => s.creditHas l r.tick (reqFlits r)
  | none => true

/-- Whether some request waits at a target port that meets a test. -/
def State.anyWaits (s : State) (f : PortId → Req → Bool) : Bool := s.hall.ports.any fun x => x.waiting.any (f x.port)

/-- A flit at MO_j without a credit (R235). -/
def State.meshWaits (s : State) (w : WingIx) (j : Fin 3) : Bool :=
  s.anyWaits fun p r => match p with
    | .wing v t _ => v == w && t.val == 2 + j.val && !s.creditFree p r
    | .hall _ => false

/-- The HBM lanes of a wing at which a request waits. -/
def State.hbmWaits (s : State) (w : WingIx) : Nat :=
  (s.hall.ports.filter fun x => match x.port with
    | .wing v t _ => v == w && t.val == 1 && !x.waiting.isEmpty
    | .hall _ => false).length

/-- Whether the accumulate unit of a wing holds back an access: an update of a window that INIT loads, or an access behind one (R44,
R47). -/
def State.accHolds (s : State) (w : WingIx) : Bool :=
  s.hall.held.any fun h => match h with
    | .acc a => match (decodeAddr s.hall.remap a.addr).key with
      | some k => decide (0x20000000 ≤ k) && keyWing k == w && (s.wing w).det.toList.any (·.initing)
      | none => false
    | _ => false

/-- Whether a row step of an engine waits for its contraction array: the array has work and another step is next for it. -/
def Engine.arrayWaits (x : Engine) : Bool :=
  decide (0 < x.work[1]) && x.gloves.toList.any fun g => g.inflight.any fun r =>
    (r.op == .mma || r.op == .mmas) && decide (r.aux ≤ r.row) && decide (r.row < r.rows)

/-- Whether a row step of an engine holds its unit for want of a memory ID: a glove whose responses are held has another row step to
run and no ID (R63). -/
def State.idWaits (s : State) (e : EngIx) : Bool :=
  (allFin 4).any fun g => (s.glv ⟨e, g⟩).inflight.any (fun r => r.held && !r.resp.isEmpty && decide (r.row < r.rows)) && !s.idHas ⟨e, g⟩ 1

/-- CA_WAIT and ID_STALL of an engine over k hearth cycles. -/
def State.engWaits (k : Nat) (s : State) (e : EngIx) : State :=
  let x := s.eng e
  if !x.clocked then s
  else
    let n := k * ecPerHc x.step
    (s.engCnt e 5 (if x.arrayWaits then min n x.work[1] else 0)).engCnt e 8 (if s.idWaits e then n else 0)

/-- HBM_HELD and HBM_REFRESH of a wing that has waited n lane-fc: how many of them for a refresh is free (log 34). -/
def State.hbmHeld (s : State) (w : WingIx) (n : Nat) : State :=
  (s.wingCnt w 1 n).wingCnt w 9 (Config.hbmRefresh w.val s.now % (n + 1))

/-- What waits through k hearth cycles of 48 fc: CA_WAIT, ID_STALL, HBM_HELD, HBM_REFRESH, MESH_NOCRED, ACC_BP, TRK_FULL, and SCHED_WAIT,
which samples once per 16 fc (R235, R269). -/
def State.countWaits (k : Nat) (s : State) : State :=
  let t := (allFin 16).foldl (State.engWaits k) s
  let u := (allFin 4).foldl (fun t w =>
    ((allFin 3).foldl (fun t j => t.wingCnt w ⟨3 + j.val, by omega⟩ (if s.meshWaits w j then 48 * k else 0))
      (t.hbmHeld w (48 * k * s.hbmWaits w))).wingCnt w 7 (if s.accHolds w then 48 * k else 0)) t
  let ready := (s.ten.streams.toList.map fun st => (st.cmds.filter fun c => c.readyAt != 0).length).sum
  (u.hallCnt 3 (if s.anyWaits fun p r => !s.trackerFree p r then 48 * k else 0)).hallCnt 1 (3 * k * ready)

/-- Response credits come back (R30). -/
def State.clearRsp (s : State) : State :=
  { s with
    wings := s.wings.map fun w => { w with links := w.links.map fun l => { l with rspUsed := 0 } }
    hall := { s.hall with toWing := s.hall.toWing.map fun l => { l with rspUsed := 0 } } }

/-- k hearth cycles pass: the timebase (R292), and in the logic that runs the elapsed counts of the gloves (R84), the cycle counters and
those of what waits (R235, R240, R269) and the tokens of the budget meter (R267). -/
def State.passHc (k : Nat) (s : State) : State :=
  let t := s.modHearth fun h => { h with time := if h.por then h.time else h.time + BitVec.ofNat 64 (40 * k) }
  if !s.alive then t
  else
    let u : State := if s.fabricOn then t.countWaits k else t
    let v := { u with engines := u.engines.map (Engine.passHc s.frozenCnt k) }
    if s.fabricOn then
      let v := v.clearRsp
      { v.hallCnt 0 (48 * k) with obs := (v.hallCnt 0 (48 * k)).obs.refill k, cores := { v.cores with harts := v.cores.harts.map (Hart.passHc k) } }
    else v

/-- TIME brought to the first hearth cycle at or after a moment; TIME never goes back (R292, log 7). -/
def State.advanceTo (s : State) (t : Nat) : State := if t ≤ s.now then s else s.passHc ((t - s.now + 39) / 40)

end Sys2Proof.Machine
end

