-- ==== Sys2Proof/Machine/Descriptor.lean ====
section
/-!
DEFINITION. Descriptors and segments (R118-R125), element formats (R126, R127), conversion and block scales (R128-R134).
-/
namespace Sys2Proof.Machine

/-! ### Fields (R118) -/

/-- Word w of a descriptor (R82, R118). -/
def Desc.word (d : Desc) (w : Nat) : Word := d.extractLsb' (64 * w) 64
/-- A descriptor with word w replaced. -/
def Desc.setWord (d : Desc) (w : Nat) (v : Word) : Desc :=
  BitVec.ofNat 512 (digits 64 (fun i => if i = w then v.toNat else (Desc.word d i).toNat) 0 8)

def Desc.base (d : Desc) : Nat := fld (Desc.word d 0) 47 0
def Desc.ndim (d : Desc) : Nat := fld (Desc.word d 0) 50 48
def Desc.fmt (d : Desc) : Nat := fld (Desc.word d 0) 56 52
def Desc.slink (d : Desc) : Nat := fld (Desc.word d 0) 60 57
def Desc.sblk (d : Desc) : Nat := fld (Desc.word d 0) 62 61
def Desc.size (d : Desc) (k : Nat) : Nat := fld (Desc.word d (1 + k)) 31 0
def Desc.stride (d : Desc) (k : Nat) : Int := sgn 32 (fld (Desc.word d (1 + k)) 63 32)

/-- Elements of a scale block (R118): 0 for none. -/
def blockOf (code : Nat) : Nat :=
  match code with
  | 1 => 16
  | 2 => 32
  | 3 => 64
  | _ => 0

/-! ### Formats (R126) -/

/-- What a format code stands for. -/
inductive EFmt
  | byte
  | int (signed : Bool) (bits : Nat)
  | flt (f : FFmt)
  | e8m0
  deriving DecidableEq, Repr

/-- The format of an FMT code; none for a reserved one. -/
def efmt (code : Nat) : Option EFmt :=
  match code with
  | 0 => some .byte
  | 1 => some (.int true 4)
  | 2 => some (.int true 8)
  | 3 => some (.int true 32)
  | 4 => some (.flt e2m1)
  | 5 => some (.flt e4m3)
  | 6 => some (.flt e5m2)
  | 7 => some (.flt fp16)
  | 8 => some (.flt bf16)
  | 9 => some (.flt fp32)
  | 10 => some .e8m0
  | 11 => some (.int true 16)
  | 12 => some (.int false 16)
  | 13 => some (.int false 32)
  | _ => none

/-- Width of a format in bits. -/
def EFmt.bits : EFmt → Nat
  | .byte => 8
  | .int _ b => b
  | .flt f => f.width
  | .e8m0 => 8

/-- Width of an FMT code in bits; 8 for a reserved one, which R119 refuses first. -/
def fmtBits (code : Nat) : Nat :=
  match efmt code with
  | some f => f.bits
  | none => 8

/-- The exact value of an element (R126); an E8M0 code of 0xFF is a NaN. BYTE counts as an unsigned number. -/
def EFmt.value (f : EFmt) (bits : Nat) : FV :=
  match f with
  | .byte => .fin false (bits % 256) 0
  | .int true w => let i := sgn w bits; .fin (i < 0) i.natAbs 0
  | .int false w => .fin false (bits % 2 ^ w) 0
  | .flt f => f.decode bits
  | .e8m0 => if bits % 256 = 255 then .nan false else .fin false 1 ((bits % 256 : Nat) - 127)

/-! ### Checks (R119) -/

/-- The conditions of R119 on one descriptor. -/
def Desc.ok (d : Desc) : Bool :=
  decide (1 ≤ Desc.ndim d) && decide (Desc.ndim d ≤ 6) && (efmt (Desc.fmt d)).isSome
    && (List.range (Desc.ndim d)).all (fun k => Desc.size d k != 0)
    && !(fmtBits (Desc.fmt d) == 4 && Desc.size d 0 % 2 == 1)

/-- The conditions of R128 on a value descriptor and its scale descriptor, but for the alignment conditions. -/
def scaleOk (d sc : Desc) : Bool :=
  let f := Desc.fmt d
  (f == 1 || f == 2 || f == 4 || f == 5 || f == 6)
    && (Desc.fmt sc == 10 || Desc.fmt sc == 7 || Desc.fmt sc == 8) && Desc.sblk sc == 0 && Desc.ndim sc == Desc.ndim d
    && Desc.size sc 0 == (Desc.size d 0 + blockOf (Desc.sblk d) - 1) / blockOf (Desc.sblk d)
    && ((List.range (Desc.ndim d)).drop 1).all fun k => Desc.size sc k == Desc.size d k

/-! ### Segments (R120) -/

/-- OUTER and INNER of an origin. -/
def originOuter (o : Word) : Nat := fld o 31 0
def originInner (o : Word) : Nat := fld o 63 32

/-- Coordinates c[1] … c[NDIM-1] times their strides, and the product of the sizes. -/
def outerOffset (d : Desc) (outer : Nat) : Nat → Nat → Nat → Int → Int × Nat
  | 0, _, p, acc => (acc, p)
  | n + 1, k, p, acc =>
    outerOffset d outer n (k + 1) (p * Desc.size d k) (acc + ((outer / p % Desc.size d k : Nat) : Int) * Desc.stride d k)

/-- A segment: its byte address and its elements. -/
structure Seg where
  addr : Int
  n : Nat
  extent : Nat
  deriving DecidableEq, Repr

/-- The segment of outer index `outer` from element `inner` on, of at most w elements; none when it is out of extent. -/
def Desc.seg (d : Desc) (outer inner w : Nat) : Option Seg :=
  let bits := fmtBits (Desc.fmt d)
  let x := outerOffset d outer (Desc.ndim d - 1) 1 1 0
  if x.2 ≤ outer ∨ Desc.size d 0 ≤ inner then none
  else
    let n := min w (Desc.size d 0 - inner)
    some ⟨(Desc.base d : Int) + x.1 + ((inner * bits / 8 : Nat) : Int), n, n * bits / 8⟩

/-- The product of the outer sizes: how many segments-of-rows the tensor has. -/
def Desc.outers (d : Desc) : Nat := (outerOffset d 0 (Desc.ndim d - 1) 1 1 0).2

/-- Address checks of a value segment (R120, R123): its address as a number. -/
def Seg.check (g : Seg) (tolerant : Bool) : Res Nat :=
  if g.addr < 0 ∨ 2 ^ 48 < g.addr + g.extent then .fault fcUnmapped
  else if !tolerant && !(g.addr % 32 == 0 && g.extent % 32 == 0) then .fault fcAlign
  else .ok g.addr.toNat

/-- A segment whose alignment is not checked: a scale segment (R134). -/
def Seg.checkFree (g : Seg) : Res Nat :=
  if g.addr < 0 ∨ 2 ^ 48 < g.addr + g.extent then .fault fcUnmapped else .ok g.addr.toNat

/-- Elements of a format that fill a row (R120). -/
def rowElts (code : Nat) : Nat := 2048 / fmtBits code

/-! ### Conversion (R133) -/

/-- An exact quotient: m × 2^e, a little more when sticky. -/
structure Quot where
  v : FV
  sticky : Bool
  deriving DecidableEq, Repr

/-- Convert a value by the table of R133; none where the table has no column for the format. -/
def convTo (code : Nat) (q : Quot) : Option Nat :=
  match efmt code with
  | some (.flt f) => some (f.encodeWith .saturate q.v q.sticky)
  | some (.int sg w) => some (match q.v with
    | .nan _ => 0
    | .inf n => if n then (if sg then 2 ^ (w - 1) else 0) else (if sg then 2 ^ (w - 1) - 1 else 2 ^ w - 1)
    | .fin _ _ _ => clampInt sg w (Dy.roundInt q.v.dy q.sticky))
  | _ => none

/-- x ÷ y exactly, with the IEEE rules for zeros, infinities and NaN. -/
def quotOf (x y : FV) : Quot :=
  match x, y with
  | .nan n, _ => ⟨.nan n, false⟩
  | _, .nan _ => ⟨.nan false, false⟩
  | .inf _, .inf _ => ⟨.nan false, false⟩
  | .inf a, y => ⟨.inf (a != y.neg), false⟩
  | .fin a _ _, .inf b => ⟨.fin (a != b) 0 0, false⟩
  | .fin a m e, .fin b n g =>
    if n = 0 then (if m = 0 then ⟨.nan false, false⟩ else ⟨.inf (a != b), false⟩)
    else let r := divMag m e n g; ⟨.fin (a != b) r.1 r.2.1, r.2.2⟩

/-- The larger magnitude of a running maximum and a value; NaN and infinity take no part (R133). -/
def amaxStep (a : Dy) (v : FV) : Dy :=
  match v with
  | .fin _ m e => if Dy.cmp a ⟨m, e⟩ = .lt then ⟨m, e⟩ else a
  | _ => a

/-- amax of a block (R134). -/
def amaxOf (l : List FV) : Dy := l.foldl amaxStep ⟨0, 0⟩

/-- emax of R134 for a value format. -/
def emaxOf (code : Nat) : Int :=
  match code with
  | 5 => 8
  | 6 => 15
  | 4 => 2
  | 1 => 2
  | _ => 0

/-- vmax of R134: the largest finite value of a value format (R126). -/
def vmaxOf (code : Nat) : Dy :=
  match efmt code with
  | some (.flt f) => (f.decode (f.topCode - 1)).dy
  | some (.int sg w) => ⟨if sg then 2 ^ (w - 1) - 1 else 2 ^ w - 1, 0⟩
  | _ => ⟨1, 0⟩

/-- The scale code of a block (R134). -/
def scaleCode (vfmt sfmt : Nat) (amax : Dy) : Nat :=
  if sfmt = 10 then
    let s : Int := if amax.m = 0 then -127 else (amax.e + (bitLen amax.m.natAbs : Int) - 1) - emaxOf vfmt
    (max (-127) (min 127 s) + 127).toNat
  else
    let f := if sfmt = 7 then fp16 else bf16
    if amax.m = 0 then f.encode (.fin false 1 0)
    else
      let q := quotOf amax.toFV (vmaxOf vfmt).toFV
      f.encode q.v q.sticky

/-- The value of a scale with the implicit factor of R129: 2^-6 for INT8 with E8M0. -/
def scaleValue (vfmt sfmt code : Nat) : FV :=
  match efmt sfmt with
  | some f =>
    let v := f.value code
    if sfmt = 10 ∧ vfmt = 2 then FV.mul v (.fin false 1 (-6)) else v
  | none => .nan false

/-- A block with its scale: the scale code and the converted element codes (R134). -/
def quantBlock (vfmt sfmt : Nat) (l : List FV) : Nat × List Nat :=
  let c := scaleCode vfmt sfmt (amaxOf l)
  let sv := scaleValue vfmt sfmt c
  (c, l.map fun x => (convTo vfmt (quotOf x sv)).getD 0)

/-- The blocks of a list of values. -/
def quantBlocks (vfmt sfmt blk : Nat) : Nat → List FV → List (Nat × List Nat)
  | 0, _ => []
  | _, [] => []
  | n + 1, l => quantBlock vfmt sfmt (l.take blk) :: quantBlocks vfmt sfmt blk n (l.drop blk)

/-- Elements of a format packed into bytes, little-endian (R127). -/
def packElts (bits : Nat) (l : List Nat) : List Byte :=
  toBytes ((l.length * bits + 7) / 8) (l.foldr (fun v acc => v % 2 ^ bits + 2 ^ bits * acc) 0)

/-- Elements of a format out of bytes. -/
def unpackElts (bits : Nat) (bs : List Byte) : List Nat :=
  let v := ofBytes bs
  (List.range (bs.length * 8 / bits)).map fun i => (v >>> (bits * i)) % 2 ^ bits

end Sys2Proof.Machine
end

