-- ==== Sys2Proof/Machine/Complete.lean ====
section
/-!
DEFINITION. How commands of a stream complete (R196, R199), how the instances of a launch end (R77, R91), and the wake of
an engine (R296).
-/
namespace Sys2Proof.Machine

/-- A wake event of an engine (R296): it starts its return to RUN, and wakes its wing from STANDBY (R303). -/
def State.engineWake (s : State) (e : EngIx) : State :=
  if (s.eng e).pwrState = 0 then s
  else (s.modEng e fun x => { x with waking := true }).modWing (wingOf e) fun w =>
    { w with pwrState := if w.pwrState = 1 then 2 else w.pwrState }

/-- The step of an engine (R306, R307, R309): 1.6 GHz with an armed lease, else the governor's; at most 0.8 GHz under EMERG. -/
def stepInForce (h : Hearth) (x : Engine) : BitVec 2 :=
  let b := if x.tick.armed then 0 else h.step
  if h.emerg && b.ult 2 then 2 else b

/-- Every engine runs at its step. -/
def State.setSteps (s : State) : State :=
  { s with engines := s.engines.map fun x => { x with step := stepInForce s.hearth x } }

/-- GFAULT of one fault (R94). -/
def gfaultWord (code : Byte) (row : Option Nat) (rank : BitVec 8) (pc : BitVec 32) : Word :=
  at_ code.toNat 0 ||| (match row with
    | some r => at_ (r % 64) 9 ||| at_ 1 15
    | none => 0) ||| at_ rank.toNat 16 ||| at_ pc.toNat 32

/-- MORE of GFAULT (R90, R94). -/
def moreBit : Word := 0x100

/-! ### Commands -/

/-- STATUS codes of a completion (R199). -/
def stOk : Byte := 0
def stFault : Byte := 1
def stBadCommand : Byte := 2
def stBadProgram : Byte := 3
def stLeaseShort : Byte := 4
def stCapacity : Byte := 5
def stNotOwner : Byte := 6
def stTimeout : Byte := 7
def stAborted : Byte := 8
def stBusy : Byte := 9

/-- A field of a command record (R197, R198): n bytes at an offset. -/
def recFld (r : BitVec 512) (off n : Nat) : Nat := (r.toNat >>> (8 * off)) % 2 ^ (8 * n)
/-- KIND, FLAGS and TAG of a record. -/
def recKind (r : BitVec 512) : Nat := recFld r 0 1
def recFlag (r : BitVec 512) (b : Nat) : Bool := (recFld r 1 1 >>> b) % 2 == 1
def recTag (r : BitVec 512) : Nat := recFld r 2 2

/-- A fetched command of a stream by its index. -/
def Stream.cmd? (st : Stream) (i : BitVec 32) : Option Cmd := st.cmds.find? fun c => c.index == i

/-- Change a fetched command of a stream. -/
def State.modCmd (s : State) (n : StrmIx) (i : BitVec 32) (f : Cmd → Cmd) : State :=
  s.modStream n fun st => { st with cmds := st.cmds.map fun c => if c.index = i then f c else c }

/-- A command has done its work: its completion is due (R199). -/
def State.cmdDone (s : State) (n : StrmIx) (i : BitVec 32) (status : Byte) (detail detail2 : Word) : State :=
  s.modCmd n i fun c => if c.phase = .done then c else { c with phase := .done, status := status, detail := detail, detail2 := detail2 }

/-! ### Records of instances in the trace (R264) -/

/-- Word 1 of BEGIN for an instance of a launch. -/
def beginWord (strm : StrmIx) (rank : BitVec 8) (tick : Bool) (tag : Nat) (ix : BitVec 32) : Word :=
  at_ strm.val 0 ||| at_ (rank.toNat % 64) 9 ||| at_ (b2n tick) 15 ||| at_ (tag % 65536) 16 ||| at_ ix.toNat 32

/-- The TAG of a command. -/
def State.tagOf (s : State) (n : StrmIx) (i : BitVec 32) : Nat :=
  match (s.stream n).cmd? i with
  | some c => recTag c.record
  | none => 0

/-- BEGIN of the instance on a glove. -/
def State.traceBegin (s : State) (gl : GloveRef) : State :=
  let g := s.glv gl
  s.trace (engChan gl.e) false true (some g.tenant) 0x04 gl.g.val
    (beginWord g.strm g.rank false (s.tagOf g.strm g.cmdIx) g.cmdIx)

/-- END of the instance on a glove, with a STATUS. -/
def State.traceEnd (s : State) (gl : GloveRef) (status : Byte) : State :=
  let g := s.glv gl
  s.trace (engChan gl.e) false true (some g.tenant) 0x05 gl.g.val
    (setFld (beginWord g.strm g.rank false (s.tagOf g.strm g.cmdIx) g.cmdIx) 16 8 status.toNat)

/-! ### Launches -/

/-- The launch that an instance belongs to. -/
def State.launchOf (s : State) (n : StrmIx) (i : BitVec 32) : Option Launch :=
  s.ten.launches.find? fun l => l.strm == n && l.index == i

/-- Change a launch. -/
def State.modLaunch (s : State) (n : StrmIx) (i : BitVec 32) (f : Launch → Launch) : State :=
  s.modTen fun x => { x with launches := x.launches.map fun l => if l.strm = n ∧ l.index = i then f l else l }

/-- DETAIL and DETAIL2 of a launch, COPY or RELAYOUT (R199). -/
def Launch.details (l : Launch) (kind : Nat) : Word × Word :=
  match l.fault with
  | some w => (w, if kind = 1 then l.queueNs.zeroExtend 64 ||| (l.swapNs.zeroExtend 64 <<< 32) else at_ l.progress 0)
  | none =>
    if kind = 1 then (at_ l.maxStatus.toNat 0, l.queueNs.zeroExtend 64 ||| (l.swapNs.zeroExtend 64 <<< 32))
    else if kind = 2 then (at_ l.progress 0, 0)
    else (0, 0)

/-- When every instance has ended, the command completes and the launch is over (R77, R91). -/
def State.launchCheck (s : State) (n : StrmIx) (i : BitVec 32) : State :=
  match s.launchOf n i with
  | some l =>
    if l.insts.all (·.2.2) then
      let kind := match (s.stream n).cmd? i with
        | some c => recKind c.record
        | none => 1
      let d := l.details kind
      let status := if l.fault.isSome then stFault else if l.aborted then stAborted else stOk
      let t := s.modTen fun x => { x with launches := x.launches.filter fun y => !(y.strm == n && y.index == i) }
      (t.modStream n fun st => { st with relayNext := if kind = 3 then 0 else st.relayNext }).cmdDone n i status d.1 d.2
    else s
  | none => s

/-- Mark an instance of a launch as ended, with the STATUS of its `end`. -/
def State.instDone (s : State) (n : StrmIx) (i : BitVec 32) (gl : GloveRef) (status : BitVec 16) : State :=
  (s.modLaunch n i fun l =>
    { l with insts := l.insts.map fun x => if x.1 = gl then (x.1, x.2.1, true) else x
             maxStatus := if l.maxStatus.ult status then status else l.maxStatus }).launchCheck n i

/-- Leave a glove empty (R77, R91): nothing runs on it; a resident context keeps its binding (R192). -/
def Glove.empty (g : Glove) : Glove :=
  { g with state := 0, kind := .none, inflight := [], wait := .none, latchA := none, latchB := none, bbuf := none,
           trow := 0, combiner := [], spatialRows := [], swapping := false, resuming := false, dying := none,
           hang := { g.hang with frozen := false, freezing := false, bolt := none } }

/-- Hall counter SCHED_BINDS, TICK_FIRES and the others by their code. -/
def hallFcyc : Fin 7 := 0
def hallSchedWait : Fin 7 := 1
def hallSchedBinds : Fin 7 := 2
def hallTrkFull : Fin 7 := 3
def hallObsDrop : Fin 7 := 4
def hallObsBytes : Fin 7 := 5
def hallTickFires : Fin 7 := 6

end Sys2Proof.Machine
end

