-- ==== Sys2Proof/Machine/Bolt.lean ====
section
/-!
DEFINITION. The bolt unit (R85, R86, R202-R204): signals, grants and timeouts.
-/
namespace Sys2Proof.Machine

/-- The tenant for which a party acts. -/
def State.partyTenant (s : State) : BoltParty → TenIx
  | .glove gl => (s.glv gl).tenant
  | .stream n => (s.stream n).tenant

/-- Whether a bolt is allocated to a tenant. -/
def State.ownsBolt (s : State) (b : BoltIx) (t : TenIx) : Bool := (s.bolt b).alloc && (s.bolt b).owner == t

/-- Add n to a bolt's count (R204): at most 0xFFFF_FFFF, with OVF and BOLT_OVERFLOW beyond. -/
def State.boltAdd (s : State) (b : BoltIx) (who : BoltParty) (n : Nat) : State :=
  let x := s.bolt b
  let beyond := decide (2 ^ 32 ≤ x.count.toNat + n)
  let t := s.modBolt b fun y =>
    { y with count := satAdd y.count n, ovf := y.ovf || beyond, waker := BitVec.ofNat 16 (wakerOf who) }
  if beyond then t.report { code := 0x45, scope := 2, tenant := some x.owner, info := b.val } else t

/-- A signal of a party reaches a bolt (R203): none when the party's tenant does not own it. -/
def State.applySignal (s : State) (b : BoltIx) (who : BoltParty) (n : Nat) : Option State :=
  if s.ownsBolt b (s.partyTenant who) then some (s.boltAdd b who n) else none

/-- The SIGNAL record of a signal that was applied (R264). -/
def State.traceSignal (before after : State) (b : BoltIx) (who : BoltParty) (n : Nat) : State :=
  let set := (after.bolt b).ovf && !(before.bolt b).ovf
  let w1 := at_ b.val 0 ||| at_ (b2n set) 12 ||| at_ (min n 0xFFFF) 16 ||| at_ (after.bolt b).count.toNat 32
  match who with
  | .glove gl => after.trace (engChan gl.e) true false (some (after.glv gl).tenant) 0x02 gl.g.val w1
  | .stream m => after.trace hallChan true false (some (after.stream m).tenant) 0x02 m.val w1

/-- The WAIT record of a wait that ended (R264). -/
def State.traceWait (s : State) (b : BoltIx) (who : BoltParty) (timeout : Bool) (since : Nat) : State :=
  let waker := if timeout then 0x7FFF else (s.bolt b).waker.toNat
  let w1 := at_ b.val 0 ||| at_ (b2n timeout) 12 ||| at_ waker 16 ||| at_ (min (2 ^ 32 - 1) (s.now - since)) 32
  match who with
  | .glove gl => s.trace (engChan gl.e) true false (some (s.glv gl).tenant) 0x01 gl.g.val w1
  | .stream m => s.trace hallChan true false (some (s.stream m).tenant) 0x01 m.val w1

/-- The wait of a glove ends: S[d] receives 1 or 0, PC moves on and the engine is woken (R85, R296). A glove whose context an
engine in SLEEP has saved receives both after its restore (R297). -/
def State.endGloveWait (s : State) (gl : GloveRef) (granted : Bool) : State :=
  match (s.glv gl).wait with
  | .bolt _ _ _ _ d _ =>
    let asleep := (s.eng gl.e).saved[gl.g.val]
    (s.modGlv gl fun g =>
      let g1 := if asleep then { g with woken := some (d, granted) }
        else { (g.setS (sNum d) (if granted then 1 else 0)) with pc := g.pc + 8 }
      { g1 with wait := .none, state := 1 }).engineWake gl.e
  | _ => s

/-- The wait of a party ends on bolt b. -/
def State.endWait (s : State) (b : BoltIx) (w : BWaiter) (granted : Bool) : State :=
  let t := s.traceWait b w.who (!granted) w.since
  match w.who with
  | .glove gl => t.endGloveWait gl granted
  | .stream m => t.cmdDone m w.cmdIx (if granted then stOk else stTimeout) ((t.bolt b).count.zeroExtend 64) 0

/-- Serve the head of a bolt's FIFO (R85): its n is subtracted in one step. The state is unchanged while the head waits. -/
def State.boltServe (s : State) (b : BoltIx) : State :=
  match (s.bolt b).fifo with
  | w :: rest =>
    if w.n.toNat ≤ (s.bolt b).count.toNat then
      (s.modBolt b fun x => { x with count := x.count - w.n, fifo := rest }).endWait b w true
    else s
  | [] => s

/-- Withdraw a party from every bolt's FIFO (R206, R281). -/
def State.withdraw (s : State) (b : BoltIx) (who : BoltParty) : State :=
  s.modBolt b fun x => { x with fifo := x.fifo.filter fun w => !(w.who == who) }

end Sys2Proof.Machine
end

