-- ==== Sys2Proof/Machine/LeaseOps.lean ====
section
/-!
DEFINITION. The answers of mailboxes (R181) and the release of leases (R190).
-/
namespace Sys2Proof.Machine

/-! ### Mailbox answers -/

/-- STATUS values of a response (R182). -/
inductive MbSt
  | ok | quota | noResource | busy | badRequest | notOwner | denied
  deriving DecidableEq, Repr

def MbSt.code : MbSt → Nat
  | .ok => 0
  | .quota => 1
  | .noResource => 2
  | .busy => 3
  | .badRequest => 4
  | .notOwner => 5
  | .denied => 6

/-- The interrupt of a mailbox: vector 0 of its port, or PLIC source 1 (R246, R327). -/
def State.mbInterrupt (s : State) (m : MbIx) : State :=
  if h : m.val < 4 then s.msix ⟨m.val, h⟩ 0 else s.modCores fun c => { c with mailboxIrq := true }

/-- Answer the request of a mailbox (R181): RSP, DONE_SEQ, BUSY, then the interrupt. -/
def State.mbReply (s : State) (m : MbIx) (st : MbSt) (result : Nat) : State :=
  (s.modMb m fun x =>
    { x with rsp := (x.rsp.set 0 (at_ st.code 0 ||| at_ result 32)).set 1 x.go, doneSeq := x.go.truncate 32, busy := false }).mbInterrupt m

/-! ### Running work on a lease -/

/-- The LEASE field of a command record, for the kinds that have one (R198). -/
def recLease (r : BitVec 512) : Option Nat :=
  match recKind r with
  | 1 => some (recFld r 0x10 2)
  | 2 => some (recFld r 0x20 2)
  | 3 => some (recFld r 0x20 2)
  | 6 => some (recFld r 0x10 2)
  | 7 => some (recFld r 0x08 2)
  | _ => none

/-- Whether a command of a stream has started and is not complete. -/
def Cmd.started (c : Cmd) : Bool := c.phase != .fetched

/-- Whether a tick lease is armed or its run is in progress. -/
def State.tickBusy (s : State) (n : LeaseIx) : Bool :=
  let l := s.lease n
  let t := (s.eng l.engine).tick
  l.kind == 2 && t.lease == n && (t.armed || t.phase != .idle)

/-- Whether work of a lease runs (R190): a started command that names it, an instance on it, or its tick arming. -/
def State.leaseWork (s : State) (n : LeaseIx) : Bool :=
  s.tickBusy n ||
  (s.ten.streams.toList.any fun st =>
    st.isOpen && st.tenant == (s.lease n).tenant && st.cmds.any fun c => c.started && recLease c.record == some n.val) ||
  (s.engines.toList.any fun e => e.gloves.toList.any fun g => g.kind != .none && g.kind != .tick && g.lease == n)

/-! ### Release -/

/-- The gloves of the engines that a lease holds, with the lease bound on them. -/
def State.leaseGloves (s : State) (n : LeaseIx) : List GloveRef :=
  ((allFin 16).map fun e => (allFin 4).map fun g => (⟨e, g⟩ : GloveRef)).flatten.filter fun gl =>
    bitAt (s.lease n).emask gl.e.val &&
      (if (s.lease n).kind = 2 then gl.g == 3 else if (s.lease n).kind = 0 then (s.lease n).resident == some gl.g else true)

/-- The range of pantry memory that a tick lease pins, as canonical addresses. -/
def Lease.pageRange (l : Lease) : Nat × Nat :=
  let b := 0x20000000 + (wingOf l.engine).val * 0x1000000 + l.firstPage.toNat * 65536
  (b, b + l.pages.toNat * 65536)

/-- The mask of a tick lease's pages among the 128 of its wing. -/
def Lease.pageMask (l : Lease) : BitVec 128 := (BitVec.ofNat 128 (2 ^ l.pages.toNat - 1)) <<< l.firstPage.toNat

/-- Zero a range of memory: contents, poison, core copies, exact sums of deterministic-order windows. -/
def State.wipe (s : State) (lo hi : Nat) : State :=
  let inside := fun a => decide (lo ≤ a) && decide (a < hi)
  let s2 := (s.zeroRange lo hi).dropLines inside
  { s2 with wings := s2.wings.map fun w => { w with det := w.det.map fun d => { d with sums := d.sums.filter fun x => !inside x.addr } } }

/-- Pin or unpin the pages of a tick lease, zeroing them (R190). -/
def State.setPins (s : State) (l : Lease) (on : Bool) : State :=
  let m := l.pageMask
  let lo : Word := m.truncate 64
  let hi : Word := (m >>> 64).truncate 64
  (s.wipe l.pageRange.1 l.pageRange.2).modWing (wingOf l.engine) fun w =>
    if on then { w with pinLo := w.pinLo ||| lo, pinHi := w.pinHi ||| hi }
    else { w with pinLo := w.pinLo &&& ~~~lo, pinHi := w.pinHi &&& ~~~hi }

/-- Release a lease whose work has ended (R190): its contexts are discarded, its slot is free, its pages zeroed and unpinned. -/
def State.releaseLease (s : State) (n : LeaseIx) : State :=
  let l := s.lease n
  let s1 := (s.leaseGloves n).foldl (fun t gl => t.modGlv gl fun g =>
    { g.clearRegs.empty with pc := 0, pinned := if l.kind = 2 then false else g.pinned, tenant := 0, lease := 0 }) s
  let s2 := if l.kind = 2 then s1.setPins l false else s1
  s2.tableChange fun t => t.modLease n fun _ => Lease.free

/-- Release every lease that waits for its work to end and has none left; answer the request that asked for it. -/
def State.leaseSweep (s : State) : State :=
  (allFin 512).foldl (fun t n =>
    match (t.lease n).freeing with
    | some m => if t.leaseWork n then t else (t.releaseLease n).mbReply m .ok 0
    | none => t) s

end Sys2Proof.Machine
end

