-- ==== Sys2Proof/Machine/TickCore.lean ====
section
/-!
DEFINITION. The life of a tick run: firing, the seal decision, the end of a run and of an arming (R213-R229).
-/
namespace Sys2Proof.Machine

/-- The link leaves L1. -/
def HostPort.toL0 (p : HostPort) : HostPort := if 2 ≤ p.lstate.toNat then { p with lstate := 1 } else p

/-- The tick glove of an engine. -/
def tickGlove (e : EngIx) : GloveRef := ⟨e, 3⟩

/-- Whether a lease is armed on engine e. -/
def State.tickArmed (s : State) (e : EngIx) : Bool := (s.eng e).tick.armed

/-- The engines whose leases are armed on a pin. -/
def State.armedOn (s : State) (n : Fin 4) : List EngIx :=
  (allFin 16).filter fun e => (s.eng e).tick.armed && (s.eng e).tick.pin == n

/-- Those of them that count as armed for an edge captured now: from the hc after ARM_TICK's completion (R215). -/
def State.countsOn (s : State) (n : Fin 4) : List EngIx := (s.armedOn n).filter fun e => decide ((s.eng e).tick.armedAt < s.now)

/-- The number of armed leases (R306). -/
def State.armedCount (s : State) : Nat := ((allFin 16).filter s.tickArmed).length

/-- Change a tick pin. -/
def State.modPin (s : State) (n : Fin 4) (f : TPin → TPin) : State := s.modHearth fun h => { h with tpin := vmod h.tpin n f }

/-- Entries that a lease has not served. -/
def TPin.unserved (p : TPin) (e : EngIx) : List FifoEnt := p.fifo.filter fun x => !x.served.contains e

/-- Entries leave a FIFO once every lease armed on the pin has served them (R217). -/
def State.trimFifo (s : State) (n : Fin 4) : State :=
  let armed := s.armedOn n
  s.modPin n fun p => { p with fifo := if armed.isEmpty then [] else p.fifo.filter fun x => !armed.all x.served.contains }

/-- A lease serves the oldest entry that it has not served. -/
def State.serveEntry (s : State) (n : Fin 4) (e : EngIx) : State :=
  match (s.hearth.tpin[n.val]).unserved e with
  | x :: _ =>
    (s.modPin n fun p => { p with fifo := p.fifo.map fun y => if y.ts = x.ts then { y with served := e :: y.served } else y }).trimFifo n
  | [] => s

/-! ### The wake entry of an armed lease (R223) -/

/-- ENGINES bit e with EN and TICK: word 1 of entry 48 + e. -/
def tickWakeCtl (e : EngIx) : Word := 9 ||| (1 <<< (8 + e.val))

/-- The wake-schedule slot of an engine's tick lease (R304). -/
def tickWakeSlot (e : EngIx) : Fin 64 := ⟨48 + e.val, by omega⟩

/-- Refresh entry 48 + e from the pin's LAST and period. -/
def State.refreshWake (s : State) (e : EngIx) : State :=
  let t := (s.eng e).tick
  let p := s.hearth.tpin[t.pin.val]
  let per := if fld p.ctl 47 16 ≠ 0 then fld p.ctl 47 16 else p.interval.toNat
  let ent : WakeEnt := if per = 0 then ⟨0, 0, 0⟩
    else ⟨p.last + BitVec.ofNat 64 per - BitVec.ofNat 64 (40 * fld p.ctl 15 8), tickWakeCtl e, 0⟩
  s.modHearth fun h => { h with wake := vset h.wake (tickWakeSlot e) ent }

/-- Drop entry 48 + e. -/
def State.dropWake (s : State) (e : EngIx) : State :=
  s.modHearth fun h => { h with wake := vset h.wake (tickWakeSlot e) ⟨0, 0, 0⟩ }

/-- Whether P of R223 is 0 for an engine's lease. -/
def State.noPeriod (s : State) (e : EngIx) : Bool :=
  let p := s.hearth.tpin[(s.eng e).tick.pin.val]
  decide (fld p.ctl 47 16 = 0) && p.interval == 0

/-- After a write of a pin's registers: a lease has no entry while P is 0, and one as soon as it is not (R223). -/
def State.fixWake (before : State) (s : State) (e : EngIx) : State :=
  if s.noPeriod e then s.dropWake e else if before.noPeriod e then s.refreshWake e else s

/-! ### The bound (R225, R227) -/

/-- Payload rate of a link in bytes per 4,000 ns and lane pair: Gen1 to Gen4 at x4, scaled by width (R225). -/
def linkRate (speed : BitVec 4) (width : BitVec 3) : Nat :=
  (match speed.toNat with
    | 1 => 1000
    | 2 => 2000
    | 3 => 3938
    | 4 => 7877
    | _ => 0) * width.toNat

/-- The other leases armed by tenants of the same port (R225). -/
def State.otherLeases (s : State) (e : EngIx) : Nat :=
  let port := (s.tenant (s.lease (s.eng e).tick.lease).tenant).port
  ((allFin 16).filter fun x =>
    x != e && s.tickArmed x && (s.tenant (s.lease (s.eng x).tick.lease).tenant).port == port).length

/-- T_tick − t_prog in ns (R227), with t_out from the link's rate; none while the port has no link, for which the manual
gives no rate. -/
def State.tickBound (s : State) (e : EngIx) : Option Nat :=
  let t := (s.eng e).tick
  let p := s.hearth.tpin[t.pin.val]
  let port := (s.tenant (s.lease t.lease).tenant).port
  let rate := if h : port.val < 4 then linkRate (s.port ⟨port.val, h⟩).speed (s.port ⟨port.val, h⟩).width else 0
  if rate = 0 then none
  else
    let bytes := (280 + 88 * s.otherLeases e) * 4000
    some (80 + 40 * fld p.ctl 5 2 + (if 7 ≤ fld p.ctl 15 8 then 0 else 250) + 160 + 40
      + 503 + (bytes + rate - 1) / rate + (if t.spilled then 450 * t.chains.toNat else 0))

/-- Write TICK_BOUND of one armed lease: a free value where the bound has no rate (log 9). -/
def State.setBound (s : State) (e : EngIx) : State :=
  match s.tickBound e with
  | some n => s.modTick e fun t => { t with bound := BitVec.ofNat 32 n }
  | none => let r := s.draw; r.2.modTick e fun t => { t with bound := r.1.truncate 32 }

/-- Rewrite TICK_BOUND of every armed lease of a port's tenants (R227). -/
def State.rebound (s : State) (port : MbIx) : State :=
  (allFin 16).foldl (fun t e =>
    if t.tickArmed e && (t.tenant (t.lease (t.eng e).tick.lease).tenant).port == port then t.setBound e else t) s

/-! ### TSTAT and the seal (R218, R219) -/

/-- The physical address of the seal word of an engine's lease. -/
def State.sealAddr (s : State) (e : EngIx) : Nat :=
  let l := s.lease (s.eng e).tick.lease
  0x20000000 + (wingOf e).val * 0x1000000 + l.firstPage.toNat * 65536 + (s.eng e).tick.sealOff.toNat

/-- The source of the wing's own seal read and TSTAT write: local engine e's port, for the lease's tenant. -/
def State.sealSrc (s : State) (e : EngIx) : AccSrc :=
  ⟨e.val % 4, some (s.lease (s.eng e).tick.lease).tenant, false, false, 15, gloveWho (tickGlove e)⟩

/-- The TSTAT word (R218), with PENDING given. AHEAD is set whenever the seal differs from EXPECT, as R218 says. -/
def State.tstat (s : State) (e : EngIx) (ahead : Bool) (pend : Nat) : Word :=
  let t := (s.eng e).tick
  at_ t.seen.toNat 0 ||| at_ (b2n t.fresh) 32 ||| at_ (b2n t.stale) 33 ||| at_ (b2n ahead) 34 ||| at_ (b2n t.queued) 35
    ||| at_ (b2n t.void) 36 ||| at_ (pend % 16) 37

/-- FIFO entries left for the lease of an engine. -/
def State.leftFor (s : State) (e : EngIx) : Nat := ((s.hearth.tpin[(s.eng e).tick.pin.val]).unserved e).length

/-- Write TSTAT at the seal address + 8; with SEAL_EN = 0 only where that word lies in the pinned pages (log 10). Sixteen entries do not
fit PENDING: its bits are then free (log 40). -/
def State.writeTstat (s : State) (e : EngIx) (ahead : Bool) : State :=
  let a := s.sealAddr e + 8
  if s.inLeasePages (s.eng e).tick.lease a && s.inLeasePages (s.eng e).tick.lease (a + 7) then
    if s.leftFor e < 16 then s.accWrite (s.sealSrc e) a (toBytes 8 (s.tstat e ahead (s.leftFor e)).toNat)
    else let r := s.draw; r.2.accWrite (s.sealSrc e) a (toBytes 8 (s.tstat e ahead r.1.toNat).toNat)
  else s

/-- d of R218, when the seal word can be read whole. -/
def State.sealD (s : State) (e : EngIx) : BitVec 32 × BitVec 32 :=
  let v := BitVec.ofNat 32 (ofBytes (s.physBytes (s.sealAddr e) 4))
  (v, v - (s.eng e).tick.expect)

/-- Whether the seal is fresh now (R218): d < 2^31; a poisoned seal word is not (log 11). -/
def State.sealFresh (s : State) (e : EngIx) : Bool :=
  decide ((s.sealD e).2.toNat < 2 ^ 31) && !s.poisoned (s.sealAddr e) 8

/-! ### Firing (R217) -/

/-- The launch word of a tick run (R76). -/
def tickLaunchWord (e : EngIx) (runSeq : BitVec 32) : Word :=
  at_ 1 8 ||| at_ e.val 16 ||| at_ 3 20 ||| at_ 1 22 ||| at_ runSeq.toNat 32

/-- The conditions of R228 that hold at firing, apart from the seal. The part sees that the host withholds posted credits when a TLP has
waited in the lane for longer than one hc (DEDUCED, log 40). -/
def State.voidAtFire (s : State) (e : EngIx) (queued fast : Bool) : Bool :=
  let port := (s.tenant (s.lease (s.eng e).tick.lease).tenant).port
  queued || fast || s.hearth.emerg ||
    (if h : port.val < 4 then
      let p := s.port ⟨port.val, h⟩
      let of (x : EngIx) : List Tlp := p.lane.filter fun t => t.eng == some x
      p.lstate != 1 || p.lane.any (fun t => decide (t.since + 40 < s.now))
        || (allFin 16).any fun x => x != e && (decide (1 < (of x).length) || decide (64 < ((of x).map fun t => t.data.length).sum))
    else false)

/-- The tick run goes on: the glove may issue (R219). Its seal wait counts as idle time (R278). -/
def State.tickProceed (s : State) (e : EngIx) : State :=
  let s1 := s.modTick e fun t => { t with phase := .running, runSeq := t.runSeq + 1, first := false }
  s1.modGlv (tickGlove e) fun g => { g with wait := .none, state := 1 }

/-- The run goes on after a fresh decision: TSTAT, EXPECT = SEQ + 1. -/
def State.sealGo (s : State) (e : EngIx) : State :=
  let d := s.sealD e
  let s1 := s.modTick e fun t => { t with seen := d.1, fresh := true, stale := false, expect := d.1 + 1 }
  (s1.writeTstat e (d.2 != 0)).tickProceed e

/-- Fire the lease of engine e from an entry (R217, R218). -/
def State.fire (s : State) (e : EngIx) (ent : FifoEnt) : State :=
  let t := (s.eng e).tick
  let gl := tickGlove e
  let void := s.voidAtFire e t.queued ent.fast
  let s0 := ((s.serveEntry t.pin e).engineWake e).hallCnt hallTickFires 1
  let s1 := s0.modTick e fun t =>
    { t with seen := 0, fresh := false, stale := false, void := void, skipped := false, faulted := false,
             firedAt := s.hearth.time, laneDone := false, phase := if t.sealEn then .sealRead else .running }
  let s2 := s1.modGlv gl fun g =>
    let g := if t.first then g.clearRegs else g
    let g := (((g.setS 1 t.args[0]).setS 2 t.args[1]).setS 3 t.args[2]).setS 4 t.args[3]
    { (g.setS 5 (tickLaunchWord e (t.runSeq + 1))) with
      pc := t.entry, ibuf := [], kind := .tick, armed := true, state := 2, wait := .seal, tenant := (s.lease t.lease).tenant,
      tickEdge := ent.ts, resuming := false,
      elapsed := 0, launchWord := tickLaunchWord e (t.runSeq + 1), prog := t.prog, regionLen := t.regionLen,
      strm := t.strm, cmdIx := t.runSeq + 1, rank := 0, progressAt := s.hearth.time }
  let s3 := s2.trace (engChan e) false true (some (s2.glv gl).tenant) 0x04 3
    (beginWord t.strm 0 true t.tag.toNat (t.runSeq + 1))
  if t.sealEn then s3
  else ((s3.modTick e fun t => { t with fresh := true }).writeTstat e false).tickProceed e

/-- TICK_FIRE for one lease (R217): its glove 3 is in tick idle and an entry is unserved. -/
def State.fireIfDue (s : State) (e : EngIx) : State :=
  let t := (s.eng e).tick
  let g := s.glv (tickGlove e)
  match (s.hearth.tpin[t.pin.val]).unserved e with
  | x :: _ => if t.armed && g.state == 5 && !g.hang.frozen && t.disarm.isNone && t.phase == .idle then s.fire e x else s
  | [] => s

/-! ### The end of a run -/

/-- SYNC_OUT goes high for 1 hc when a tick run of ENGINE ends, in MODE 3 (R212). -/
def State.syncEnd (s : State) (e : EngIx) : State :=
  if fld s.hearth.syncCtl 1 0 = 3 ∧ fld s.hearth.syncCtl 7 4 = e.val
  then s.modHearth fun h => { h with syncUntil := h.time.toNat + 40 } else s

/-- What a lease leaves when it is disarmed (R215): its pending entries are lost, glove 3 is released, the wake entry goes. -/
def State.disarmNow (s : State) (e : EngIx) : State :=
  let t := (s.eng e).tick
  let lost := ((s.hearth.tpin[t.pin.val]).unserved e).length
  let s1 := s.modPin t.pin fun p => { p with
    lost := p.lost + BitVec.ofNat 16 lost
    fifo := p.fifo.map fun x => { x with served := if x.served.contains e then x.served else e :: x.served } }
  let s2 := s1.modTick e fun t => { t with armed := false, phase := .idle, disarm := none, queued := false }
  let s3 := (s2.trimFifo t.pin).modGlv (tickGlove e) fun g => { g.clearRegs.empty with armed := false, pc := 0 }
  ((s3.dropWake e).modEng e fun x => { x with tickHold := false }).setSteps

/-- Complete a disarming that waited for the run's end (R215): the DISARM_TICK command that asked for it, if any. -/
def State.finishDisarm (s : State) (e : EngIx) : State :=
  match (s.eng e).tick.disarm with
  | some who =>
    let runs := (s.eng e).tick.runSeq
    let port := (s.tenant (s.lease (s.eng e).tick.lease).tenant).port
    let t := s.disarmNow e
    let u := match who with
      | some x => t.cmdDone x.1 x.2 stOk (runs.zeroExtend 64) 0
      | none => t
    (u.rebound port).leaseSweep
  | none => s

/-- The tick run of engine e ends (R217): its counts, its END record, tick idle, and a waiting DISARM_TICK. -/
def State.tickRunEnd (s : State) (e : EngIx) : State :=
  let t := (s.eng e).tick
  let w := setFld (beginWord t.strm 0 true t.tag.toNat (s.glv (tickGlove e)).cmdIx) 16 8
    (b2n t.fresh + 2 * b2n t.stale + 4 * b2n t.skipped + 8 * b2n t.faulted + 16 * b2n t.void)
  let s1 := (s.trace (engChan e) false true (some (s.glv (tickGlove e)).tenant) 0x05 3 w).engCnt e 20 1
  let pending := !((s1.hearth.tpin[t.pin.val]).unserved e).isEmpty
  let s2 := s1.modTick e fun t =>
    { t with phase := .idle, queued := pending, voids := if t.void then satAdd t.voids 1 else t.voids }
  let s3 := s2.modGlv (tickGlove e) fun g =>
    { g with state := 5, kind := .none, armed := false, wait := .none, inflight := [], trow := 0, tickEdge := 0 }
  ((s3.modEng e fun x => { x with tickHold := false }).syncEnd e).finishDisarm e

/-- The lease skips (R219): TSTAT, SKIPS, EXPECT + 1, tick idle with the registers kept. -/
def State.tickSkip (s : State) (e : EngIx) : State :=
  let s1 := s.modTick e fun t => { t with seen := (s.sealD e).1, fresh := false, stale := false, skipped := true,
                                          skips := satAdd t.skips 1, expect := t.expect + 1 }
  (s1.writeTstat e ((s.sealD e).2 != 0)).tickRunEnd e

/-- The run goes on with a stale seal (R219). -/
def State.tickStale (s : State) (e : EngIx) : State :=
  let s1 := s.modTick e fun t => { t with seen := (s.sealD e).1, fresh := false, stale := true,
                                          staleCnt := satAdd t.staleCnt 1, expect := t.expect + 1 }
  (s1.writeTstat e ((s.sealD e).2 != 0)).tickProceed e

/-- The first seal read returns (R218), an access at QoS 15 of the wing's accumulate unit: fresh, or the grace wait begins. -/
def State.sealReturn (s : State) (e : EngIx) : State :=
  match (s.eng e).tick.phase with
  | .sealRead =>
    let s := (s.accRead (s.sealSrc e) (s.sealAddr e) 8).2.2
    if s.sealFresh e then s.sealGo e
    else s.modTick e fun t => { t with void := true, phase := .grace (t.firedAt.toNat + (t.grace + 39) / 40 * 40) }
  | _ => s

/-- A write accepted to the seal line during grace re-checks the seal (R219). -/
def State.sealRecheck (s : State) (e : EngIx) : State :=
  match (s.eng e).tick.phase with
  | .grace _ => if s.sealFresh e then s.sealGo e else s
  | _ => s

/-- The end of the grace period (R219). -/
def State.graceEnd (s : State) (e : EngIx) : State :=
  match (s.eng e).tick.phase with
  | .grace d =>
    let t := s.advanceTo d
    if t.sealFresh e then t.sealGo e else if (t.eng e).tick.skip then t.tickSkip e else t.tickStale e
  | _ => s

/-- A fault ends the tick run (R92, R221): counted and reported; the glove's registers are cleared and it stays armed. -/
def State.tickFault (s : State) (e : EngIx) (pc : BitVec 32) : State :=
  let gl := tickGlove e
  let t := (s.eng e).tick
  let s1 := s.modTick e fun t => { t with faulted := true, faults := satAdd t.faults 1 }
  let s2 := s1.report { code := 0x44, scope := 2, tenant := some (s.glv gl).tenant, unit := e.val, glove := 3,
                        info := pc.toNat, strm := some t.strm }
  ((s2.modGlv gl fun g => { g.clearRegs.empty with pc := 0 }).modTick e fun t => { t with first := true }).tickRunEnd e

end Sys2Proof.Machine
end

