-- ==== Sys2Proof/Machine/Pattern.lean ====
section
/-!
DEFINITION. Patterns of the permutation network (R95, R97, R98), the cupboard (R99-R101) and handle resolution (R100).
-/
namespace Sys2Proof.Machine

/-- The result of one row step: the state and the record after it, a fault with its row (none: ROW_VALID clear), or a wait, for a wing
if it is one's. -/
inductive StepR where
  | ok (s : State) (r : Rec)
  | fault (s : State) (code : Byte) (row : Option Nat)
  | stall (w : Option WingIx := none)
  deriving DecidableEq, Repr

/-- The low b bits of a number, reversed. -/
def revBits : Nat → Nat → Nat
  | 0, _ => 0
  | b + 1, j => (j % 2) * 2 ^ b + revBits b (j / 2)

/-- A number with its low b bits reversed. -/
def revLow (b j : Nat) : Nat := j / 2 ^ b * 2 ^ b + revBits b (j % 2 ^ b)

/-- ZERO of R95 as a lane number. -/
def laneZero : Nat := 256

/-- The 256 lane sources of an element pattern of width 2^e bytes. -/
def lanesOf (e : Nat) (f : Nat → Nat) : List Nat := (List.range 256).map fun i => f (i / 2 ^ e) * 2 ^ e + i % 2 ^ e

/-- The lane sources of a closed-form SPEC (R97); none where it raises PATTERN_BAD. -/
def closedForm (spec : Nat) : Option (List Nat) :=
  let fam := spec / 256 % 16
  let p := spec % 256
  let e := p % 8
  let g := p / 8 % 16
  let okE := decide (e ≤ 3)
  let okG := okE && decide (1 ≤ g) && decide (g ≤ 8 - e) && decide (p < 128)
  match fam with
  | 0 => some ((List.range 256).map fun i => Nat.xor i p)
  | 1 => some ((List.range 256).map fun i => (i + p) % 256)
  | 2 => some ((List.range 256).map fun i => if i + p ≤ 255 then i + p else laneZero)
  | 3 => if okG then some (lanesOf e (revLow g)) else none
  | 4 => if okG then some (lanesOf e fun d => d % 2 ^ g * 2 ^ (8 - e - g) + d / 2 ^ g) else none
  | 5 => if okG then some (lanesOf e fun d => d % 2 ^ (8 - e - g) * 2 ^ g + d / 2 ^ (8 - e - g)) else none
  | 6 => if okE && decide (p / 8 < 2 ^ (8 - e)) then some (lanesOf e fun _ => p / 8) else none
  | _ => none

/-- One pass of the network (R95). -/
def netPass (x : Row) (src : List Nat) : Row :=
  rowOf 8 fun i => match src[i]? with
    | some l => if l < 256 then elt x 8 l else 0
    | none => 0

/-! ### The cupboard (R99) -/

/-- The pool of a glove. -/
def State.pool (s : State) (gl : GloveRef) : List (Fin 64) :=
  if s.engTick gl.e then
    if gl.g = 3 then (allFin 64).filter fun i => 56 ≤ i.val else (allFin 64).filter fun i => i.val < 56
  else allFin 64

/-- Change a slot of an engine's cupboard. -/
def State.modSlot (s : State) (e : EngIx) (i : Fin 64) (f : Slot → Slot) : State :=
  s.modEng e fun x => { x with cupboard := vmod x.cupboard i f }

/-- A use of a slot sets its age to zero; the others grow older (log 12). -/
def State.ageSlots (s : State) (e : EngIx) (i : Fin 64) : State :=
  s.modEng e fun x => { x with cupboard := x.cupboard.mapFinIdx fun j c _ =>
    if j = i.val then { c with age := 0 } else { c with age := c.age + 1 } }

/-- An instruction in flight uses a slot, which is locked. -/
def State.useSlot (s : State) (e : EngIx) (i : Fin 64) : State :=
  (s.ageSlots e i).modSlot e i fun c => { c with lock := c.lock + 1 }

/-- An instruction releases a slot it has locked. -/
def State.unlockSlot (s : State) (e : EngIx) (i : Nat) : State :=
  if h : i < 64 then s.modSlot e ⟨i, h⟩ fun c => { c with lock := c.lock - 1 } else s

/-- The slot that the compiler replaces: unlocked, invalid ones first, then the greatest age, the lowest number on ties. -/
def victimSlot (cb : Vector Slot 64) (pool : List (Fin 64)) : Option (Fin 64) :=
  let free := pool.filter fun i => cb[i.val].lock == 0
  match free.find? fun i => !cb[i.val].valid with
  | some i => some i
  | none =>
    let oldest := (free.map fun i => cb[i.val].age).foldl max 0
    free.find? fun i => cb[i.val].age == oldest

/-- Compile a pattern into a slot of the glove's pool: the slot, or none while every slot of the pool is locked. -/
def State.compile (s : State) (gl : GloveRef) (kind : BitVec 2) (key : BitVec 40) (src : List Nat) : Option (State × Fin 64) :=
  match victimSlot (s.eng gl.e).cupboard (s.pool gl) with
  | some i =>
    let num := (s.eng gl.e).compileCnt + 1
    let s1 := s.modEng gl.e fun x => { x with
      compileCnt := num
      cupboard := vset x.cupboard i ⟨true, kind, key, (s.glv gl).tenant, num, 0, 0, src⟩ }
    some ((s1.ageSlots gl.e i).engCnt gl.e 17 1, i)
  | none => none

/-- The lane sources that a slot holds. -/
def State.routeOf (s : State) (e : EngIx) (i : Nat) : List Nat :=
  match (s.eng e).cupboard[i]? with
  | some c => c.route
  | none => []

/-! ### Handles (R98, R100) -/

def hSlot (h : Word) : Fin 64 := ⟨fld h 5 0, by unfold fld; omega⟩
def hKind (h : Word) : Nat := fld h 7 6
def hGen (h : Word) : Nat := fld h 23 8
def hSpec (h : Word) : Nat := fld h 35 24
def hHi (h : Word) : Nat := fld h 63 24

/-- A handle with the SLOT and GEN of a slot. -/
def State.stampHandle (s : State) (e : EngIx) (h : Word) (i : Fin 64) : Word :=
  setFld (setFld h 0 6 i.val) 8 16 (s.eng e).cupboard[i.val].num.toNat

/-- Whether the slot that a handle names holds its pattern. -/
def State.handleHit (s : State) (gl : GloveRef) (h : Word) : Bool :=
  let c := (s.eng gl.e).cupboard[(hSlot h).val]
  (s.pool gl).contains (hSlot h) && c.valid && c.kind.toNat == hKind h && c.num.toNat % 65536 == hGen h &&
    match hKind h with
    | 0 => c.key.toNat == hSpec h
    | 1 => c.key.toNat == hHi h && c.tenant == (s.glv gl).tenant
    | 2 => c.num.toNat / 65536 == hHi h && c.tenant == (s.glv gl).tenant
    | _ => false

/-- A valid KIND 0 slot of the glove's pool with a SPEC. -/
def State.findSpec (s : State) (gl : GloveRef) (spec : Nat) : Option (Fin 64) :=
  (s.pool gl).find? fun i => (s.eng gl.e).cupboard[i.val].valid && (s.eng gl.e).cupboard[i.val].kind == 0
    && (s.eng gl.e).cupboard[i.val].key.toNat == spec

/-- Find or compile a closed-form pattern (R100): the slot, whether it was found. -/
def State.resolveSpec (s : State) (gl : GloveRef) (spec : Nat) : Res (State × Fin 64) :=
  match s.findSpec gl spec with
  | some i => .ok ((s.ageSlots gl.e i).engCnt gl.e 16 1, i)
  | none => match closedForm spec with
    | none => .fault fcPatBad
    | some src => match s.compile gl 0 (BitVec.ofNat 40 spec) src with
      | some r => .ok r
      | none => .stall

/-- Read a 256-byte index table and compile it (R100, R108). -/
def State.compileTable (s : State) (gl : GloveRef) (addr : Nat) : Res (State × Fin 64) :=
  (s.gloveRead gl addr 256).bind fun r =>
    if r.2.1 then .fault fcPoison
    else match r.2.2.compile gl 1 (BitVec.ofNat 40 (addr / 256)) (r.1.map (·.toNat)) with
      | some x => .ok x
      | none => .stall

/-- Resolve a handle (R100): the state, with the slot locked, the handle rewritten, and the slot. -/
def State.resolve (s : State) (gl : GloveRef) (h : Word) : Res (State × Word × Fin 64) :=
  if hKind h = 3 then .fault fcPatBad
  else if s.handleHit gl h then .ok ((s.engCnt gl.e 16 1).useSlot gl.e (hSlot h), h, hSlot h)
  else if hKind h = 2 then .fault fcPatLost
  else
    (if hKind h = 0 then s.resolveSpec gl (hSpec h) else s.compileTable gl (hHi h * 256)).bind fun x =>
      .ok (x.1.useSlot gl.e x.2, x.1.stampHandle gl.e h x.2, x.2)

/-- Resolve P[k], with the hardware's rewrite of P[k]. -/
def State.resolveP (s : State) (gl : GloveRef) (k : Fin 8) : Res (State × Fin 64) :=
  (s.resolve gl (s.glv gl).p[k.val]).bind fun x =>
    .ok (x.1.modGlv gl fun g => { g with p := vset g.p k x.2.1 }, x.2.2)

/-- The P register that an extension field names. -/
def pNum (n : Nat) : Fin 8 := ⟨n % 8, by omega⟩
/-- The D register that an extension field names. -/
def dNum (n : Nat) : Fin 16 := ⟨n % 16, by omega⟩

end Sys2Proof.Machine
end

