-- ==== Sys2Proof/Machine/RowMem.lean ====
section
/-!
DEFINITION. Row steps of the load/store unit (R120-R138): what one row step of `ld`, `st`, `ld.acc`, `st.acc`, `relay`, the
scalar and descriptor accesses, and of the COPY and RELAYOUT commands does.
-/
namespace Sys2Proof.Machine

/-! ### Responses (R131, R132) -/

/-- Write the data of a response to its destination (R131). -/
def State.writeDest (s : State) (gl : GloveRef) (dest : RespDest) (data : Row) : State :=
  match dest with
  | .tile t r => s.modGlv gl fun g => g.putRow (tCode t) r data
  | .acc a r => s.modGlv gl fun g => g.putRow (aCode a) r data
  | .sreg d => s.modGlv gl fun g => g.setS d (data.truncate 64)
  | .dreg k => s.modGlv gl fun g => { g with d := vset g.d k (data.truncate 512) }
  | .accept => s

/-- The next row step of a record. -/
def Rec.next (r : Rec) : Rec := { r with row := r.row + 1 }

/-- A record waits for one more response: of a row (none: ROW_VALID clear), with a destination and data. -/
def Rec.await (r : Rec) (row : Option Nat) (dest : RespDest) (data : Row) (poisoned : Bool) : Rec :=
  { r with resp := r.resp ++ [⟨row.getD 64, dest, data, poisoned, 0, [], 0⟩] }

/-- A row step's load data: delivered now, or outstanding until MEMORY_RESPONSE when the record holds its responses. -/
def giveLoad (s : State) (gl : GloveRef) (r : Rec) (row : Option Nat) (dest : RespDest) (bytes : List Byte) (poisoned : Bool) : StepR :=
  let data := rowOfBytes bytes
  if r.held then .ok s (r.next.await row dest data poisoned)
  else if poisoned then .fault s fcPoison row
  else .ok (s.writeDest gl dest data) r.next

/-- A row step's writes have been issued; their acceptance returns now or by MEMORY_RESPONSE. -/
def giveStore (s : State) (r : Rec) (row : Option Nat) : StepR :=
  if r.held then .ok s (r.next.await row .accept 0 false) else .ok s r.next

/-- A fault code of an access, at a row. -/
def faultAt (s : State) (row : Option Nat) {α : Type} (x : Res α) (f : α → StepR) : StepR :=
  match x with
  | .ok a => f a
  | .fault c => .fault s c row
  | .stall w => .stall w

/-! ### ld, st, ld.acc, st.acc -/

/-- The tile row of a record's next row step. -/
def Rec.tileRow (r : Rec) : Nat := row0 r.w + r.row

/-- The descriptor a record read first, and second. -/
def Rec.desc (r : Rec) : Desc := r.ds.head?.getD 0
def Rec.desc2 (r : Rec) : Desc := (r.ds.drop 1).head?.getD 0

/-- The origin of `ld` and `ld.acc` is S[a]; of `st` and `st.acc`, S[b]. -/
def Glove.origin (g : Glove) (c : BitVec 6) : Word := g.sreg (sNum c)

/-- One row of `ld` or `ld.acc`: w elements into a destination. -/
def rowLoad (s : State) (gl : GloveRef) (r : Rec) (w : Nat) (dest : RespDest) : StepR :=
  let g := s.glv gl
  let o := g.origin r.w.a
  match Desc.seg r.desc (originOuter o + r.row) (originInner o) w with
  | none => .ok (s.writeDest gl dest 0) r.next
  | some x =>
    faultAt s (some r.tileRow) (x.check g.align) fun a =>
      faultAt s (some r.tileRow) (s.gloveRead gl a x.extent) fun y => giveLoad y.2.2 gl r (some r.tileRow) dest y.1 y.2.1

def rowLd (s : State) (gl : GloveRef) (r : Rec) : StepR :=
  match clsOf r.w.d with
  | .t n => rowLoad s gl r (rowElts (Desc.fmt r.desc)) (.tile n (row64 r.tileRow))
  | _ => .fault s fcIllegal none

def rowLdAcc (s : State) (gl : GloveRef) (r : Rec) : StepR :=
  match clsOf r.w.d with
  | .a n => rowLoad s gl r 64 (.acc n (row64 r.tileRow))
  | _ => .fault s fcIllegal none

/-- Count a reuse hit or miss of an operand row (R269). -/
def State.countReuse (s : State) (e : EngIx) (side : Side) (flag hit : Bool) : State :=
  if flag then s.engCnt e (match side, hit with
    | .a, true => 10
    | .a, false => 11
    | .b, true => 12
    | .b, false => 13) 1
  else s

/-- Read an operand row of a tile or accumulator, with its latch (R64); none: TILE_UE. -/
def State.operandRow (s : State) (gl : GloveRef) (side : Side) (reuse : Bool) (code : BitVec 6) (row : Nat) : Option (Row × State) :=
  let x := (s.glv gl).readRow side reuse code (row64 row)
  match x.1 with
  | some v => some (v, (s.modGlv gl fun _ => x.2.2).countReuse gl.e side reuse x.2.1)
  | none => none

/-- One row of `st`. -/
def rowSt (s : State) (gl : GloveRef) (r : Rec) : StepR :=
  let g := s.glv gl
  let o := g.origin r.w.b
  let row := some r.tileRow
  match s.operandRow gl .a (reuseA r.w) r.w.a r.tileRow with
  | none => .fault s fcTileUe row
  | some (v, s1) =>
    match Desc.seg r.desc (originOuter o + r.row) (originInner o) (rowElts (Desc.fmt r.desc)) with
    | none => .ok s1 r.next
    | some x =>
      faultAt s row (x.check g.align) fun a =>
        faultAt s row (s1.gloveWrite gl a (rowBytes v x.extent)) fun t => giveStore t r row

/-- The values of an accumulator row as `st.acc` takes them (R133): fp32, or int32 with INT. -/
def accValues (int : Bool) (v : Row) (n : Nat) : List FV :=
  (List.range n).map fun j =>
    if int then (let i := sgn 32 (elt v 32 j); FV.fin (i < 0) i.natAbs 0) else fp32.decode (elt v 32 j)

/-- The converted codes of an accumulator row without scales. -/
def accCodes (fmt : Nat) (int : Bool) (v : Row) (n : Nat) : List Nat :=
  ((accValues int v n).zip (List.range n)).map fun x =>
    match convTo fmt ⟨x.1, false⟩ with
    | some c => c
    | none => Config.convOpen fmt (elt v 32 x.2)

/-- One row of `st.acc` (R133, R134). -/
def rowStAcc (s : State) (gl : GloveRef) (r : Rec) : StepR :=
  let g := s.glv gl
  let o := g.origin r.w.b
  let row := some r.tileRow
  let d := r.desc
  let sc := r.desc2
  let blk := blockOf (Desc.sblk d)
  match s.operandRow gl .a false r.w.a r.tileRow with
  | none => .fault s fcTileUe row
  | some (v, s1) =>
    match Desc.seg d (originOuter o + r.row) (originInner o) 64 with
    | none => .ok s1 r.next
    | some x =>
      faultAt s row ((x.check g.align).bind fun a =>
        if blk = 0 then s1.gloveWrite gl a (packElts (fmtBits (Desc.fmt d)) (accCodes (Desc.fmt d) (imb r.w 4) v x.n))
        else
          let qs := quantBlocks (Desc.fmt d) (Desc.fmt sc) blk 64 (accValues (imb r.w 4) v x.n)
          (s1.gloveWrite gl a (packElts (fmtBits (Desc.fmt d)) (qs.map (·.2)).flatten)).bind fun t =>
            match Desc.seg sc (originOuter o + r.row) (originInner o / blk) qs.length with
            | none => .ok t
            | some y => y.checkFree.bind fun b => t.gloveWrite gl b (packElts (fmtBits (Desc.fmt sc)) (qs.map (·.1)))) fun t =>
        giveStore t r row

/-! ### sld, sst, dld, dst (R137) -/

/-- The address S[a] + sext(off) of `sld` and `sst`, checked for range and natural alignment. -/
def scalarAddr (g : Glove) (w : JFields) : Res Nat :=
  let size := 2 ^ imf w 1 0
  let a : Int := (g.sreg (sNum w.a)).toInt + sgn 32 (imf w 33 2)
  if a < 0 ∨ 2 ^ 48 < a + size then .fault fcUnmapped
  else if a % size ≠ 0 then .fault fcAlign else .ok a.toNat

/-- The loaded value of `sld`. -/
def extendLoad (w : JFields) (bs : List Byte) : Nat :=
  let n := 8 * 2 ^ imf w 1 0
  if flag52 w then ofBytes bs else unsgn 64 (sgn n (ofBytes bs))

def rowSld (s : State) (gl : GloveRef) (r : Rec) : StepR :=
  faultAt s none (scalarAddr (s.glv gl) r.w) fun a =>
    faultAt s none (s.gloveRead gl a (2 ^ imf r.w 1 0)) fun y =>
      giveLoad y.2.2 gl r none (.sreg (sNum r.w.d)) (toBytes 8 (extendLoad r.w y.1)) y.2.1

def rowSst (s : State) (gl : GloveRef) (r : Rec) : StepR :=
  let g := s.glv gl
  faultAt s none (scalarAddr g r.w) fun a =>
    faultAt s none (s.gloveWrite gl a (toBytes (2 ^ imf r.w 1 0) (g.sreg (sNum r.w.b)).toNat)) fun t => giveStore t r none

/-- The 64-byte-aligned address of `dld` and `dst`. -/
def descAddr (g : Glove) (w : JFields) : Res Nat :=
  let a := (g.sreg (sNum w.a)).toNat
  if 2 ^ 48 < a + 64 then .fault fcUnmapped else if a % 64 ≠ 0 then .fault fcAlign else .ok a

def rowDld (s : State) (gl : GloveRef) (r : Rec) : StepR :=
  faultAt s none (descAddr (s.glv gl) r.w) fun a =>
    faultAt s none (s.gloveRead gl a 64) fun y => giveLoad y.2.2 gl r none (.dreg (dNum (imf r.w 3 0))) y.1 y.2.1

def rowDst (s : State) (gl : GloveRef) (r : Rec) : StepR :=
  faultAt s none (descAddr (s.glv gl) r.w) fun a =>
    faultAt s none (s.gloveWrite gl a (toBytes 64 r.desc.toNat)) fun t => giveStore t r none

/-! ### relay and RELAYOUT (R135, R136) -/

/-- DPERM[i]. -/
def dperm (w : JFields) (i : Nat) : Nat := imf w 25 8 / 8 ^ i % 8

/-- Whether DPERM is a permutation of the dimensions that keeps or swaps dimension 0 (R135). -/
def dpermOk (w : JFields) (ndim : Nat) : Bool :=
  let l := (List.range ndim).map (dperm w)
  l.all (· < ndim) && l.eraseDups.length == ndim && (dperm w 0 == 0 || (dperm w 0 == 1 && dperm w 1 == 0 && decide (2 ≤ ndim)))

/-- The lowest and one past the highest addressed byte of a tensor. -/
def Desc.span (d : Desc) : Int × Int :=
  ((List.range (Desc.ndim d)).drop 1).foldl (fun x k =>
    let e := Desc.stride d k * ((Desc.size d k : Int) - 1)
    if e < 0 then (x.1 + e, x.2) else (x.1, x.2 + e))
    ((Desc.base d : Int), (Desc.base d : Int) + ((Desc.size d 0 * fmtBits (Desc.fmt d) / 8 : Nat) : Int))

/-- The descriptor conditions of `relay` (R135): k is the destination, l the source. -/
def relayOk (w : JFields) (k l : Desc) : Bool :=
  Desc.ok k && Desc.ok l && Desc.ndim k == Desc.ndim l && Desc.fmt k == Desc.fmt l && dpermOk w (Desc.ndim k)
    && (List.range (Desc.ndim k)).all (fun i => Desc.size k i == Desc.size l (dperm w i))
    && (decide ((Desc.span k).2 ≤ (Desc.span l).1) || decide ((Desc.span l).2 ≤ (Desc.span k).1))

/-- Coordinate c[k] of an outer index in the destination. -/
def destCoord (d : Desc) (outer k : Nat) : Nat :=
  outer / (((List.range k).drop 1).map (Desc.size d)).prod % Desc.size d k

/-- The bit address of the source element of destination coordinates (R135), given c[0]. -/
def relaySrcBit (w : JFields) (k l : Desc) (outer c0 : Nat) : Int :=
  let bits := fmtBits (Desc.fmt l)
  (List.range (Desc.ndim k)).foldl (fun acc i =>
    let c := if i = 0 then c0 else destCoord k outer i
    acc + (if dperm w i = 0 then ((c * bits : Nat) : Int) else 8 * (c : Int) * Desc.stride l (dperm w i)))
    (8 * (Desc.base l : Int))

/-- Read a segment as a source of `relay` (R135): alignment, range and path; poisoned data raise POISON. -/
def readSeg (s : State) (gl : GloveRef) (x : Seg) : Res (List Byte × State) :=
  (x.check (s.glv gl).align).bind fun a => (s.gloveRead gl a x.extent).bind fun y =>
    if y.2.1 then .fault fcPoison else .ok (y.1, y.2.2)

/-- The source segments of column c0 of a transposed block (R135): the elements of n destination segments from an outer index on, in
runs along source dimension 0. A run is its segment and where it begins in the column; fuel is n. -/
def relayRuns (w : JFields) (k l : Desc) (outer c0 : Nat) : Nat → Nat → List (Nat × Seg)
  | 0, _ => []
  | fuel + 1, i =>
    if 64 ≤ i ∨ Desc.outers k ≤ outer + i then []
    else
      let n := min (64 - i) (Desc.size l 0 - destCoord k (outer + i) 1)
      (i, ⟨relaySrcBit w k l (outer + i) c0 / 8, n, n * fmtBits (Desc.fmt l) / 8⟩) :: relayRuns w k l outer c0 fuel (i + max 1 n)

/-- Read the runs of a column: its 64 elements, zero where no segment lies. -/
def readRuns (gl : GloveRef) (bits : Nat) : State → List (Nat × Seg) → Row → Res (Row × State)
  | s, [], v => .ok (v, s)
  | s, (i, x) :: l, v => (readSeg s gl x).bind fun y =>
      readRuns gl bits y.2 l (v ||| BitVec.ofNat 2048 (ofBytes y.1 <<< (bits * i)))

/-- The transpose bank that a record holds: its aux is the bank number + 1. -/
def bankOf (aux : Nat) : Option (Fin 3) := if h : 0 < aux ∧ aux ≤ 3 then some ⟨aux - 1, by omega⟩ else none

/-- Take a transpose bank (R107): the third for an armed tick glove, one of the two others otherwise. -/
def takeBank (x : Engine) (g : GlvIx) : Option (Fin 3) :=
  if x.gloves[g.val].armed then (if x.banks[2].holder.isNone then some 2 else none)
  else if x.banks[0].holder.isNone then some 0 else if x.banks[1].holder.isNone then some 1 else none

/-- Change a transpose bank. -/
def State.modBank (s : State) (e : EngIx) (b : Fin 3) (f : Bank → Bank) : State := s.modEng e fun x => { x with banks := vmod x.banks b f }

/-- Hold a bank from the first read to the last write: the bank number + 1 stands in the record's aux. -/
def State.holdBank (s : State) (gl : GloveRef) (r : Rec) : Option (State × Rec) :=
  if r.aux ≠ 0 then some (s, r)
  else match takeBank (s.eng gl.e) gl.g with
    | some b => some (s.modBank gl.e b fun x => { x with holder := some gl.g }, { r with aux := b.val + 1 })
    | none => none

/-- Release the bank that a record holds; its rows stay until they are written again. -/
def State.freeBank (s : State) (e : EngIx) (aux : Nat) : State :=
  match bankOf aux with
  | some b => s.modBank e b fun x => { x with holder := none }
  | none => s

/-- Row j of the bank that a record holds. -/
def State.bankRow (s : State) (e : EngIx) (aux j : Nat) : Row :=
  match bankOf aux with
  | some b => (s.eng e).banks[b.val].rows[j % 64]
  | none => 0

/-- Write row j of the bank that a record holds. -/
def State.setBankRow (s : State) (e : EngIx) (aux j : Nat) (v : Row) : State :=
  match bankOf aux with
  | some b => s.modBank e b fun x => { x with rows := vset x.rows (row64 j) v }
  | none => s

/-- Read phase of a transposed block (R135): the source elements of column j go to row j of the bank. -/
def relayReadStep (s : State) (gl : GloveRef) (w : JFields) (k l : Desc) (aux outer inner j : Nat) : Res State :=
  if Desc.size k 0 ≤ inner + j then .ok (s.setBankRow gl.e aux j 0)
  else (readRuns gl (fmtBits (Desc.fmt l)) s (relayRuns w k l outer (inner + j) 64 0) 0).bind fun y =>
    .ok (y.2.setBankRow gl.e aux j y.1)

/-- A destination segment is built in the staging row and written (R135). -/
def stageWrite (s : State) (gl : GloveRef) (a : Nat) (bs : List Byte) : Res State :=
  (s.modGlv gl fun g => { g with staging := rowOfBytes bs }).gloveWrite gl a bs

/-- Write phase of a transposed block: element c of destination segment i is element i of row c of the bank. -/
def relayWriteStep (s : State) (gl : GloveRef) (k : Desc) (aux outer inner i : Nat) : Res State :=
  let bits := fmtBits (Desc.fmt k)
  match Desc.seg k (outer + i) inner 64 with
  | none => .ok s
  | some x =>
    (x.check (s.glv gl).align).bind fun a =>
      stageWrite s gl a (packElts bits ((List.range x.n).map fun c => elt (s.bankRow gl.e aux c) bits i))

/-- Move one destination segment of W elements (R135): outer index and first element. -/
def relaySegment (s : State) (gl : GloveRef) (w : JFields) (k l : Desc) (outer inner : Nat) : Res State :=
  match Desc.seg k outer inner (rowElts (Desc.fmt k)) with
  | none => .ok s
  | some x =>
    (x.check (s.glv gl).align).bind fun a =>
      (readSeg s gl ⟨relaySrcBit w k l outer inner / 8, x.n, x.extent⟩).bind fun y => stageWrite y.2 gl a y.1

/-- The row that a step of a transposing instruction writes: after 64 reads, from where it resumed (R107). -/
def Rec.writeRow (r : Rec) : Nat := r.start + (r.row - 64)

/-- One row step of `relay` (R135). With DPERM[0] = 1 the first 64 steps read and the next 64 write. -/
def rowRelay (s : State) (gl : GloveRef) (r : Rec) : StepR :=
  let o := (s.glv gl).origin r.w.a
  let k := r.desc
  let l := r.desc2
  if dperm r.w 0 = 0 then
    faultAt s (some r.row) (relaySegment s gl r.w k l (originOuter o + r.row) (originInner o)) fun t => giveStore t r (some r.row)
  else match s.holdBank gl r with
    | none => .stall
    | some (s1, r1) =>
      if r.row < 64 then
        faultAt s1 (some 0) (relayReadStep s1 gl r.w k l r1.aux (originOuter o) (originInner o) r.row) fun t => .ok t r1.next
      else
        faultAt s1 (some r.writeRow) (relayWriteStep s1 gl k r1.aux (originOuter o) (originInner o) r.writeRow) fun t =>
          giveStore t r1 (some r.writeRow)

/-- Elements of a segment of RELAYOUT: W of the format, or 64 in a transposed block. -/
def relayoutW (w : JFields) (k : Desc) : Nat := if dperm w 0 = 0 then rowElts (Desc.fmt k) else 64

/-- Inner pieces of one outer index of a RELAYOUT. -/
def relayoutPieces (w : JFields) (k : Desc) : Nat := (Desc.size k 0 + relayoutW w k - 1) / relayoutW w k

/-- The row steps of a RELAYOUT (R136). A transposed one reads each block of 64 columns into a bank and writes from it: 64 reads and 64
writes for a chunk of 64 outer indices that one block covers; where a segment has several pieces, the block of each piece is read
before its one write, since no segment may be written after one that fails. -/
def relayoutRows (w : JFields) (k : Desc) : Nat :=
  let ps := relayoutPieces w k
  if dperm w 0 = 0 then Desc.outers k * ps
  else if ps = 1 then 128 * ((Desc.outers k + 63) / 64) else 65 * Desc.outers k * ps

/-- Where a row step of a transposed RELAYOUT stands: the first outer index of its block, the outer index it writes, its piece, and
whether it reads column j (none: it writes). -/
def relayoutAt (w : JFields) (k : Desc) (row : Nat) : Nat × Nat × Nat × Option Nat :=
  let ps := relayoutPieces w k
  if ps = 1 then
    let o := row / 128 * 64
    (o, o + (row % 128 - 64), 0, if row % 128 < 64 then some (row % 128) else none)
  else
    let o := row / (65 * ps)
    (o, o, row / 65 % ps, if row % 65 < 64 then some (row % 65) else none)

/-- The progress of a command that runs on a glove. -/
def State.setProgress (s : State) (gl : GloveRef) (n : Nat) : State :=
  let g := s.glv gl
  s.modLaunch g.strm g.cmdIx fun l => { l with progress := n }

/-- The next destination outer index of a RELAYOUT (census). -/
def State.setRelayNext (s : State) (gl : GloveRef) (n : Nat) : State :=
  s.modStream (s.glv gl).strm fun st => { st with relayNext := BitVec.ofNat 64 n }

/-- One row step of RELAYOUT (R136): one piece of one destination segment, in ascending outer index. It waits until the segment before it
is accepted, so that none is written after one that fails. -/
def rowRelayout (s : State) (gl : GloveRef) (r : Rec) : StepR :=
  let k := r.desc
  let l := r.desc2
  let n := relayoutW r.w k
  let ps := relayoutPieces r.w k
  if !r.resp.isEmpty then .stall
  else if dperm r.w 0 = 0 then
    let outer := r.row / ps
    let s0 := s.setProgress gl outer
    faultAt s0 none (relaySegment s0 gl r.w k l outer (r.row % ps * n)) fun t => giveStore (t.setRelayNext gl ((r.row + 1) / ps)) r none
  else match s.holdBank gl r with
    | none => .stall
    | some (s1, r1) =>
      let x := relayoutAt r.w k r.row
      let s2 := s1.setProgress gl x.2.1
      match x.2.2.2 with
      | some j => faultAt s2 none (relayReadStep s2 gl r.w k l r1.aux x.1 (x.2.2.1 * n) j) fun t => .ok t r1.next
      | none => faultAt s2 none (relayWriteStep s2 gl k r1.aux x.1 (x.2.2.1 * n) (x.2.1 - x.1)) fun t =>
          giveStore (t.setRelayNext gl (if x.2.2.1 + 1 = ps then x.2.1 + 1 else x.2.1)) r1 none

/-- SRC, DST and LEN of a COPY record (R198), kept as the record's first descriptor. -/
def copySrc (d : BitVec 512) : Nat := (d.toNat >>> 64) % 2 ^ 64
def copyDst (d : BitVec 512) : Nat := (d.toNat >>> 128) % 2 ^ 64
def copyLen (d : BitVec 512) : Nat := (d.toNat >>> 192) % 2 ^ 64

/-- One row step of COPY (R198): 256 bytes in ascending order. -/
def rowCopy (s : State) (gl : GloveRef) (r : Rec) : StepR :=
  let d := r.desc
  let off := 256 * r.row
  let n := min 256 (copyLen d - off)
  faultAt s none ((s.gloveRead gl (copySrc d + off) n).bind fun y =>
    if y.2.1 then .fault fcPoison else y.2.2.gloveWrite gl (copyDst d + off) y.1) fun t =>
    giveStore (t.setProgress gl (off + n)) r none

end Sys2Proof.Machine
end

