-- ==== Sys2Proof/Machine/RowReorder.lean ====
section
/-!
DEFINITION. Row steps of the reorder instructions (R95-R114).
-/
namespace Sys2Proof.Machine

/-! ### Handles of a record -/

/-- A handle that an instruction uses: a SPEC of its extension, or a P register (R98, R102). -/
inductive HSrc
  | spec (n : Nat)
  | preg (k : Fin 8)
  deriving DecidableEq, Repr

/-- The handles that an instruction resolves, in order (R100, R102). -/
def handlesOf (op : TOp) (w : JFields) : List HSrc :=
  match op with
  | .perm => if flag52 w then [.spec (imf w 11 0)] else [.preg (pNum (imf w 2 0))]
  | .pmix => [.preg (pNum (imf w 2 0)), .preg (pNum (imf w 5 3))]
  | _ => []

/-- The handles that a record has yet to resolve. -/
def Rec.handles (r : Rec) : List HSrc := (handlesOf r.op r.w).drop r.slots.length

/-- Whether a handle misses and asks the compiler for a pattern (R100, R108). -/
def State.misses (s : State) (gl : GloveRef) : HSrc → Bool
  | .spec n => (s.findSpec gl n).isNone
  | .preg k =>
    let h := (s.glv gl).p[k.val]
    !s.handleHit gl h && ((hKind h == 0 && (s.findSpec gl (hSpec h)).isNone) || hKind h == 1)

/-- Whether the next row step of a record is a compile, on the compiler (R108). -/
def State.needsCompile (s : State) (gl : GloveRef) (r : Rec) : Bool := r.handles.any (s.misses gl)

/-- Resolve one handle (R100): the state with the slot in use, and the slot. -/
def State.resolveH (s : State) (gl : GloveRef) : HSrc → Res (State × Fin 64)
  | .spec n => (s.resolveSpec gl n).bind fun x => .ok (x.1.useSlot gl.e x.2, x.2)
  | .preg k => s.resolveP gl k

/-- Resolve the handles of a record in order before its first row step (R100): a miss is a compile, which is a row step of its own
(R108). A fault of a later handle leaves what the earlier ones did, but for their use of the slots; it has no row. -/
def resolveHandles (gl : GloveRef) (f : State → Rec → StepR) : List HSrc → State → Rec → StepR
  | [], s, r => f s r
  | h :: hs, s, r =>
    match s.resolveH gl h with
    | .ok x =>
      let r' := { r with slots := r.slots ++ [x.2.val] }
      if s.misses gl h then .ok x.1 r' else resolveHandles gl f hs x.1 r'
    | .fault c => .fault (r.slots.foldl (fun t i => t.unlockSlot gl.e i) s) c none
    | .stall w => .stall w

/-- With its handles resolved, an instruction goes on; it waits for the table of a compile. -/
def withHandles (s : State) (gl : GloveRef) (r : Rec) (f : State → Rec → StepR) : StepR :=
  if r.handles.isEmpty then (if r.row = 0 && !r.resp.isEmpty then .stall else f s r)
  else if !r.resp.isEmpty then .stall
  else resolveHandles gl f r.handles s r

/-- The route that a record's i-th handle names. -/
def State.recRoute (s : State) (e : EngIx) (r : Rec) (i : Nat) : List Nat :=
  match r.slots[i]? with
  | some k => s.routeOf e k
  | none => []

/-- Byte lanes of a where the mask is 1, of b elsewhere (R54). -/
def selectLanes (m : Mask) (a b : Row) : Row := rowOf 8 fun i => if bitAt m i then elt a 8 i else elt b 8 i

/-- A masked result (R103, R146): unselected lanes keep the destination's bytes or become zero. -/
def maskedRow (masked keepIt : Bool) (m : Mask) (new old : Row) : Row :=
  if masked then selectLanes m new (if keepIt then old else 0) else new

/-- Write a destination row and go on to the next row step. -/
def rowDone (s : State) (gl : GloveRef) (r : Rec) (row : Nat) (v : Row) : StepR :=
  .ok (s.modGlv gl fun g => g.putRow r.w.d (row64 row) v) r.next

/-! ### perm, pmix, brev, pgat, trn -/

def rowPerm (s : State) (gl : GloveRef) (r : Rec) : StepR :=
  withHandles s gl r fun s1 r1 =>
    match s1.operandRow gl .a (reuseA r.w) r.w.a r.tileRow with
    | none => .fault s1 fcTileUe (some r.tileRow)
    | some (x, s2) =>
      let g := s2.glv gl
      let old := (g.tileOf (clsOf r.w.d)).row (row64 r.tileRow)
      rowDone s2 gl r1 r.tileRow
        (maskedRow (flag53 r.w) (imb r.w 12) g.m[(mNum r.w.b).val] (netPass x (s1.recRoute gl.e r1 0)) old)

/-- Passes per destination row of `brev` (R105). -/
def brevRows (w : JFields) : Nat := if imf w 5 2 + imf w 1 0 ≤ 8 then 1 else 2 ^ (imf w 5 2 + imf w 1 0 - 8)

/-- Passes per destination row (R115). -/
def passesOf (op : TOp) (w : JFields) : Nat :=
  match op with
  | .pmix => 2
  | .brev => brevRows w
  | .pgat => 8
  | _ => 1

/-- Destination row and pass of a multi-pass record. -/
def Rec.destRow (r : Rec) : Nat := row0 r.w + r.row / passesOf r.op r.w
def Rec.pass (r : Rec) : Nat := r.row % passesOf r.op r.w

def rowPmix (s : State) (gl : GloveRef) (r : Rec) : StepR :=
  withHandles s gl r fun s1 r1 =>
    let row := r.destRow
    if r.pass = 0 then
      match s1.operandRow gl .a (reuseA r.w) r.w.a row with
      | none => .fault s1 fcTileUe (some row)
      | some (x, s2) => .ok (s2.modGlv gl fun g => { g with staging := netPass x (s1.recRoute gl.e r1 0) }) r1.next
    else
      match s1.operandRow gl .b (reuseB r.w) r.w.b row with
      | none => .fault s1 fcTileUe (some row)
      | some (y, s2) =>
        let g := s2.glv gl
        let v := selectLanes g.m[(imf r.w 8 6) % 8]! (netPass y (s1.recRoute gl.e r1 1)) g.staging
        rowDone (s2.modGlv gl fun g => { g with staging := v }) gl r1 row v

/-- The source element of `brev` for element x of tile row d (R105): its index from element 0 of row 0. -/
def brevSource (e b d x : Nat) : Nat := revLow b (d * 2 ^ (8 - e) + x)

/-- A staging row with the elements that come from one source row filled in. -/
def brevPass (e b d src : Nat) (row stage : Row) : Row :=
  rowOf (8 * 2 ^ e) fun x =>
    let j := brevSource e b d x
    if j / 2 ^ (8 - e) = src then elt row (8 * 2 ^ e) (j % 2 ^ (8 - e)) else elt stage (8 * 2 ^ e) x

def rowBrev (s : State) (gl : GloveRef) (r : Rec) : StepR :=
  let e := imf r.w 1 0
  let b := imf r.w 5 2
  let d := r.destRow
  let src := d / brevRows r.w * brevRows r.w + r.pass
  match s.operandRow gl .a (reuseA r.w) r.w.a src with
  | none => .fault s fcTileUe (some d)
  | some (x, s1) =>
    let stage := brevPass e b d src x (if r.pass = 0 then 0 else (s1.glv gl).staging)
    let s2 := s1.modGlv gl fun g => { g with staging := stage }
    if r.pass + 1 = brevRows r.w then rowDone s2 gl r d stage else .ok s2 r.next

/-- A pass of `pgat` (R106): the elements of the staging row whose source lies in finger p of the source row. That a pass takes one
finger is DESIGN CHOICE (log 57): R106 counts eight passes and names nothing of one pass. -/
def pgatPass (e p : Nat) (a b stage : Row) : Row :=
  rowOf (8 * 2 ^ e) fun s =>
    let t := elt b 8 (s * 2 ^ e)
    if t < 2 ^ (8 - e) ∧ t * 2 ^ e / 32 = p then elt a (8 * 2 ^ e) t else elt stage (8 * 2 ^ e) s

def rowPgat (s : State) (gl : GloveRef) (r : Rec) : StepR :=
  let d := r.destRow
  match s.operandRow gl .a (reuseA r.w) r.w.a d with
  | none => .fault s fcTileUe (some d)
  | some (a, s1) =>
    match s1.operandRow gl .b (reuseB r.w) r.w.b d with
    | none => .fault s fcTileUe (some d)
    | some (b, s2) =>
      let stage := pgatPass (imf r.w 1 0) r.pass a b (if r.pass = 0 then 0 else (s2.glv gl).staging)
      let s3 := s2.modGlv gl fun g => { g with staging := stage }
      if r.pass = 7 then rowDone s3 gl r d stage else .ok s3 r.next

/-- Row i of the transpose of 64 rows in square blocks of elements w bits wide (R107). -/
def trnRow (rows : Nat → Row) (w i : Nat) : Row := rowOf w fun y => elt (rows (y % 64)) w (y / 64 * 64 + i)

def rowTrn (s : State) (gl : GloveRef) (r : Rec) : StepR :=
  match s.holdBank gl r with
  | none => .stall
  | some (s1, r1) =>
    if r.row < 64 then
      match s1.operandRow gl .a false r.w.a r.row with
      | none => .fault s1 fcTileUe (some 0)
      | some (x, s2) => .ok (s2.setBankRow gl.e r1.aux r.row x) r1.next
    else rowDone s1 gl r1 r.writeRow (trnRow (s1.bankRow gl.e r1.aux) (4 * 2 ^ imf r.w 1 0) r.writeRow)

/-! ### pcomp, pcompt (R108) -/

/-- The SPEC handle that `pcomp` with I = 1 resolves (R98). -/
def specHandle (spec : Nat) : Word := at_ spec 24

/-- The register P[k] of `pcomp` and `pcompt`. -/
def compileK (w : JFields) : Fin 8 := pNum (imf w 14 12)

/-- A fresh handle for a slot: SLOT, KIND, GEN, and TADDR or NUMHI. -/
def State.newHandle (s : State) (e : EngIx) (kind hi : Nat) (i : Fin 64) : Word :=
  s.stampHandle e (at_ kind 6 ||| at_ hi 24) i

/-- The row step of `pcomp` on the compiler. -/
def rowPcomp (s : State) (gl : GloveRef) (r : Rec) : StepR :=
  if flag52 r.w then
    faultAt s none (s.resolveSpec gl (imf r.w 11 0)) fun x =>
      .ok (x.1.modGlv gl fun g => { g with p := vset g.p (compileK r.w) (x.1.stampHandle gl.e (specHandle (imf r.w 11 0)) x.2) }) r.next
  else
    let a := ((s.glv gl).sreg (sNum r.w.a)).toNat
    if a % 256 ≠ 0 then .fault s fcPatBad none
    else if 2 ^ 48 < a + 256 then .fault s fcUnmapped none
    else faultAt s none (s.compileTable gl a) fun x =>
      .ok (x.1.modGlv gl fun g => { g with p := vset g.p (compileK r.w) (x.1.newHandle gl.e 1 (a / 256) x.2) }) r.next

/-- The row step of `pcompt`. -/
def rowPcompt (s : State) (gl : GloveRef) (r : Rec) : StepR :=
  match s.operandRow gl .a (reuseA r.w) r.w.a (imf r.w 5 0) with
  | none => .fault s fcTileUe (some (imf r.w 5 0))
  | some (x, s1) =>
    match s1.compile gl 2 0 ((List.range 256).map (elt x 8)) with
    | none => .stall
    | some (s2, i) =>
      let h := s2.newHandle gl.e 2 ((s2.eng gl.e).cupboard[i.val].num.toNat / 65536) i
      .ok (s2.modGlv gl fun g => { g with p := vset g.p (compileK r.w) h }) r.next

/-! ### gath and scat (R109-R112) -/

/-- Element width exponent e, elements per row. -/
def gsE (w : JFields) : Nat := imf w 5 4
def gsN (w : JFields) : Nat := 2 ^ (8 - gsE w)

/-- The index elements of the i-th row of the range, from row 0 of tb: operand A of `gath`, operand B of `scat` (R102). -/
def State.indices (s : State) (gl : GloveRef) (side : Side) (w : JFields) (i : Nat) : Option (List Nat × State) :=
  let n := gsN w
  let code := if side = .a then w.a else w.b
  let reuse := if side = .a then reuseA w else reuseB w
  let lo := i * n / 64
  let hi := (i * n + n - 1) / 64
  let rows := (List.range (hi + 1 - lo)).foldl (fun acc k =>
    acc.bind fun x => (x.2.operandRow gl side reuse code (lo + k)).map fun y => (x.1 ++ [y.1], y.2)) (some (([] : List Row), s))
  rows.map fun x => ((List.range n).map fun j => elt (x.1[(i * n + j) / 64 - lo]?.getD 0) 32 ((i * n + j) % 64), x.2)

/-- What one index asks for (R109, R110): nothing, an out-of-range element, or an access at an address. -/
inductive IxKind
  | skip
  | oob
  | addr (a : Nat)
  deriving DecidableEq, Repr

/-- Classify an index against D[k]. -/
def ixKind (w : JFields) (d : Desc) (ix : Nat) : IxKind :=
  if ix = 0xFFFFFFFF then .skip
  else if Desc.size d 0 ≤ ix then .oob
  else .addr (Desc.base d + ix * 2 ^ gsE w)

/-- The row check of R109 and R110: every element before any request. -/
def rowCheck (s : State) (gl : GloveRef) (w : JFields) (oobOk : Bool) (p : Perm) : List IxKind → Res Unit
  | [] => .ok ()
  | .skip :: l => rowCheck s gl w oobOk p l
  | .oob :: l => if oobOk then rowCheck s gl w oobOk p l else .fault fcGather
  | .addr a :: l => (s.gloveCheck gl a (2 ^ gsE w) p).bind fun _ => rowCheck s gl w oobOk p l

/-- A read of bytes that an outstanding transaction of the glove carries. -/
def State.sharedRead (s : State) (gl : GloveRef) (a n : Nat) : Res (List Byte × Bool × State) :=
  (s.glovePath gl a n .r).bind fun path =>
    match path with
    | .host port => let r := s.hostRead port a n; .ok (r.1, false, r.2)
    | .mem => .ok (s.physBytes a n, s.poisoned a n, s)

/-- Read the elements of one row: values, whether any is poisoned, the state. Elements of the granule of the previous
request share its transaction (R109). -/
def gathElts (gl : GloveRef) (n : Nat) : State → Option Nat → List IxKind → Res (List Nat × Bool × State)
  | s, _, [] => .ok ([], false, s)
  | s, last, .addr a :: l =>
    (if last = some (a / 32) then s.sharedRead gl a n else s.gloveRead gl a n).bind fun y =>
      (gathElts gl n y.2.2 (some (a / 32)) l).bind fun z => .ok (ofBytes y.1 :: z.1, y.2.1 || z.2.1, z.2.2)
  | s, last, _ :: l => (gathElts gl n s last l).bind fun z => .ok (0 :: z.1, z.2.1, z.2.2)

def rowGath (s : State) (gl : GloveRef) (r : Rec) : StepR :=
  let row := r.tileRow
  let n := 2 ^ gsE r.w
  match s.indices gl .a r.w r.row with
  | none => .fault s fcTileUe (some row)
  | some (ixs, s1) =>
    let ks := ixs.map (ixKind r.w r.desc)
    let oobs := (ks.filter (· == .oob)).length
    faultAt s (some row) ((rowCheck s1 gl r.w (imb r.w 6) .r ks).bind fun _ => gathElts gl n s1 none ks) fun y =>
      let s2 := y.2.2.engCnt gl.e 18 oobs
      match clsOf r.w.d with
      | .t t => giveLoad s2 gl r (some row) (.tile t (row64 row)) ((y.1.map (toBytes n)).flatten) y.2.1
      | _ => .fault s fcIllegal none

/-- Send one element to memory (R110): a write, or an update with ACC. -/
def sendElt (s : State) (gl : GloveRef) (w : JFields) (a : Nat) (v : Word) : Res State :=
  if imb w 7 then s.gloveUpdate gl a (imf w 11 8) (imf w 14 12) v.toNat
  else s.gloveWrite gl a (toBytes (2 ^ gsE w) v.toNat)

/-- Count writes to host memory of a port whose link is down in PORT_DISCARD (R206). -/
def State.discard (s : State) (p : MbIx) (k : Nat) : State :=
  s.modTen fun x => { x with portDiscard := vmod x.portDiscard p (· + BitVec.ofNat 32 k) }

/-- A write of a glove to host memory that failed with a code: PORT_DISCARD of its port when the link is down. -/
def State.hostFail (s : State) (gl : GloveRef) (c : Byte) : State :=
  let port := (s.tenant (s.glv gl).tenant).port
  if h : port.val < 4 then (if c = fcHost ∧ (s.port ⟨port.val, h⟩).lstate = 0 then s.discard port 1 else s) else s

/-- The state of a row of `scat` in progress: the machine, and the first error response. -/
structure ScatS where
  s : State
  err : Option Byte
  stalled : Option (Option WingIx)
  deriving DecidableEq, Repr

/-- Send one element; an error response is kept for the instruction. -/
def ScatS.send (x : ScatS) (gl : GloveRef) (w : JFields) (a : Nat) (v : Word) : ScatS :=
  match sendElt x.s gl w a v with
  | .ok t => { x with s := t }
  | .fault c => { x with s := x.s.hostFail gl c, err := if x.err.isSome then x.err else some c }
  | .stall w => { x with stalled := some w }

/-- Fold, allocate, or send the oldest and allocate (R111). -/
def ScatS.enter (x : ScatS) (gl : GloveRef) (w : JFields) (a : Nat) (v : Word) : ScatS :=
  let c := (x.s.glv gl).combiner
  if c.any (·.addr == a) then
    let fold (e : CombEnt) : CombEnt :=
      if e.addr = a then
        { e with value := if imb w 7 then BitVec.ofNat 64 (accFold (imf w 11 8) (imf w 14 12) e.value.toNat v.toNat) else v }
      else e
    { x with s := (x.s.modGlv gl fun g => { g with combiner := g.combiner.map fold }).engCnt gl.e 19 1 }
  else
    let y := match c with
      | o :: rest =>
        if c.length < 256 then x
        else ScatS.send ⟨x.s.modGlv gl fun g => { g with combiner := rest }, x.err, x.stalled⟩ gl w o.addr o.value
      | [] => x
    { y with s := y.s.modGlv gl fun g => { g with combiner := g.combiner ++ [⟨a, v⟩] } }

/-- Every remaining entry leaves in allocation order (R111, R112). -/
def ScatS.flush (x : ScatS) (gl : GloveRef) (w : JFields) : ScatS :=
  let c := (x.s.glv gl).combiner
  c.foldl (fun y e => y.send gl w e.addr e.value) { x with s := x.s.modGlv gl fun g => { g with combiner := [] } }

/-- An element of a stopped `scat` whose target cannot take it yet (R112): it waits at its wing, or behind the writes in the bypass lane. -/
def State.holdElt (s : State) (gl : GloveRef) (w : JFields) (a : Nat) (v : Word) : State :=
  let src := s.gloveSrc gl a
  match s.gloveCheck gl a (2 ^ gsE w) .w with
  | .ok (.host p) =>
    s.modPort p fun x => { x with lane := x.lane ++ x.tlps ⟨a, toBytes (2 ^ gsE w) v.toNat, false, true, some gl.e, s.now⟩ }
  | _ => s.modHall fun h => { h with held := h.held ++ [.acc
      { addr := a, master := ⟨src.master % 8, by omega⟩, tenant := src.tenant, ecc := .clean, observer := false, ahead := false
        kind := if imb w 7 then .update (BitVec.ofNat 4 (imf w 11 8)) (BitVec.ofNat 3 (imf w 14 12)) v
          else .write (toBytes (2 ^ gsE w) v.toNat) }] }

/-- The entries of a stopped `scat` are sent (R112): the first error response, if any. -/
def sendStopped (gl : GloveRef) (w : JFields) : State × Option Byte → CombEnt → State × Option Byte
  | (s, err), e => match sendElt s gl w e.addr e.value with
    | .ok t => (t, err)
    | .fault c => (s.hostFail gl c, if err.isSome then err else some c)
    | .stall v => ((s.wakeWing v).holdElt gl w e.addr e.value, err)

/-- One row of `scat`; the last row also sends what the combiner still holds. -/
def rowScat (s : State) (gl : GloveRef) (r : Rec) : StepR :=
  let row := r.tileRow
  match s.operandRow gl .a (reuseA r.w) r.w.a row with
  | none => .fault s fcTileUe (some row)
  | some (v, s1) =>
    match s1.indices gl .b r.w r.row with
    | none => .fault s fcTileUe (some row)
    | some (ixs, s2) =>
      let ks := ixs.map (ixKind r.w r.desc)
      let oobs := (ks.filter (· == .oob)).length
      faultAt s (some row) (rowCheck s2 gl r.w (imb r.w 6) (if imb r.w 7 then .u else .w) ks) fun _ =>
        let x0 : ScatS := ⟨s2.engCnt gl.e 18 oobs, none, none⟩
        let x1 := (ks.zip (List.range ks.length)).foldl (fun y k =>
          match k.1 with
          | .addr a =>
            let val := BitVec.ofNat 64 (elt v (8 * 2 ^ gsE r.w) k.2)
            if imb r.w 15 then y.send gl r.w a val else y.enter gl r.w a val
          | _ => y) x0
        let x2 := if r.row + 1 = r.rows then x1.flush gl r.w else x1
        match x2.stalled, x2.err with
        | some v, _ => .stall v
        | none, some c => .fault x2.s c none
        | none, none => giveStore x2.s r (some row)

/-! ### exch (R113) -/

/-- The wing mask and block size of `exch`. -/
def exchMask (g : Glove) (w : JFields) : Nat := fld (g.sreg (sNum w.a)) 35 32
def exchB (g : Glove) (w : JFields) : Nat := fld (g.sreg (sNum w.a)) 20 0
def exchBolt (g : Glove) (w : JFields) : Nat := fld (g.sreg (sNum w.b)) 11 0

/-- The wings of a mask, ascending. -/
def maskWings (m : Nat) : List WingIx := (allFin 4).filter fun j => (m >>> j.val) % 2 == 1
/-- The rank of a wing in a mask. -/
def maskRank (m : Nat) (w : WingIx) : Nat := ((maskWings m).filter fun j => j.val < w.val).length

/-- The window of a wing that an address lies in: none outside the pantry and HBM windows of that wing (R113). -/
def windowOf (w : WingIx) (a : Nat) : Option (WingIx → Nat) :=
  let p := fun (j : WingIx) => 0x20000000 + j.val * 0x1000000
  let h := fun (j : WingIx) => 0x1000000000 + j.val * 2 ^ 34
  if p w ≤ a ∧ a < p w + 0x800000 then some p
  else if h w ≤ a ∧ a < h w + 2 ^ 34 then some h else none

/-- The conditions of R113 on S[a], D[k] and D[l]. -/
def exchOk (e : EngIx) (g : Glove) (w : JFields) (k l : Desc) : Bool :=
  exchB g w % 2048 == 0 && decide (exchB g w ≤ 2 ^ 20) && (maskWings (exchMask g w)).contains (wingOf e)
    && (windowOf (wingOf e) (Desc.base k)).isSome && (windowOf (wingOf e) (Desc.base l)).isSome

/-- Whether the tenant owns every bolt that `exch` signals. A bolt number bb + j beyond 4095 is none of the part's: R113 does not say whether it
wraps, and the model raises BOLT_ACCESS (DESIGN CHOICE, log 57). -/
def State.exchBolts (s : State) (gl : GloveRef) (w : JFields) : Bool :=
  let g := s.glv gl
  (maskWings (exchMask g w)).all fun j =>
    if h : exchBolt g w + j.val < 4096 then s.ownsBolt ⟨exchBolt g w + j.val, h⟩ g.tenant else false

/-- The copies of one row step, one per wing of the mask. -/
def exchCopies (gl : GloveRef) (g : Glove) (r : Rec) (win : WingIx → Nat) : State → List WingIx → Res State
  | s, [] => .ok s
  | s, j :: l =>
    let b := exchB g r.w
    let m := exchMask g r.w
    let off := Desc.base r.desc2 - win (wingOf gl.e)
    let src := Desc.base r.desc + maskRank m j * b + r.row * (b / 64)
    let dst := win j + off + maskRank m (wingOf gl.e) * b + r.row * (b / 64)
    (s.gloveRead gl src (b / 64)).bind fun y =>
      if y.2.1 then .fault fcPoison
      else (y.2.2.gloveWrite gl dst y.1).bind fun t => exchCopies gl g r win t l

/-- The bolt signals at the end of `exch`: none where a bolt is no longer the tenant's. -/
def exchSignals (gl : GloveRef) (base : Nat) : State → List WingIx → Option State
  | s, [] => some s
  | s, j :: l =>
    if h : base + j.val < 4096 then
      match s.applySignal ⟨base + j.val, h⟩ (.glove gl) 1 with
      | some t => exchSignals gl base t l
      | none => none
    else none

/-- One row step of `exch`; the last one also makes the fabric fence and signals the bolts. -/
def rowExch (s : State) (gl : GloveRef) (r : Rec) : StepR :=
  let g := s.glv gl
  let wings := maskWings (exchMask g r.w)
  match windowOf (wingOf gl.e) (Desc.base r.desc2) with
  | none => .fault s fcExch none
  | some win =>
    faultAt s (some r.row) (exchCopies gl g r win s wings) fun t =>
      if r.row + 1 = r.rows then
        match exchSignals gl (exchBolt g r.w) (t.fenceClean (· == gloveWho gl)) wings with
        | some u => giveStore u r (some r.row)
        | none => .fault t fcBolt none
      else giveStore t r (some r.row)

end Sys2Proof.Machine
end

