-- ==== Sys2Proof/Machine/RowArray.lean ====
section
/-!
DEFINITION. Row steps of the contraction array: `mma` and `mmas` (R140-R145).
-/
namespace Sys2Proof.Machine

/-! ### Types (R140) -/

/-- Contraction type codes TA and TB of R145. -/
def typeA (w : JFields) : Nat := imf w 2 0
def typeB (w : JFields) : Nat := imf w 5 3

/-- The class of a contraction type (R140). -/
def mmaClass (t : Nat) : Nat := if t = 4 then 3 else if t = 6 then 5 else t
/-- Width in bits of a contraction type. -/
def mmaBits (t : Nat) : Nat :=
  match t with
  | 0 | 2 => 4
  | 1 | 3 | 4 => 8
  | 5 | 6 => 16
  | _ => 32
/-- Whether a class is an integer class. -/
def mmaInt (t : Nat) : Bool := t < 2
/-- The FMT code of R126 for a contraction type. -/
def mmaFmt (t : Nat) : Nat :=
  match t with
  | 0 => 1
  | 1 => 2
  | 2 => 4
  | 3 => 5
  | 4 => 6
  | 5 => 7
  | 6 => 8
  | _ => 9

/-- Zero of its sign where the exponent field of an fp32 or bf16 code is zero (R143). -/
def flushSub (f : FFmt) (bits : Nat) : FV :=
  if bits % f.signW < 2 ^ f.mb then .fin (bits / f.signW % 2 == 1) 0 0 else f.decode bits

/-- The value that an element has in the product (R143). -/
def mmaValue (t bits : Nat) : FV :=
  match t with
  | 0 => let i := sgn 4 bits; .fin (i < 0) i.natAbs 0
  | 1 => let i := sgn 8 bits; .fin (i < 0) i.natAbs 0
  | 2 => e2m1.decode bits
  | 3 => e4m3.decode bits
  | 4 => e5m2.decode bits
  | 5 => fp16.decode bits
  | 6 => flushSub bf16 bits
  | _ => flushSub fp32 bits

/-- The exact sum of the products of n elements from element k on. -/
def dotF (ta tb : Nat) (x y : Row) : Nat → Nat → FV
  | _, 0 => .fin false 0 0
  | k, n + 1 => FV.add (FV.mul (mmaValue ta (elt x (mmaBits ta) k)) (mmaValue tb (elt y (mmaBits tb) k))) (dotF ta tb x y (k + 1) n)

/-- The exact sum of the products of the integer classes. -/
def dotI (w : Nat) (x y : Row) : Nat → Nat → Int
  | _, 0 => 0
  | k, n + 1 => sgn w (elt x w k) * sgn w (elt y w k) + dotI w x y (k + 1) n

/-- Round once to fp32; a result below the normal range becomes zero of its sign (R143). -/
def mmaRound (v : FV) : Nat :=
  let c := fp32.encode v
  if c % 2 ^ 31 < 2 ^ 23 then c / 2 ^ 31 * 2 ^ 31 else c

/-- The accumulator element as an addend: flushed in the 32-bit float class (log 13). -/
def mmaAddend (ta : Nat) (old : Nat) : FV := if ta = 7 then flushSub fp32 old else fp32.decode old

/-- One column of `mma` (R142). -/
def mmaCol (w : JFields) (x y : Row) (old : Nat) : Nat :=
  let ta := typeA w
  let k := 2048 / mmaBits ta
  if mmaInt ta then
    unsgn 32 (dotI (mmaBits ta) x y 0 k + (if flag52 w then 0 else (old : Int)))
  else
    let p := dotF ta (typeB w) x y 0 k
    mmaRound (if flag52 w then p else FV.add (mmaAddend ta old) p)

/-! ### The B buffer (R141) -/

/-- Whether the B buffer holds all of a register. -/
def bufHit (g : Glove) (code : BitVec 6) : Bool :=
  match g.bbuf with
  | some b => b.reg == code && b.rows.length == 64
  | none => false

/-- Column c of B: row c of tb. A buffer that holds tb holds the same rows, since a write of a row of tb makes it invalid and tb cannot be
written while an instruction in flight reads it (R62, R141). -/
def bRow (g : Glove) (code : BitVec 6) (c : Nat) : Row := (g.tileOf (clsOf code)).row (row64 c)

/-- Whether a record finds its B load done at its first row step (R141). -/
def Rec.skipsLoad (g : Glove) (r : Rec) : Bool := r.row == 0 && reuseB r.w && bufHit g r.w.b

/-- A record past its B load. -/
def Rec.skipLoad (r : Rec) : Rec := { r with row := r.aux, hit := true }

/-- Load row c of tb into the B buffer: it is read as operand B (R64); none: TILE_UE. -/
def loadB (g : Glove) (code : BitVec 6) (c : Nat) : Option Glove :=
  let x := g.readRow .b false code (row64 c)
  x.1.map fun v =>
    let rows := match g.bbuf with
      | some b => if c = 0 then [] else b.rows
      | none => []
    { x.2.2 with bbuf := some ⟨code, rows ++ [v]⟩ }

/-- The accumulator row that a step of `mma` writes: after the B load, from where it resumed. -/
def Rec.mmaRow (r : Rec) : Nat := row0 r.w + r.start + (r.row - r.aux)

/-! ### Block scales of `mmas` (R144) -/

/-- The register S[x] of `mmas`. -/
def mmasX (w : JFields) : Nat := imf w 18 14

/-- A scale outside the extent of its tensor: its block contributes zero. -/
def noScale : Word := 0x10000

/-- The scale codes of one tile row, read through the scale descriptor. -/
def readScales (s : State) (gl : GloveRef) (d sc : Desc) (origin : Word) (row k : Nat) : Res (List Word × State) :=
  let blk := blockOf (Desc.sblk d)
  let n := k / blk
  match Desc.seg sc (originOuter origin + row) (originInner origin / blk) n with
  | none => .ok (List.replicate n noScale, s)
  | some x =>
    x.checkFree.bind fun a => (s.gloveRead gl a x.extent).bind fun y =>
      if y.2.1 then .fault fcPoison
      else
        let codes := (unpackElts (fmtBits (Desc.fmt sc)) y.1).map (BitVec.ofNat 64)
        .ok (codes ++ List.replicate (n - codes.length) noScale, y.2.2)

/-- The step of the sum over blocks: the smaller of the two block sizes. -/
def mmasBlk (dk dl : Desc) : Nat := min (blockOf (Desc.sblk dk)) (blockOf (Desc.sblk dl))

/-- The exact sum over n blocks from block j on (R144). -/
def scaledCol (w : JFields) (dk dl sck scl : Desc) (x y : Row) (sa sb : List Word) : Nat → Nat → FV
  | _, 0 => .fin false 0 0
  | j, n + 1 =>
    let blk := mmasBlk dk dl
    let rest := scaledCol w dk dl sck scl x y sa sb (j + 1) n
    let a := sa[j * blk / blockOf (Desc.sblk dk)]?.getD noScale
    let b := sb[j * blk / blockOf (Desc.sblk dl)]?.getD noScale
    if a = noScale ∨ b = noScale then rest
    else
      let f := FV.mul (scaleValue (Desc.fmt dk) (Desc.fmt sck) a.toNat) (scaleValue (Desc.fmt dl) (Desc.fmt scl) b.toNat)
      FV.add (FV.mul f (dotF (typeA w) (typeB w) x y (j * blk) blk)) rest

/-- The elements of a tile row. -/
def mmaK (w : JFields) : Nat := 2048 / mmaBits (typeA w)

/-- One row of scales of tb joins those that the record has read. -/
def loadScalesB (s : State) (gl : GloveRef) (r : Rec) (c : Nat) : Res (State × Rec) :=
  let g := s.glv gl
  let o := g.sreg (sNum (BitVec.ofNat 6 (mmasX r.w + 1)))
  let dl := r.ds[1]?.getD 0
  let scl := r.ds[3]?.getD 0
  (readScales s gl dl scl o c (mmaK r.w)).bind fun y =>
    .ok (y.2, { r with scales := r.scales ++ y.1 })

/-- The scales of tb from row c on, n rows. -/
def loadAllScalesB (gl : GloveRef) : State → Rec → Nat → Nat → Res (State × Rec)
  | s, r, _, 0 => .ok (s, r)
  | s, r, c, n + 1 => (loadScalesB s gl r c).bind fun t => loadAllScalesB gl t.1 t.2 (c + 1) n

/-! ### Row steps -/

/-- One step of the B load, with the scales of tb for `mmas`. -/
def rowLoadB (s : State) (gl : GloveRef) (r : Rec) : StepR :=
  let row := some (row0 r.w + r.start)
  match loadB (s.glv gl) r.w.b r.row with
  | none => .fault s fcTileUe row
  | some g =>
    let s1 := (s.modGlv gl fun _ => g).countReuse gl.e .b (reuseB r.w) false
    if r.op = .mmas then faultAt s row (loadScalesB s1 gl r r.row) fun t => .ok t.1 t.2.next else .ok s1 r.next

/-- Read ta's row and the accumulator row of a step; none: TILE_UE. -/
def mmaOperands (s : State) (gl : GloveRef) (r : Rec) : Option (Row × Row × State) :=
  match s.operandRow gl .a (reuseA r.w) r.w.a r.mmaRow with
  | none => none
  | some (x, s1) =>
    let t := (s1.glv gl).tileOf (clsOf r.w.d)
    if flag52 r.w then some (x, 0, s1.countReuse gl.e .b (reuseB r.w && r.hit) true)
    else if t.valid && bitAt t.bad (r.mmaRow % 64) then none
    else some (x, t.row (row64 r.mmaRow),
      (s1.modGlv gl fun g => g.correctRow r.w.d (row64 r.mmaRow)).countReuse gl.e .b (reuseB r.w && r.hit) true)

/-- One array step of `mma` (R142). -/
def mmaStep (s : State) (gl : GloveRef) (r : Rec) : StepR :=
  match mmaOperands s gl r with
  | none => .fault s fcTileUe (some r.mmaRow)
  | some (x, old, s1) =>
    let g := s1.glv gl
    rowDone s1 gl r r.mmaRow (rowOf 32 fun c => mmaCol r.w x (bRow g r.w.b c) (elt old 32 c))

/-- One array step of `mmas` (R144): it waits for its scales. -/
def mmasStep (s : State) (gl : GloveRef) (r : Rec) : StepR :=
  let row := some r.mmaRow
  let dk := r.ds[0]?.getD 0
  let dl := r.ds[1]?.getD 0
  let sck := r.ds[2]?.getD 0
  let scl := r.ds[3]?.getD 0
  faultAt s row (if r.hit ∧ r.scales.isEmpty then loadAllScalesB gl s r 0 64 else .ok (s, r)) fun x0 =>
    let o := (x0.1.glv gl).sreg (sNum (BitVec.ofNat 6 (mmasX r.w)))
    faultAt x0.1 row (readScales x0.1 gl dk sck o (r.mmaRow) (mmaK r.w)) fun sa =>
      match mmaOperands sa.2 gl r with
      | none => .fault sa.2 fcTileUe row
      | some (x, old, s1) =>
        let g := s1.glv gl
        let nb := mmaK r.w / blockOf (Desc.sblk dl)
        rowDone s1 gl x0.2 r.mmaRow (rowOf 32 fun c =>
          let p := scaledCol r.w dk dl sck scl x (bRow g r.w.b c) sa.1 ((x0.2.scales.drop (c * nb)).take nb) 0
            (mmaK r.w / mmasBlk dk dl)
          mmaRound (if flag52 r.w then p else FV.add (fp32.decode (elt old 32 c)) p))

/-- One row step of `mma` or `mmas`: of its B load, or of the array. -/
def mmaOr (f : State → GloveRef → Rec → StepR) (s : State) (gl : GloveRef) (r : Rec) : StepR :=
  if r.skipsLoad (s.glv gl) then f s gl r.skipLoad
  else if r.row < r.aux then rowLoadB s gl r else f s gl r

def rowMma (s : State) (gl : GloveRef) (r : Rec) : StepR := mmaOr mmaStep s gl r
def rowMmas (s : State) (gl : GloveRef) (r : Rec) : StepR := mmaOr mmasStep s gl r

end Sys2Proof.Machine
end

