-- ==== Sys2Proof/Machine/RowVector.lean ====
section
/-!
DEFINITION. Row steps of the vector unit (R146-R154): elementwise operations, `vun`, `vcmp`, the reductions, the
conversions, `vpdep` and `vpext`, with the legality of their fields (R145).
-/
namespace Sys2Proof.Machine

/-! ### Types (R145) -/

/-- A vector element type. -/
inductive VTy
  | int (signed : Bool) (bits : Nat)
  | flt (f : FFmt)
  deriving DecidableEq, Repr

/-- The type of a vector TYPE code; none for 9-15. -/
def vty (code : Nat) : Option VTy :=
  match code with
  | 0 => some (.int true 8)
  | 1 => some (.int true 16)
  | 2 => some (.int true 32)
  | 3 => some (.int false 8)
  | 4 => some (.int false 16)
  | 5 => some (.int false 32)
  | 6 => some (.flt fp16)
  | 7 => some (.flt bf16)
  | 8 => some (.flt fp32)
  | _ => none

def VTy.bits : VTy → Nat
  | .int _ b => b
  | .flt f => f.width
def VTy.isFlt : VTy → Bool
  | .flt _ => true
  | _ => false

/-- The type of an instruction; int8 for a reserved code, which is refused at issue. -/
def tyOf (w : JFields) : VTy := (vty (imf w 3 0)).getD (.int true 8)

/-- A tile register, or an accumulator where elements are 32 bits wide (R145). -/
def taOk (bits : Nat) (c : BitVec 6) : Bool := (clsOf c).isT || ((clsOf c).isA && bits == 32)

/-- The B operand of R145: an S register with SB, else a tile or accumulator. -/
def vbOk (w : JFields) (bits : Nat) : Bool := if flag52 w then (clsOf w.b).isS else taOk bits w.b

/-! ### Elements -/

/-- An integer element as a number. -/
def ival (signed : Bool) (bits v : Nat) : Int := if signed then sgn bits v else ((v % 2 ^ bits : Nat) : Int)

/-- The low bits of an integer result, or the result clamped to the type (R146). -/
def narrow (signed : Bool) (bits : Nat) (sat : Bool) (i : Int) : Nat := if sat then clampInt signed bits i else unsgn bits i

/-- `vsh` of an element (R146). -/
def shiftElt (signed : Bool) (bits x y : Nat) : Nat :=
  let n := sgn bits y
  if 0 ≤ n then (if n < bits then unsgn bits (ival false bits x * 2 ^ n.toNat) else 0)
  else
    let m := (-n).toNat
    if m < bits then unsgn bits (ival signed bits x / 2 ^ m)
    else if signed && decide (sgn bits x < 0) then 2 ^ bits - 1 else 0

/-- An elementwise integer operation: x of ta, y of B, z of td. -/
def intElt (op : TOp) (signed : Bool) (bits : Nat) (sat : Bool) (x y z : Nat) : Nat :=
  let a := ival signed bits x
  let b := ival signed bits y
  match op with
  | .vadd => narrow signed bits sat (a + b)
  | .vsub => narrow signed bits sat (a - b)
  | .vmul => narrow signed bits sat (a * b)
  | .vfma => unsgn bits (a * b + ival signed bits z)
  | .vmin => if a ≤ b then x else y
  | .vmax => if a ≤ b then y else x
  | .vand => x &&& y
  | .vor => x ||| y
  | .vxor => x ^^^ y
  | _ => shiftElt signed bits x y

/-- An elementwise floating-point operation (R147). -/
def fltElt (op : TOp) (f : FFmt) (x y z : Nat) : Nat :=
  match op with
  | .vadd => f.addB x y
  | .vsub => f.subB x y
  | .vmul => f.mulB x y
  | .vfma => f.fmaB x y z
  | .vmin => f.minMax false x y
  | _ => f.minMax true x y

/-- One element of an elementwise instruction. -/
def vecElt (op : TOp) (t : VTy) (sat : Bool) (x y z : Nat) : Nat :=
  match t with
  | .int sg b => intElt op sg b sat (x % 2 ^ b) (y % 2 ^ b) (z % 2 ^ b)
  | .flt f => fltElt op f (x % 2 ^ f.width) (y % 2 ^ f.width) (z % 2 ^ f.width)

/-- A correctly rounded or, in fp32, 1-ulp result (R148). -/
def vunResult (f : FFmt) (fn bits : Nat) (a : Approx) : Nat :=
  if f = fp32 then a.within1 f (Config.vunPick fn bits) else a.roundTo f

/-- The result of `vun` where R148 states none: an infinite operand, or no real value (log 14). Where it is a NaN it is the canonical one
(R147). -/
def vunFree (f : FFmt) (fn bits : Nat) : Nat :=
  let c := Config.vunOpen fn f.mb bits % 2 ^ f.width
  if (f.decode c).isNan then f.nanCode else c

/-- The approximation from below of a square root. -/
def sqrtA (m : Nat) (e : Int) : Approx := let r := sqrtMag m e; ⟨false, r.1, r.2.1, !r.2.2⟩
/-- The approximation from below of a reciprocal. -/
def rcpA (neg : Bool) (m : Nat) (e : Int) : Approx := let r := divMag 1 0 m e; ⟨neg, r.1, r.2.1, !r.2.2⟩
/-- The approximation from below of a reciprocal square root. -/
def rsqrtA (m : Nat) (e : Int) : Approx :=
  let q := divMag 1 0 m e
  let r := sqrtMag q.1 q.2.1
  ⟨false, r.1, r.2.1, !q.2.2 && !r.2.2⟩

/-- `vun` FN 2-7 on a floating-point element (R147, R148): sqrt is the correctly rounded square root, of +inf too; a NaN gives the canonical
NaN. -/
def vunFlt (f : FFmt) (fn bits : Nat) : Nat :=
  match f.decode bits with
  | .fin neg m e =>
    match fn with
    | 2 => if m = 0 then bits else if neg then f.nanCode else (sqrtA m e).roundTo f
    | 3 => if m = 0 then vunFree f fn bits else vunResult f fn bits (rcpA neg m e)
    | 4 => if m = 0 ∨ neg then vunFree f fn bits else vunResult f fn bits (rsqrtA m e)
    | 5 => vunResult f fn bits (exp2A (FV.dy (.fin neg m e)))
    | 6 => if m = 0 ∨ neg then vunFree f fn bits else vunResult f fn bits (log2A m e)
    | _ => vunResult f fn bits (tanhA neg m e)
  | .nan _ => f.nanCode
  | .inf neg => if fn = 2 then (if neg then f.nanCode else bits) else vunFree f fn bits

/-- `vun` on an element: abs and neg act on the sign bit, and wrap on integers. -/
def vunElt (t : VTy) (fn bits : Nat) : Nat :=
  match t with
  | .int sg b =>
    let i := ival sg b bits
    unsgn b (if fn = 0 then (i.natAbs : Int) else -i)
  | .flt f =>
    match fn with
    | 0 => bits % f.signW
    | 1 => if bits / f.signW % 2 = 1 then bits % f.signW else f.signW + bits % f.signW
    | _ => vunFlt f fn (bits % 2 ^ f.width)

/-- The order of two elements; none when one is a NaN (R149). -/
def vecOrd (t : VTy) (x y : Nat) : Option Ordering :=
  match t with
  | .int sg b => some (compare (ival sg b x) (ival sg b y))
  | .flt f =>
    let a := f.decode (x % 2 ^ f.width)
    let b := f.decode (y % 2 ^ f.width)
    if a.isNan || b.isNan then none else some (FV.cmp a b)

/-- One fold of a reduction: OP 0 sum, 1 min, 2 max (R150). -/
def foldElt (t : VTy) (op x y : Nat) : Nat :=
  vecElt (if op = 0 then .vadd else if op = 1 then .vmin else .vmax) t false x y 0

/-- The result type of `vhred` (R151). -/
def wideTy : VTy → VTy
  | .int sg _ => .int sg 32
  | .flt _ => .flt fp32

/-- An element widened to the result type. -/
def widen (t : VTy) (v : Nat) : Nat :=
  match t with
  | .int sg b => unsgn 32 (ival sg b v)
  | .flt f => if f = fp32 then v % 2 ^ 32 else fp32.encode (f.decode (v % 2 ^ f.width))

/-- The fixed tree of `vhred`: each level folds the upper half onto the lower (R151). -/
def treeFold (t : VTy) (op : Nat) : Nat → List Nat → List Nat
  | 0, l => l
  | n + 1, l =>
    let h := l.length / 2
    if h = 0 then l else treeFold t op n (((l.take h).zip (l.drop h)).map fun p => foldElt t op p.1 p.2)

/-- `vpdep` of an element: n bits of the mask from bit i on, taking bits of x from bit j on (R152). -/
def depBits (x m : Nat) : Nat → Nat → Nat → Nat
  | _, _, 0 => 0
  | i, j, n + 1 => if m.testBit i then b2n (x.testBit j) * 2 ^ i + depBits x m (i + 1) (j + 1) n else depBits x m (i + 1) j n
/-- `vpext` of an element. -/
def extBits (x m : Nat) : Nat → Nat → Nat → Nat
  | _, _, 0 => 0
  | i, j, n + 1 => if m.testBit i then b2n (x.testBit i) * 2 ^ j + extBits x m (i + 1) (j + 1) n else extBits x m (i + 1) j n

/-! ### Operands -/

/-- Row of operand B, or S[b] broadcast (R146); none: TILE_UE. -/
def State.vecB (s : State) (gl : GloveRef) (w : JFields) (bits row : Nat) : Option (Row × State) :=
  if flag52 w then some (rowOf bits fun _ => ((s.glv gl).sreg (sNum w.b)).toNat, s)
  else s.operandRow gl .b (reuseB w) w.b row

/-- The mask M[c] of an elementwise instruction or `vun`. -/
def Glove.maskC (g : Glove) (w : JFields) : Mask := g.m[(imf w 6 4) % 8]!

/-- The destination row as it stands. -/
def Glove.destRowOf (g : Glove) (w : JFields) (row : Nat) : Row := (g.tileOf (clsOf w.d)).row (row64 row)

/-- A row with n elements of w bits replaced from element lo on (R153: byte enables). -/
def putPart (w : Nat) (old : Row) (lo n : Nat) (f : Nat → Nat) : Row :=
  rowOf w fun x => if lo ≤ x ∧ x < lo + n then f (x - lo) else elt old w x

/-! ### Row steps -/

/-- Elementwise instructions (R146). -/
def rowVec (s : State) (gl : GloveRef) (r : Rec) : StepR :=
  let row := r.tileRow
  let t := tyOf r.w
  match s.operandRow gl .a (reuseA r.w) r.w.a row with
  | none => .fault s fcTileUe (some row)
  | some (x, s1) =>
    match s1.vecB gl r.w t.bits row with
    | none => .fault s fcTileUe (some row)
    | some (y, s2) =>
      let g := s2.glv gl
      let old := g.destRowOf r.w row
      if r.op = .vfma ∧ (g.tileOf (clsOf r.w.d)).valid ∧ bitAt (g.tileOf (clsOf r.w.d)).bad (row % 64)
      then .fault s fcTileUe (some row)
      else
        let v := rowOf t.bits fun i => vecElt r.op t (imb r.w 8) (elt x t.bits i) (elt y t.bits i) (elt old t.bits i)
        rowDone s2 gl r row (maskedRow (flag53 r.w) (imb r.w 7) (g.maskC r.w) v old)

/-- `vun` (R148). -/
def rowVun (s : State) (gl : GloveRef) (r : Rec) : StepR :=
  let row := r.tileRow
  let t := tyOf r.w
  match s.operandRow gl .a (reuseA r.w) r.w.a row with
  | none => .fault s fcTileUe (some row)
  | some (x, s1) =>
    let g := s1.glv gl
    let v := rowOf t.bits fun i => vunElt t (imf r.w 12 9) (elt x t.bits i)
    rowDone s1 gl r row (maskedRow (flag53 r.w) (imb r.w 7) (g.maskC r.w) v (g.destRowOf r.w row))

/-- The mask that `vcmp` writes (R149). -/
def cmpMask (t : VTy) (cc : Nat) (x y : Row) : Mask :=
  BitVec.ofNat 256 (digits (t.bits / 8)
    (fun i => if (vcond cc (vecOrd t (elt x t.bits i) (elt y t.bits i))).getD false then 2 ^ (t.bits / 8) - 1 else 0)
    0 (2048 / t.bits))

/-- `vcmp` (R149). -/
def rowVcmp (s : State) (gl : GloveRef) (r : Rec) : StepR :=
  let row := r.tileRow
  let t := tyOf r.w
  match s.operandRow gl .a (reuseA r.w) r.w.a row with
  | none => .fault s fcTileUe (some row)
  | some (x, s1) =>
    match s1.vecB gl r.w t.bits row with
    | none => .fault s fcTileUe (some row)
    | some (y, s2) =>
      .ok (s2.modGlv gl fun g => { g with m := vset g.m (mNum r.w.d) (cmpMask t (imf r.w 11 9) x y) }) r.next

/-- `vcred`: each row step folds one row of ta into row DROW of td (R150). -/
def rowVcred (s : State) (gl : GloveRef) (r : Rec) : StepR :=
  let row := r.tileRow
  let t := tyOf r.w
  let drow := imf r.w 13 8
  match s.operandRow gl .a (reuseA r.w) r.w.a row with
  | none => .fault s fcTileUe (some row)
  | some (x, s1) =>
    let old := (s1.glv gl).destRowOf r.w drow
    rowDone s1 gl r drow
      (if r.row = 0 then x else rowOf t.bits fun i => foldElt t (imf r.w 5 4) (elt old t.bits i) (elt x t.bits i))

/-- `vhred` (R151). -/
def rowVhred (s : State) (gl : GloveRef) (r : Rec) : StepR :=
  let row := r.tileRow
  let t := tyOf r.w
  match s.operandRow gl .a (reuseA r.w) r.w.a row with
  | none => .fault s fcTileUe (some row)
  | some (x, s1) =>
    let l := (List.range (2048 / t.bits)).map fun i => widen t (elt x t.bits i)
    rowDone s1 gl r row (BitVec.ofNat 2048 ((treeFold (wideTy t) (imf r.w 5 4) 8 l).headD 0 % 2 ^ 32))

/-- SFMT, DFMT and PART (R145). -/
def sFmt (w : JFields) : Nat := imf w 4 0
def dFmt (w : JFields) : Nat := imf w 9 5
def vPart (w : JFields) : Nat := imf w 12 10
/-- SCFMT as an FMT code, and BLK in elements. -/
def scFmt (w : JFields) : Nat := if imf w 14 13 = 0 then 10 else if imf w 14 13 = 1 then 7 else 8
def vBlk (w : JFields) : Nat := blockOf (imf w 16 15)

/-- The ratio of the wider width to the narrower one. -/
def widthRatio (a b : Nat) : Nat := if a ≤ b then b / a else a / b

/-- The value of a code of an FMT. -/
def fmtValue (code bits : Nat) : FV :=
  match efmt code with
  | some f => f.value bits
  | none => .nan false

/-- One converted element (R153). -/
def cvtElt (sf df v : Nat) : Nat := (convTo df ⟨fmtValue sf v, false⟩).getD 0

/-- `vcvt` (R153). -/
def rowVcvt (s : State) (gl : GloveRef) (r : Rec) : StepR :=
  let row := r.tileRow
  let sw := fmtBits (sFmt r.w)
  let dw := fmtBits (dFmt r.w)
  match s.operandRow gl .a (reuseA r.w) r.w.a row with
  | none => .fault s fcTileUe (some row)
  | some (x, s1) =>
    let old := (s1.glv gl).destRowOf r.w row
    let conv (j : Nat) : Nat := cvtElt (sFmt r.w) (dFmt r.w) (elt x sw j)
    rowDone s1 gl r row
      (if dw < sw then putPart dw old (vPart r.w * (2048 / sw)) (2048 / sw) conv
       else rowOf dw fun j => conv (vPart r.w * (2048 / dw) + j))

/-- `vquant` (R154): part PART of td, and its scales in ts. -/
def rowVquant (s : State) (gl : GloveRef) (r : Rec) : StepR :=
  let row := r.tileRow
  let sw := fmtBits (sFmt r.w)
  let n := 2048 / sw
  let blk := vBlk r.w
  match s.operandRow gl .a (reuseA r.w) r.w.a row with
  | none => .fault s fcTileUe (some row)
  | some (x, s1) =>
    let qs := quantBlocks (dFmt r.w) (scFmt r.w) blk 16 ((List.range n).map fun j => fmtValue (sFmt r.w) (elt x sw j))
    let codes := (qs.map (·.2)).flatten
    let scales := qs.map (·.1)
    let g := s1.glv gl
    let oldT := (g.tileOf (clsOf r.w.b)).row (row64 row)
    let tsRow := putPart (fmtBits (scFmt r.w)) oldT (vPart r.w * (n / blk)) (n / blk) fun j => scales[j]?.getD 0
    let s2 := s1.modGlv gl fun g => g.putRow r.w.b (row64 row) tsRow
    rowDone s2 gl r row
      (putPart (fmtBits (dFmt r.w)) ((s2.glv gl).destRowOf r.w row) (vPart r.w * n) n fun j => codes[j]?.getD 0)

/-- `vdeq` (R154). -/
def rowVdeq (s : State) (gl : GloveRef) (r : Rec) : StepR :=
  let row := r.tileRow
  let sw := fmtBits (sFmt r.w)
  let dw := fmtBits (dFmt r.w)
  let n := 2048 / dw
  match s.operandRow gl .a (reuseA r.w) r.w.a row with
  | none => .fault s fcTileUe (some row)
  | some (x, s1) =>
    match s1.operandRow gl .b (reuseB r.w) r.w.b row with
    | none => .fault s fcTileUe (some row)
    | some (y, s2) =>
      rowDone s2 gl r row (rowOf dw fun j =>
        let i := vPart r.w * n + j
        let sc := scaleValue (sFmt r.w) (scFmt r.w) (elt y (fmtBits (scFmt r.w)) (i / vBlk r.w))
        match efmt (dFmt r.w) with
        | some (.flt f) => f.encode (FV.mul (fmtValue (sFmt r.w) (elt x sw i)) sc)
        | _ => 0)

/-- `vpdep` and `vpext` (R152). -/
def rowVbits (s : State) (gl : GloveRef) (r : Rec) (f : Nat → Nat → Nat → Nat → Nat → Nat) : StepR :=
  let row := r.tileRow
  let b := (tyOf r.w).bits
  match s.operandRow gl .a (reuseA r.w) r.w.a row with
  | none => .fault s fcTileUe (some row)
  | some (x, s1) =>
    match s1.vecB gl r.w b row with
    | none => .fault s fcTileUe (some row)
    | some (y, s2) => rowDone s2 gl r row (rowOf b fun i => f (elt x b i) (elt y b i) 0 0 b)

/-! ### Legality (R145-R154, R157) -/

/-- FMT codes that `vcvt` takes. -/
def cvtFmtOk (c : Nat) : Bool :=
  match efmt c with
  | some .byte => false
  | some .e8m0 => false
  | some _ => true
  | none => false

/-- FMT codes of block-scaled values (R154), and of their floating-point side. -/
def quantFmtOk (c : Nat) : Bool := c == 1 || c == 2 || c == 4 || c == 5 || c == 6
def fullFmtOk (c : Nat) : Bool := c == 7 || c == 8 || c == 9

/-- Whether the fields of a vector instruction are legal; SAT matters to the elementwise ones. -/
def vecLegal (op : TOp) (w : JFields) : Bool :=
  match vty (imf w 3 0) with
  | none => false
  | some t =>
    let b := t.bits
    match op with
    | .vun => rowsOk w && taOk b w.a && taOk b w.d && decide (imf w 12 9 < 8) && !(t.isFlt && imb w 8) && !(!t.isFlt && decide (2 ≤ imf w 12 9))
    | .vcmp => taOk b w.a && vbOk w b && (clsOf w.d).isM && decide (imf w 11 9 < 6) && decide (imf w 33 28 = 1)
    | .vcred | .vhred => rowsOk w && taOk b w.a && taOk b w.d && decide (imf w 5 4 < 3) && w.a != w.d
    | .vpdep | .vpext =>
      rowsOk w && !t.isFlt && (clsOf w.a).isT && (clsOf w.d).isT && (if flag52 w then (clsOf w.b).isS else (clsOf w.b).isT)
    | .vand | .vor | .vxor | .vsh => rowsOk w && !t.isFlt && taOk b w.a && vbOk w b && taOk b w.d
    | _ => rowsOk w && taOk b w.a && vbOk w b && taOk b w.d && !(t.isFlt && imb w 8)

/-- Legality of `vcvt`, `vquant` and `vdeq`. -/
def cvtLegal (op : TOp) (w : JFields) : Bool :=
  let sw := fmtBits (sFmt w)
  let dw := fmtBits (dFmt w)
  rowsOk w && decide (vPart w < widthRatio sw dw) &&
    match op with
    | .vcvt => cvtFmtOk (sFmt w) && cvtFmtOk (dFmt w) && taOk sw w.a && taOk dw w.d && (sw == dw || w.a != w.d)
    | .vquant => fullFmtOk (sFmt w) && quantFmtOk (dFmt w) && imf w 14 13 != 3 && imf w 16 15 != 0
        && (clsOf w.a).isT && (clsOf w.b).isT && (clsOf w.d).isT && w.d != w.a && w.d != w.b
    | _ => quantFmtOk (sFmt w) && fullFmtOk (dFmt w) && imf w 14 13 != 3 && imf w 16 15 != 0
        && (clsOf w.a).isT && (clsOf w.b).isT && (clsOf w.d).isT && w.d != w.a && w.d != w.b

/-- Legality of `mma` and `mmas` (R140, R144, R145). -/
def mmaLegal (op : TOp) (w : JFields) : Bool :=
  rowsOk w && (clsOf w.a).isT && (clsOf w.b).isT && (clsOf w.d).isA && mmaClass (typeA w) == mmaClass (typeB w) &&
    (op != .mmas || (decide (mmaClass (typeA w) ≤ 3) && decide (mmasX w ≤ 30)))

end Sys2Proof.Machine
end

