-- ==== Sys2Proof/Machine/RowSpatial.lean ====
section
/-!
DEFINITION. Row steps of the spatial instructions (R158-R177, R389): the frame block, quantisation and keys, the sort, one
point per voxel, the hash, labelling, boxes, the octree and neighbour search.
-/
namespace Sys2Proof.Machine

/-! ### Access -/

/-- Read a number of n bytes; poisoned data raise POISON. -/
def State.sRead (s : State) (gl : GloveRef) (a n : Nat) : Res (Nat × State) :=
  (s.gloveRead gl a n).bind fun y => if y.2.1 then .fault fcPoison else .ok (ofBytes y.1, y.2.2)
/-- Write a number of n bytes. -/
def State.sWrite (s : State) (gl : GloveRef) (a n v : Nat) : Res State := s.gloveWrite gl a (toBytes n v)
/-- Accumulate ADD on a 32-bit word (R42). -/
def State.sAdd (s : State) (gl : GloveRef) (a v : Nat) : Res State := if v = 0 then .ok s else s.gloveUpdate gl a 0 0 v

/-- Do f for each item in order. -/
def overItems {α : Type} (f : State → α → Res State) : State → List α → Res State
  | s, [] => .ok s
  | s, x :: l => (f s x).bind fun t => overItems f t l

/-- Do f for each item in order and collect the answers. -/
def mapItems {α β : Type} (f : State → α → Res (β × State)) : State → List α → Res (List β × State)
  | s, [] => .ok ([], s)
  | s, x :: l => (f s x).bind fun y => (mapItems f y.2 l).bind fun z => .ok (y.1 :: z.1, z.2)

/-! ### The frame block (R159) -/

/-- A field of n bytes of the header; the header is the record's first two descriptors. -/
def Rec.hf (r : Rec) (off n : Nat) : Nat := (((r.ds[0]?.getD 0).toNat + 2 ^ 512 * (r.ds[1]?.getD 0).toNat) >>> (8 * off)) % 2 ^ (8 * n)
/-- A field of the report at FRB offset 0x080 + off, as it was read at issue: the third descriptor. -/
def Rec.rf (r : Rec) (off n : Nat) : Nat := ((r.ds[2]?.getD 0).toNat >>> (8 * off)) % 2 ^ (8 * n)
/-- 32-bit word i of what an instruction formed from the rest of the FRB: the fourth descriptor. -/
def Rec.xf (r : Rec) (i : Nat) : Nat := ((r.ds[3]?.getD 0).toNat >>> (32 * i)) % 2 ^ 32

/-- RBASE and RCOUNT of chunk entry c as they were read at issue (R159, R165): the descriptors from the fifth on. -/
def Rec.chunk (r : Rec) (c : Nat) : Nat × Nat :=
  let e := (r.ds[4 + c]?.getD 0).toNat
  (e % 2 ^ 64, (e >>> 64) % 2 ^ 32)
/-- CNT_L of chunk entry c, L = 0-4; OUT for L = 5. -/
def Rec.chunkCnt (r : Rec) (l c : Nat) : Nat := ((r.ds[4 + c]?.getD 0).toNat >>> (128 + 32 * l)) % 2 ^ 32

def Rec.fPfmt (r : Rec) : Nat := r.hf 4 1
def Rec.fFrac (r : Rec) : Nat := r.hf 5 1
def Rec.fLmax (r : Rec) : Nat := r.hf 6 1
def Rec.fNch (r : Rec) : Nat := r.hf 7 1
def Rec.fNpts (r : Rec) : Nat := r.hf 8 4
def Rec.fCap (r : Rec) : Nat := r.hf 0xC 4
def Rec.fVmax (r : Rec) : Nat := r.hf 0x10 4
def Rec.fOrigin (r : Rec) (a : Nat) : Nat := r.hf (0x14 + 4 * a) 4
def Rec.fEdge (r : Rec) : Nat := r.hf 0x20 4
def Rec.fHb (r : Rec) : Nat := r.hf 0x24 1
def Rec.fBoxmax (r : Rec) : Nat := r.hf 0x28 2
def Rec.fPoints (r : Rec) : Nat := r.hf 0x30 8
def Rec.fVoxels (r : Rec) : Nat := r.hf 0x38 8
def Rec.fHash (r : Rec) : Nat := r.hf 0x40 8
def Rec.fOctree (r : Rec) : Nat := r.hf 0x48 8
def Rec.fBoxes (r : Rec) : Nat := r.hf 0x50 8
def Rec.fLevel (r : Rec) : Nat := r.rf 0x14 1
def Rec.fFlags (r : Rec) : Nat := r.rf 0x15 1
def Rec.fNvox (r : Rec) : Nat := r.rf 0x1C 4
def Rec.fNbox (r : Rec) : Nat := r.rf 0x28 4

/-- Whether an fp32 code is finite. -/
def finite32 (v : Nat) : Bool := v % 2 ^ 31 < 0x7F800000

/-- The header ranges of R159. -/
def Rec.headerOk (r : Rec) : Bool :=
  r.hf 0 4 == 0x46524D31 && decide (r.fPfmt ≤ 1) && decide (r.fFrac ≤ 15) && decide (r.fLmax ≤ 4)
    && decide (1 ≤ r.fNch) && decide (r.fNch ≤ 64) && decide (1 ≤ r.fNpts) && decide (r.fNpts ≤ 1048576)
    && decide (1 ≤ r.fCap) && decide (r.fCap ≤ 262144) && decide (r.fCap ≤ r.fVmax) && decide (r.fVmax ≤ 262144)
    && (List.range 3).all (fun a => finite32 (r.fOrigin a)) && decide (0 < r.fEdge) && decide (r.fEdge < 0x7F800000)
    && decide (10 ≤ r.fHb) && decide (r.fHb ≤ 20) && decide (1 ≤ r.fBoxmax) && decide (r.fBoxmax ≤ 4096)

/-- Whether a range lies in pantries and HBM (R389). -/
def State.accMem (s : State) (a n : Nat) : Bool :=
  ((spots a n) ++ [a + n - 1]).all fun x => ((decodeAddr s.hall.remap x).wing).isSome

/-- The FRB address S[a], the window start S[b], and S[x]. -/
def frbAddr (g : Glove) (w : JFields) : Nat := (g.sreg (sNum w.a)).toNat
def firstItem (g : Glove) (w : JFields) : Nat := (g.sreg (sNum w.b)).toNat
def sregX (g : Glove) (n : Nat) : Nat := (g.sreg ⟨n % 32, by omega⟩).toNat

/-- The arrays that an instruction uses: base, bytes, and whether R389 places it. -/
def Rec.arrays (g : Glove) (r : Rec) : List (Nat × Nat × Bool) :=
  let vox := (r.fVoxels, 32 * r.fVmax, true)
  let hash := (r.fHash, 16 * 2 ^ r.fHb, true)
  match r.op with
  | .sqz => [(r.fPoints, 0, false), (sregX g (imf r.w 4 0), 0, false)]
  | .suniq => [vox]
  | .shash => [vox, hash]
  | .slabel => [vox, hash]
  | .sbox => [vox, (r.fBoxes, 64 * r.fBoxmax, true)]
  | .soct => [vox, (r.fOctree, 16, true)]
  | .snear => [vox, hash, (r.fPoints, 0, false), (sregX g (imf r.w 4 0), 0, false), (sregX g (imf r.w 4 0 + 1), 0, false)]
  | _ => []

/-- Whether an instruction reads the report at issue. -/
def usesReport (op : TOp) : Bool :=
  match op with
  | .shash | .slabel | .sbox | .soct | .snear => true
  | _ => false

/-- The chunk entry of FRB at f (R165). -/
def chunkAddr (f c : Nat) : Nat := f + 0x200 + 64 * c

/-! ### Numbers -/

/-- Bits lo, lo + 3, … of a code: n of them, as one axis. -/
def unspread (k lo : Nat) : Nat → Nat → Nat
  | _, 0 => 0
  | i, n + 1 => b2n (k.testBit (lo + 3 * i)) * 2 ^ i + unspread k lo (i + 1) n
/-- One axis of coordinates at bits lo, lo + 3, … -/
def spread (q lo : Nat) : Nat → Nat → Nat
  | _, 0 => 0
  | i, n + 1 => b2n (q.testBit i) * 2 ^ (lo + 3 * i) + spread q lo (i + 1) n
/-- The Morton code of coordinates (R162). -/
def morton (x y z : Nat) : Nat := spread x 0 0 16 + spread y 1 0 16 + spread z 2 0 16

/-- The key of an invalid record. -/
def keyNone : Nat := 2 ^ 48 - 1

/-- p × 2^-FRAC of an int16 coordinate, as fp32 (exact). -/
def int16Coord (frac v : Nat) : Nat := let i := sgn 16 v; fp32.encode (.fin (i < 0) i.natAbs (-(frac : Int)))

/-- The three fp32 coordinates of point data, and its intensity (R160). -/
def pointOf (pfmt frac v : Nat) : (Nat × Nat × Nat) × Nat :=
  if pfmt = 0 then ((v % 2 ^ 32, (v >>> 32) % 2 ^ 32, (v >>> 64) % 2 ^ 32), (v >>> 96) % 2 ^ 16)
  else ((int16Coord frac (v % 2 ^ 16), int16Coord frac (v >>> 16), int16Coord frac (v >>> 32)), (v >>> 48) % 2 ^ 16)

/-- Bytes of a point. -/
def pointSize (pfmt : Nat) : Nat := if pfmt = 0 then 16 else 8

/-- q of one axis (R161); none: outside the grid. -/
def quantAxis (p origin edge : Nat) : Option Nat :=
  match fp32.decode (fp32.divB (fp32.subB p origin) edge) with
  | .fin n m e =>
    let q := Dy.floor (FV.dy (.fin n m e))
    if 0 ≤ q ∧ q ≤ 65534 then some q.toNat else none
  | _ => none

/-- The level-0 voxel coordinates of a point; none outside the grid. -/
def Rec.quant (r : Rec) (p : Nat × Nat × Nat) : Option (Nat × Nat × Nat) :=
  match quantAxis p.1 (r.fOrigin 0) r.fEdge, quantAxis p.2.1 (r.fOrigin 1) r.fEdge, quantAxis p.2.2 (r.fOrigin 2) r.fEdge with
  | some x, some y, some z => some (x, y, z)
  | _, _, _ => none

/-! ### Preparation -/

/-- The extra words that an instruction forms before its first row step: LEVEL, the VFIRST of its chunk, for `suniq`; the
first node of its depth, and of the child depth with its count, for `soct`. `suniq` also writes the report (R167). -/
def suniqPrep (s : State) (gl : GloveRef) (r : Rec) : Res (State × List Nat) :=
  let f := frbAddr (s.glv gl) r.w
  let vcount (l : Nat) : Nat := ((List.range r.fNch).map (r.chunkCnt l)).sum
  let lv := ((List.range (r.fLmax + 1)).find? fun l => vcount l ≤ r.fCap).getD r.fLmax
  let flags := b2n (0 < lv) + 2 * b2n (decide (r.fCap < vcount lv)) + 4 * b2n (decide (r.fVmax < vcount lv))
  let vfirst := ((List.range (imf r.w 5 0)).map (r.chunkCnt lv)).sum
  let rep := (List.range 5).map (vcount ·)
  (s.gloveWrite gl (f + 0x80) ((rep.map (toBytes 4 ·)).flatten ++ [BitVec.ofNat 8 lv, BitVec.ofNat 8 flags])).bind fun s1 =>
    (s1.gloveWrite gl (f + 0x98) (toBytes 4 (vcount 5) ++ toBytes 4 (min (vcount lv) r.fVmax))).bind fun s2 =>
      .ok (s2, [lv, vfirst])

/-- The depth of `soct`, and whether it is the finest. -/
def soctD (w : JFields) : Nat := imf w 3 0
def Rec.finest (r : Rec) : Bool := soctD r.w + r.fLevel == 15

def soctPrep (s : State) (gl : GloveRef) (r : Rec) : Res (State × List Nat) :=
  let g := s.glv gl
  let f := frbAddr g r.w
  let d := soctD r.w
  (if r.finest then Res.ok (r.fNvox * 2 ^ 32, s) else s.sRead gl (f + 0x100 + 8 * (d + 1)) 8).bind fun y =>
    let cFirst := y.1 % 2 ^ 32
    let cCount := y.1 / 2 ^ 32
    if firstItem g r.w = 0 then
      let first := if r.finest then 0 else (cFirst + cCount) % 2 ^ 32
      (y.2.sWrite gl (f + 0x100 + 8 * d) 4 first).bind fun t => .ok (t, [first, cFirst, cCount])
    else (y.2.sRead gl (f + 0x100 + 8 * d) 4).bind fun z => .ok (z.2, [z.1, cFirst, cCount])

/-- EDGE_L as an exact value (R171). -/
def Rec.edgeL (r : Rec) : FV := FV.mul (fp32.decode r.fEdge) (.fin false 1 (r.fLevel : Int))

/-- Whether the radius of `snear.r` is in range (R173). -/
def radiusOk (g : Glove) (r : Rec) : Bool :=
  if imb r.w 9 then
    let v := sregX g (imf r.w 4 0 + 2) % 2 ^ 32
    decide (0 < v) && decide (v < 0x7F800000) && FV.cmp (fp32.decode v) r.edgeL != .gt
  else true

/-- How many chunk entries an instruction uses, from entry 0 on, and how many bytes of each (R166-R168, R173). -/
def chunkReads (r : Rec) : Nat × Nat :=
  match r.op with
  | .suniqCnt => (imf r.w 5 0 + 1, 12)
  | .suniq => (r.fNch, 40)
  | .snear => (r.fNch, 12)
  | _ => (0, 0)

/-- Whether the record array of a chunk that an instruction uses is misaligned (R158, log 36). -/
def chunkBad (r : Rec) : Bool :=
  (List.range (if r.op = .snear then r.fNch else imf r.w 5 0 + 1)).any fun c => (r.chunk c).2 != 0 && (r.chunk c).1 % 256 != 0

/-- What an instruction reads and checks before its first row step: SPATIAL_PARAM, or ILLEGAL_OP for a chunk that does not
exist (R158, R159, R175, R389). -/
def spatialPrep (s : State) (gl : GloveRef) (r : Rec) : Res (State × Rec) :=
  let g := s.glv gl
  let f := frbAddr g r.w
  match r.op with
  | .shist => if frbAddr g r.w % 256 = 0 then .ok (s, { r with ds := [0] }) else .fault fcSpatial
  | .sdist => if frbAddr g r.w % 256 = 0 ∧ firstItem g r.w % 256 = 0 then .ok (s, { r with ds := [0] }) else .fault fcSpatial
  | .spfx => .ok (s, { r with ds := [0] })
  | _ =>
    if !s.accMem f 4608 then .fault fcSpatial
    else (s.sRead gl f 128).bind fun y =>
      let r1 := { r with ds := [BitVec.ofNat 512 y.1, BitVec.ofNat 512 (y.1 >>> 512), 0, 0] }
      if !r1.headerOk then .fault fcSpatial
      else if (r.op = .suniq ∨ r.op = .suniqCnt) ∧ r1.fNch ≤ imf r.w 5 0 then .fault fcIllegal
      else if (r1.arrays g).any (fun x => x.1 % 256 != 0 || (x.2.2 && !s.accMem x.1 x.2.1)) then .fault fcSpatial
      else (if usesReport r.op then y.2.sRead gl (f + 0x80) 64 else .ok (0, y.2)).bind fun z =>
        (mapItems (fun t c => t.sRead gl (chunkAddr f c) (chunkReads r1).2) z.2 (List.range (chunkReads r1).1)).bind fun e =>
          let r2 := { r1 with ds := (r1.ds.take 2) ++ [BitVec.ofNat 512 z.1, 0] ++ e.1.map (BitVec.ofNat 512) }
          if (chunkReads r1).1 ≠ 0 ∧ chunkBad r2 then .fault fcSpatial
          else if r.op = .snear ∧ !radiusOk g r2 then .fault fcSpatial
          else (match r.op with
            | .suniq => suniqPrep e.2 gl r2
            | .soct => soctPrep e.2 gl r2
            | _ => .ok (e.2, [])).bind fun x =>
              .ok (x.1, { r2 with ds := r2.ds.set 3 (BitVec.ofNat 512 (digits 32 (fun i => x.2[i]?.getD 0) 0 4)) })

/-- Row steps per row (R176). -/
def spatialPasses (op : TOp) (w : JFields) : Nat :=
  match op with
  | .slabel => 3
  | .sbox => if imf w 1 0 = 1 then 2 else 1
  | .snear => 4
  | _ => 1

/-- Items of row i, from FIRST on, below a count. -/
def itemsOf (first perRow i count : Nat) : List Nat :=
  ((List.range perRow).map fun j => first + i * perRow + j).filter (· < count)

/-- The row and the step of a spatial record. -/
def Rec.spRow (r : Rec) : Nat := r.row / spatialPasses r.op r.w
def Rec.spStep (r : Rec) : Nat := r.row % spatialPasses r.op r.w

/-- The running value S[d], and its update as a row completes (R158). -/
def runVal (g : Glove) (w : JFields) : Word := g.sreg (sNum w.d)
def State.setRun (s : State) (gl : GloveRef) (w : JFields) (v : Word) : State := s.modGlv gl fun g => g.setS (sNum w.d) v

/-- Data that a row holds between its steps. -/
def State.setRows (s : State) (gl : GloveRef) (l : List Nat) : State := s.modGlv gl fun g => { g with spatialRows := l }

/-! ### sqz, shist, spfx, sdist (R161-R163) -/

/-- The record of point i (R162). -/
def sqzItem (gl : GloveRef) (r : Rec) (out : Nat) (s : State) (i : Nat) : Res State :=
  let size := pointSize r.fPfmt
  if r.fNpts ≤ i then s.sWrite gl (out + 16 * i) 16 (keyNone + 0xFFFFFFFF * 2 ^ 64)
  else (s.sRead gl (r.fPoints + i * size) size).bind fun y =>
    let p := pointOf r.fPfmt r.fFrac y.1
    let key := match r.quant p.1 with
      | some q => morton q.1 q.2.1 q.2.2
      | none => keyNone
    y.2.sWrite gl (out + 16 * i) 16 (key + p.2 * 2 ^ 48 + i * 2 ^ 64)

def stepSqz (s : State) (gl : GloveRef) (r : Rec) : Res State :=
  let g := s.glv gl
  let n := if r.fPfmt = 0 then 16 else 32
  overItems (sqzItem gl r (sregX g (imf r.w 4 0))) s ((List.range n).map fun j => firstItem g r.w + r.spRow * n + j)

/-- The digit of a key (R163). -/
def digitOf (digit split key : Nat) : Nat := if digit = 8 then b2n (decide (split ≤ key)) else (key >>> (6 * digit)) % 64

/-- The keys of the 16 records of a row. -/
def rowRecords (s : State) (gl : GloveRef) (base row : Nat) : Res (List Nat × State) :=
  mapItems (fun t j => t.sRead gl (base + 256 * row + 16 * j) 16) s (List.range 16)

def stepShist (s : State) (gl : GloveRef) (r : Rec) : Res State :=
  let g := s.glv gl
  let drow := imf r.w 21 16
  (rowRecords s gl (frbAddr g r.w) r.spRow).bind fun y =>
    let ds := y.1.map fun v => digitOf (imf r.w 3 0) (firstItem g r.w) (v % 2 ^ 48)
    let old := if r.spRow = 0 ∧ !imb r.w 4 then 0 else (y.2.glv gl).destRowOf r.w drow
    let new := rowOf 32 fun j => elt old 32 j + (ds.filter (· == j)).length
    .ok (y.2.modGlv gl fun g => g.putRow r.w.d (row64 drow) new)

/-- The exclusive prefix sums of the 64 elements of a row. -/
def prefixRow (x : Row) : Row := rowOf 32 fun j => ((List.range j).map (elt x 32)).sum

/-- Place records one after another: the offsets grow. -/
def sdistItems (gl : GloveRef) (w : JFields) (out split : Nat) : State → Row → List Nat → Res (State × Row)
  | s, offs, [] => .ok (s, offs)
  | s, offs, v :: l =>
    let d := digitOf (imf w 3 0) split (v % 2 ^ 48)
    (s.sWrite gl (out + 16 * elt offs 32 d) 16 v).bind fun t =>
      sdistItems gl w out split t (rowOf 32 fun j => if j = d then elt offs 32 j + 1 else elt offs 32 j) l

def stepSdist (s : State) (gl : GloveRef) (r : Rec) : Res State :=
  let g := s.glv gl
  let orow := imf r.w 21 16
  (rowRecords s gl (frbAddr g r.w) r.spRow).bind fun y =>
    (sdistItems gl r.w (firstItem g r.w) (sregX g (imf r.w 9 5)) y.2 ((y.2.glv gl).destRowOf r.w orow) y.1).bind fun z =>
      let runs := (y.1.map fun v => digitOf (imf r.w 3 0) (sregX g (imf r.w 9 5)) (v % 2 ^ 48)).eraseDups.length
      .ok ((z.1.modGlv gl fun g => g.putRow r.w.d (row64 orow) z.2).addWork gl.e 3 runs)

/-! ### suniq (R165-R168) -/

/-- Binary search for the number of valid records among the first hi of a chunk, lo of which are known to be valid. -/
def validCount (gl : GloveRef) (base : Nat) : Nat → State → Nat → Nat → Res (Nat × State)
  | 0, s, lo, _ => .ok (lo, s)
  | k + 1, s, lo, hi =>
    if hi ≤ lo then .ok (lo, s)
    else
      let m := (lo + hi) / 2
      (s.sRead gl (base + 16 * m) 8).bind fun y =>
        if y.1 % 2 ^ 48 = keyNone then validCount gl base k y.2 lo m else validCount gl base k y.2 (m + 1) hi

/-- The key of the last valid record of chunks c, c − 1, …; none when they hold none. -/
def lastValid (gl : GloveRef) (r : Rec) : Nat → State → Res (Option Nat × State)
  | 0, s => .ok (none, s)
  | c + 1, s =>
    (validCount gl (r.chunk c).1 33 s 0 (r.chunk c).2).bind fun z =>
      if z.1 = 0 then lastValid gl r c z.2
      else (z.2.sRead gl ((r.chunk c).1 + 16 * (z.1 - 1)) 8).bind fun k => .ok (some (k.1 % 2 ^ 48), k.2)

/-- The preceding valid record of record `i` of chunk c at a window start (R166). -/
def prevKey (s : State) (gl : GloveRef) (r : Rec) (c i : Nat) : Res (Option Nat × State) :=
  if i = 0 then lastValid gl r c s
  else (validCount gl (r.chunk c).1 33 s 0 i).bind fun z =>
    if z.1 = 0 then lastValid gl r c z.2
    else (z.2.sRead gl ((r.chunk c).1 + 16 * (z.1 - 1)) 8).bind fun k => .ok (some (k.1 % 2 ^ 48), k.2)

/-- The preceding key that a row carries to the next: 2^48 stands for none. -/
def carryKey (p : Option Nat) : Nat := p.getD (2 ^ 48)
def carried (g : Glove) : Option Nat :=
  match g.spatialRows with
  | k :: _ => if k = 2 ^ 48 then none else some k
  | [] => none

/-- The preceding key of a row: carried, or found at a window start. -/
def rowPrev (s : State) (gl : GloveRef) (r : Rec) (c i : Nat) : Res (Option Nat × State) :=
  if (s.glv gl).spatialRows.isEmpty then prevKey s gl r c i else .ok (carried (s.glv gl), s)

/-- Whether two keys differ at level L; no preceding key differs at every level. -/
def differsAt (l : Nat) (p : Option Nat) (k : Nat) : Bool :=
  match p with
  | some q => q >>> (3 * l) != k >>> (3 * l)
  | none => true

/-- The counts of a row of records: new codes at each level, OUT, VOID; and the last valid key. -/
def countRow : List Nat → Option Nat → List Nat → Nat → Nat → List Nat × Nat × Nat × Option Nat
  | [], p, cs, o, v => (cs, o, v, p)
  | x :: l, p, cs, o, v =>
    let k := x % 2 ^ 48
    if k = keyNone then
      if (x >>> 64) % 2 ^ 32 = 0xFFFFFFFF then countRow l p cs o (v + 1) else countRow l p cs (o + 1) v
    else countRow l (some k) ((cs.zip (List.range 5)).map fun y => y.1 + b2n (differsAt y.2 p k)) o v

def stepSuniqCnt (s : State) (gl : GloveRef) (r : Rec) : Res State :=
  let g := s.glv gl
  let f := frbAddr g r.w
  let c := imf r.w 5 0
  let is := itemsOf (firstItem g r.w) 16 r.spRow (r.chunk c).2
  match is with
  | [] => .ok s
  | i :: _ =>
    (rowPrev s gl r c i).bind fun p =>
      (mapItems (fun t j => t.sRead gl ((r.chunk c).1 + 16 * j) 16) p.2 is).bind fun z =>
        let n := countRow z.1 p.1 [0, 0, 0, 0, 0] 0 0
        let t := z.2.setRows gl [carryKey n.2.2.2]
        overItems (fun t x => t.sAdd gl (chunkAddr f c + 0x10 + 4 * x.2) x.1) t
          ((n.1 ++ [n.2.1, n.2.2.1]).zip (List.range 7))

/-- The voxel record of R168 but NPTS: VKEY, RREF, coordinates, LABEL, BOX. -/
def voxelLow (lv key c off : Nat) : Nat := (key >>> (3 * lv)) + lv * 2 ^ 48 + ((c * 2 ^ 20) ||| off) % 2 ^ 32 * 2 ^ 64
def voxelHigh (lv key v : Nat) : Nat :=
  let q (lo : Nat) : Nat := unspread (key >>> (3 * lv)) lo 0 16
  q 0 + q 1 * 2 ^ 16 + q 2 * 2 ^ 32 + v % 2 ^ 32 * 2 ^ 64 + 0xFFFFFFFF * 2 ^ 96

/-- One valid record of an emit row: the running value and the preceding key go on. -/
def emitItems (gl : GloveRef) (r : Rec) (f c lv : Nat) : State → Word → Option Nat → List (Nat × Nat) → Res (State × Word × Option Nat)
  | s, run, p, [] => .ok (s, run, p)
  | s, run, p, (off, x) :: l =>
    let k := x % 2 ^ 48
    if k = keyNone then emitItems gl r f c lv s run p l
    else
      let new := differsAt lv p k
      let v := if new then run.toNat else (run - 1).toNat
      let run' := if new then run + 1 else run
      let a := r.fVoxels + 32 * v
      (if v < r.fVmax then
        (if new then (s.sWrite gl a 12 (voxelLow lv k c off)).bind fun t => t.sWrite gl (a + 0x10) 16 (voxelHigh lv k v)
          else .ok s).bind fun t => t.sAdd gl (a + 0xC) 1
      else s.sAdd gl (f + 0xA0) 1).bind fun t => emitItems gl r f c lv t run' (some k) l

def stepSuniq (s : State) (gl : GloveRef) (r : Rec) : Res State :=
  let g := s.glv gl
  let f := frbAddr g r.w
  let c := imf r.w 5 0
  (if firstItem g r.w = 0 ∧ r.spRow = 0 then
    (s.sWrite gl (chunkAddr f c + 0xC) 4 (r.xf 1)).bind fun t => .ok (t.setRun gl r.w (BitVec.ofNat 64 (r.xf 1)))
  else .ok s).bind fun s1 =>
    let is := itemsOf (firstItem g r.w) 16 r.spRow (r.chunk c).2
    match is with
    | [] => .ok s1
    | i :: _ =>
      (rowPrev s1 gl r c i).bind fun p =>
        (mapItems (fun t j => t.sRead gl ((r.chunk c).1 + 16 * j) 16) p.2 is).bind fun z =>
          let run := runVal (z.2.glv gl) r.w
          (emitItems gl r f c (r.xf 0) z.2 run p.1 (is.zip z.1)).bind fun e =>
            .ok (((e.1.setRun gl r.w e.2.1).setRows gl [carryKey e.2.2]).addWork gl.e 3 (e.2.1 - run).toNat)

/-! ### The neighbour hash (R169) -/

/-- Home bucket of a VKEY. -/
def homeBucket (hb vkey : Nat) : Nat := (vkey * 0x9E3779B97F4A7C15 % 2 ^ 64) >>> (66 - hb)

/-- The addresses of the 16 entries that a probe takes, in order. -/
def probeAddrs (hash hb vkey : Nat) : List Nat :=
  (List.range 16).map fun i => hash + 64 * ((homeBucket hb vkey + i / 4) % 2 ^ (hb - 2)) + 16 * (i % 4)

/-- What a probe ends at. -/
inductive Probe
  | found (vidx : Nat)
  | empty (addr : Nat)
  | full
  deriving DecidableEq, Repr

/-- Probe entries in order. -/
def probe (gl : GloveRef) (vkey : Nat) : State → List Nat → Res (Probe × State)
  | s, [] => .ok (.full, s)
  | s, a :: l => (s.sRead gl a 16).bind fun y =>
    let vidx := (y.1 >>> 64) % 2 ^ 32
    if vidx = 0xFFFFFFFF then .ok (.empty a, y.2)
    else if y.1 % 2 ^ 64 = vkey then .ok (.found vidx, y.2)
    else probe gl vkey y.2 l

/-- A lookup: the voxel index, or none. -/
def lookup (s : State) (gl : GloveRef) (r : Rec) (vkey : Nat) : Res (Option Nat × State) :=
  (probe gl vkey s (probeAddrs r.fHash r.fHb vkey)).bind fun y => .ok (match y.1 with
    | .found v => some v
    | _ => none, y.2)

/-- Insert voxel v. -/
def shashItem (gl : GloveRef) (r : Rec) (s : State) (v : Nat) : Res State :=
  (s.sRead gl (r.fVoxels + 32 * v) 8).bind fun k =>
    (probe gl k.1 k.2 (probeAddrs r.fHash r.fHb k.1)).bind fun y =>
      match y.1 with
      | .found _ => .ok y.2
      | .empty a => y.2.sWrite gl a 12 (k.1 + v * 2 ^ 64)
      | .full => .fault fcHashFull

def stepShash (s : State) (gl : GloveRef) (r : Rec) : Res State :=
  overItems (shashItem gl r) s (itemsOf (firstItem (s.glv gl) r.w) 8 r.spRow r.fNvox)

/-! ### slabel (R170) -/

/-- Voxel coordinates plus an offset of −1, 0 or 1 each; none outside the grid at LEVEL. -/
def neighbour (lv : Nat) (x y z : Nat) (o : Nat × Nat × Nat) : Option Nat :=
  let ax (q d : Nat) : Option Nat := if q + d < 1 ∨ 65534 >>> lv < q + d - 1 then none else some (q + d - 1)
  match ax x o.1, ax y o.2.1, ax z o.2.2 with
  | some a, some b, some c => some (morton a b c + lv * 2 ^ 48)
  | _, _, _ => none

/-- The offsets of a 3 × 3 × 3 block plus 1, in ascending z, then y, then x. -/
def blockOffsets : List (Nat × Nat × Nat) := (List.range 27).map fun i => (i % 3, i / 3 % 3, i / 9)

/-- Look up one neighbour and take its LABEL into a minimum. -/
def labelNeighbours (gl : GloveRef) (r : Rec) (x y z : Nat) : State → Nat → List (Nat × Nat × Nat) → Res (Nat × State)
  | s, m, [] => .ok (m, s)
  | s, m, o :: l =>
    match neighbour r.fLevel x y z o with
    | none => labelNeighbours gl r x y z s m l
    | some k => (lookup s gl r k).bind fun f =>
      match f.1 with
      | none => labelNeighbours gl r x y z f.2 m l
      | some n => (f.2.sRead gl (r.fVoxels + 32 * n + 0x18) 4).bind fun q => labelNeighbours gl r x y z q.2 (min m q.1) l

/-- The three steps of `slabel`; a row holds its minimum and LABEL[v]. -/
def stepSlabel (s : State) (gl : GloveRef) (r : Rec) : Res State :=
  let g := s.glv gl
  let v := firstItem g r.w + r.spRow
  let m := g.spatialRows[0]?.getD 0
  let own := g.spatialRows[1]?.getD 0
  if r.fNvox ≤ v then .ok s
  else match r.spStep with
    | 0 => (s.sRead gl (r.fVoxels + 32 * v) 28).bind fun y =>
        let k := y.1 % 2 ^ 48
        let lab := (y.1 >>> 192) % 2 ^ 32
        (labelNeighbours gl r (unspread k 0 0 16) (unspread k 1 0 16) (unspread k 2 0 16) y.2 lab
          (blockOffsets.filter (· != (1, 1, 1)))).bind fun z => .ok (z.2.setRows gl [z.1, lab])
    | 1 => (s.sRead gl (r.fVoxels + 32 * m + 0x18) 4).bind fun y => .ok (y.2.setRows gl [min m y.1, own])
    | _ =>
      if m < own then
        (s.gloveUpdate gl (r.fVoxels + 32 * v + 0x18) 1 1 m).bind fun t => .ok (t.setRun gl r.w (runVal (t.glv gl) r.w + 1))
      else .ok s

/-! ### sbox (R171) -/

/-- A box record of phase 0: QMIN all ones, ROOT v, FLAGS; the rest zero. -/
def boxRecord (v merged : Nat) : Nat := (2 ^ 96 - 1) + v % 2 ^ 32 * 2 ^ 448 + merged * 2 ^ 488

/-- Phase 0 on one voxel. -/
def sboxRoot (gl : GloveRef) (r : Rec) (s : State) (v : Nat) : Res State :=
  let a := r.fVoxels + 32 * v
  (s.sRead gl (a + 0x18) 4).bind fun y =>
    if y.1 ≠ v then .ok y.2
    else
      let run := runVal (y.2.glv gl) r.w
      let b := min run.toNat (r.fBoxmax - 1)
      (y.2.sWrite gl (a + 0x1C) 4 b).bind fun t =>
        (if run.toNat < r.fBoxmax then t.sWrite gl (r.fBoxes + 64 * b) 64 (boxRecord v 0) else .ok t).bind fun u =>
          .ok (u.setRun gl r.w (run + 1))

/-- The end of a phase 0 row: NCOMP, NBOX, and MERGED once S[d] exceeds BOXMAX. -/
def sboxRowEnd (s : State) (gl : GloveRef) (r : Rec) : Res State :=
  let f := frbAddr (s.glv gl) r.w
  let n := (runVal (s.glv gl) r.w).toNat
  (s.gloveWrite gl (f + 0xA4) (toBytes 4 n ++ toBytes 4 (min n r.fBoxmax))).bind fun t =>
    if r.fBoxmax < n then
      (t.sWrite gl (f + 0x95) 1 (r.fFlags ||| 8)).bind fun u => u.sWrite gl (r.fBoxes + 64 * (r.fBoxmax - 1) + 0x3D) 1 1
    else .ok t

/-- Phase 1, reads: the box of a voxel and the voxel's coordinates and NPTS, as six numbers. -/
def foldRead (gl : GloveRef) (r : Rec) (s : State) (v : Nat) : Res (List Nat × State) :=
  (s.sRead gl (r.fVoxels + 32 * v) 32).bind fun y =>
    let lab := (y.1 >>> 192) % 2 ^ 32
    (y.2.sRead gl (r.fVoxels + 32 * lab + 0x1C) 4).bind fun b =>
      .ok ([b.1, (y.1 >>> 128) % 2 ^ 16, (y.1 >>> 144) % 2 ^ 16, (y.1 >>> 160) % 2 ^ 16, (y.1 >>> 96) % 2 ^ 32], b.2)

/-- Phase 1, updates of one box. -/
def foldWrite (gl : GloveRef) (r : Rec) (s : State) (x : List Nat) : Res State :=
  let a := r.fBoxes + 64 * x[0]?.getD 0
  let q (i : Nat) : Nat := x[i + 1]?.getD 0
  (overItems (fun t i => (t.gloveUpdate gl (a + 4 * i) 1 1 (q i)).bind fun u =>
      u.gloveUpdate gl (a + 0xC + 4 * i) 2 1 (q i)) s (List.range 3)).bind fun t =>
    (t.sAdd gl (a + 0x18) (q 3)).bind fun u => u.sAdd gl (a + 0x1C) 1

/-- A list cut into pieces of five. -/
def fives : Nat → List Nat → List (List Nat)
  | 0, _ => []
  | _, [] => []
  | n + 1, l => l.take 5 :: fives n (l.drop 5)

/-- fma(q, EDGE_L, ORIGIN) rounded once to fp32. -/
def Rec.boxCoord (r : Rec) (q a : Nat) : Nat :=
  fp32.encode (FV.add (FV.mul (.fin false q 0) r.edgeL) (fp32.decode (r.fOrigin a)))

/-- Phase 2 on one box. -/
def boxFinish (gl : GloveRef) (r : Rec) (s : State) (b : Nat) : Res State :=
  let a := r.fBoxes + 64 * b
  (s.sRead gl a 24).bind fun y =>
    let q (i : Nat) : Nat := (y.1 >>> (32 * i)) % 2 ^ 32
    let lo := (List.range 3).map fun i => toBytes 4 (r.boxCoord (q i) i)
    let hi := (List.range 3).map fun i => toBytes 4 (r.boxCoord (q (3 + i) + 1) i)
    (y.2.gloveWrite gl (a + 0x20) (lo.flatten ++ hi.flatten)).bind fun t => t.sWrite gl (a + 0x3C) 1 r.fLevel

def stepSbox (s : State) (gl : GloveRef) (r : Rec) : Res State :=
  let first := firstItem (s.glv gl) r.w
  let vox := itemsOf first 8 r.spRow r.fNvox
  match imf r.w 1 0 with
  | 0 => (overItems (sboxRoot gl r) s vox).bind fun t => sboxRowEnd t gl r
  | 1 =>
    if r.spStep = 0 then (mapItems (foldRead gl r) s vox).bind fun y => .ok (y.2.setRows gl y.1.flatten)
    else overItems (foldWrite gl r) s (fives 8 (s.glv gl).spatialRows)
  | _ => overItems (boxFinish gl r) s (itemsOf first 4 r.spRow r.fNbox)

/-! ### soct (R172) -/

/-- The code and NPTS of a child. -/
def readChild (gl : GloveRef) (r : Rec) (s : State) (i : Nat) : Res ((Nat × Nat) × State) :=
  if r.finest then (s.sRead gl (r.fVoxels + 32 * i) 16).bind fun y => .ok ((y.1 % 2 ^ 48, y.1 >>> 96), y.2)
  else (s.sRead gl (r.fOctree + 16 * (r.xf 1 + i)) 16).bind fun y => .ok ((y.1 % 2 ^ 48, y.1 >>> 96), y.2)

/-- Children one after another: index, code, NPTS; the preceding child's code. -/
def octItems (gl : GloveRef) (r : Rec) : State → Word → Option Nat → List (Nat × Nat × Nat) → Res (State × Word)
  | s, run, _, [] => .ok (s, run)
  | s, run, p, (i, code, npts) :: l =>
    let new := p.map (· >>> 3) != some (code >>> 3)
    let v := if new then run.toNat else (run - 1).toNat
    let a := r.fOctree + 16 * (r.xf 0 + v)
    (if new then s.sWrite gl a 12 ((code >>> 3) + soctD r.w * 2 ^ 48 + i % 2 ^ 32 * 2 ^ 64) else .ok s).bind fun t =>
      (t.gloveUpdate gl a 4 6 (2 ^ (52 + code % 8))).bind fun u =>
        (u.sAdd gl (a + 0xC) npts).bind fun x => octItems gl r x (if new then run + 1 else run) (some code) l

def stepSoct (s : State) (gl : GloveRef) (r : Rec) : Res State :=
  let g := s.glv gl
  let first := firstItem g r.w
  let s0 := if first = 0 ∧ r.spRow = 0 then s.setRun gl r.w 0 else s
  let is := itemsOf first (if r.finest then 8 else 16) r.spRow (r.xf 2)
  let f := frbAddr g r.w
  (match is with
    | [] => Res.ok s0
    | i :: _ =>
      (if i = 0 then Res.ok (none, s0)
        else (readChild gl r s0 (i - 1)).bind fun y => .ok (some y.1.1, y.2)).bind fun p =>
        (mapItems (readChild gl r) p.2 is).bind fun z =>
          (octItems gl r z.2 (runVal (z.2.glv gl) r.w) p.1 (is.zip z.1)).bind fun o =>
            .ok (o.1.setRun gl r.w o.2)).bind fun t =>
    t.sWrite gl (f + 0x100 + 8 * soctD r.w + 4) 4 (runVal (t.glv gl) r.w).toNat

/-! ### snear (R173) -/

/-- The candidates of one voxel: its records from its representative on, in record order, n of them at most. -/
def voxelRecords (gl : GloveRef) (r : Rec) : Nat → State → Nat → Nat → Nat → Res (List Nat × State)
  | 0, s, _, _, _ => .ok ([], s)
  | k + 1, s, c, off, n =>
    if n = 0 ∨ r.fNch ≤ c then .ok ([], s)
    else if (r.chunk c).2 ≤ off then voxelRecords gl r k s (c + 1) 0 n
    else (s.sRead gl ((r.chunk c).1 + 16 * off) 16).bind fun x =>
      if x.1 % 2 ^ 48 = keyNone then voxelRecords gl r k x.2 (c + 1) 0 n
      else (voxelRecords gl r k x.2 c (off + 1) (n - 1)).bind fun z => .ok ((x.1 >>> 64) % 2 ^ 32 :: z.1, z.2)

/-- d2 of a candidate point (R173). -/
def Rec.dist2 (q p : Nat × Nat × Nat) : Nat :=
  let dx := fp32.subB p.1 q.1
  let dy := fp32.subB p.2.1 q.2.1
  let dz := fp32.subB p.2.2 q.2.2
  fp32.fmaB dz dz (fp32.fmaB dy dy (fp32.mulB dx dx))

/-- Candidates of one voxel, with what is left of the 128. -/
def voxelCands (gl : GloveRef) (r : Rec) : State → Nat → List (Nat × Nat) → Res (List Nat × State)
  | s, _, [] => .ok ([], s)
  | s, left, (rref, npts) :: l =>
    (voxelRecords gl r (64 + min npts left) s (rref / 2 ^ 20 % 64) (rref % 2 ^ 20) (min npts left)).bind fun y =>
      (voxelCands gl r y.2 (left - min npts left) l).bind fun z => .ok (y.1 ++ z.1, z.2)

/-- Insert a (d2, INDEX) pair into an ascending list. -/
def insertPair (x : Nat × Nat) : List (Nat × Nat) → List (Nat × Nat)
  | [] => [x]
  | y :: l =>
    let o := FV.cmp (fp32.decode x.1) (fp32.decode y.1)
    if o = .lt ∨ (o = .eq ∧ x.2 < y.2) then x :: y :: l else y :: insertPair x l

/-- Pairs of a flat list. -/
def pairsOf : List Nat → List (Nat × Nat)
  | a :: b :: l => (a, b) :: pairsOf l
  | _ => []

/-- The result record of a query (R173). -/
def nearRecord (count flags : Nat) (ps : List (Nat × Nat)) : Nat :=
  let pair (i : Nat) : Nat := match ps[i]? with
    | some p => p.2 + p.1 * 2 ^ 32
    | none => 0xFFFFFFFF + 0x7F800000 * 2 ^ 32
  count + flags * 2 ^ 32 + digits 64 pair 0 16 * 2 ^ 128

/-- Query i as three fp32 coordinates. -/
def readQuery (s : State) (gl : GloveRef) (r : Rec) (i : Nat) : Res ((Nat × Nat × Nat) × State) :=
  (s.sRead gl (sregX (s.glv gl) (imf r.w 4 0) + 16 * i) 16).bind fun y => .ok ((pointOf 0 0 y.1).1, y.2)

/-- Step 1: OUTSIDE, then the voxels found. -/
def nearLookups (s : State) (gl : GloveRef) (r : Rec) (i : Nat) : Res (List Nat × State) :=
  (readQuery s gl r i).bind fun q =>
    match r.quant q.1 with
    | none => .ok ([1], q.2)
    | some v =>
      let lv := r.fLevel
      let ks := blockOffsets.filterMap (neighbour lv (v.1 >>> lv) (v.2.1 >>> lv) (v.2.2 >>> lv))
      (mapItems (fun t k => lookup t gl r k) q.2 ks).bind fun y => .ok (0 :: y.1.filterMap id, y.2)

/-- Step 2: RREF and NPTS of each voxel found. -/
def nearVoxels (gl : GloveRef) (r : Rec) (s : State) (v : Nat) : Res ((Nat × Nat) × State) :=
  (s.sRead gl (r.fVoxels + 32 * v + 8) 8).bind fun y => .ok ((y.1 % 2 ^ 32, y.1 >>> 32), y.2)

/-- Step 3: d2 and INDEX of each candidate. -/
def nearPoint (gl : GloveRef) (r : Rec) (q : Nat × Nat × Nat) (s : State) (ix : Nat) : Res ((Nat × Nat) × State) :=
  let size := pointSize r.fPfmt
  (s.sRead gl (r.fPoints + ix * size) size).bind fun y =>
    .ok ((Rec.dist2 q (pointOf r.fPfmt r.fFrac y.1).1, ix), y.2)

/-- The four steps of `snear`; a row holds its flags, and then indices, pairs or candidates. -/
def stepSnear (s : State) (gl : GloveRef) (r : Rec) : Res State :=
  let g := s.glv gl
  let i := firstItem g r.w + r.spRow
  let fl := g.spatialRows[0]?.getD 0
  let rest := g.spatialRows.drop 1
  match r.spStep with
  | 0 => (nearLookups s gl r i).bind fun y => .ok (y.2.setRows gl y.1)
  | 1 => (mapItems (nearVoxels gl r) s rest).bind fun y =>
      .ok (y.2.setRows gl (fl :: (y.1.map fun p => [p.1, p.2]).flatten))
  | 2 =>
    let vs := pairsOf rest
    let total := (vs.map (·.2)).sum
    (readQuery s gl r i).bind fun q => (voxelCands gl r q.2 128 vs).bind fun c =>
      (mapItems (nearPoint gl r q.1) c.2 c.1).bind fun y =>
        .ok (y.2.setRows gl ((fl + 2 * b2n (decide (128 < total))) :: (y.1.map fun p => [p.1, p.2]).flatten))
  | _ =>
    let all := (pairsOf rest).foldl (fun l p => insertPair p l) []
    let rad := fp32.decode (sregX g (imf r.w 4 0 + 2) % 2 ^ 32)
    let hits := if imb r.w 9 then all.filter fun p => FV.cmp (fp32.decode p.1) (FV.mul rad rad) != .gt else all
    let top := hits.take (if imb r.w 9 then 16 else imf r.w 8 5 + 1)
    let flags := b2n (fl / 2 % 2 == 1) + 2 * (fl % 2) + 4 * b2n (imb r.w 9 && decide (16 < hits.length))
    s.sWrite gl (sregX g (imf r.w 4 0 + 1) + 256 * i) 256 (nearRecord top.length flags top)

/-! ### One row step -/

/-- The step of a spatial instruction on its prepared record. -/
def spatialStep (s : State) (gl : GloveRef) (r : Rec) : Res State :=
  match r.op with
  | .sqz => stepSqz s gl r
  | .shist => stepShist s gl r
  | .sdist => stepSdist s gl r
  | .suniqCnt => stepSuniqCnt s gl r
  | .suniq => stepSuniq s gl r
  | .shash => stepShash s gl r
  | .slabel => stepSlabel s gl r
  | .sbox => stepSbox s gl r
  | .soct => stepSoct s gl r
  | _ => stepSnear s gl r

/-- One row of `spfx` (R163). -/
def rowSpfx (s : State) (gl : GloveRef) (r : Rec) : StepR :=
  match s.operandRow gl .a (reuseA r.w) r.w.a r.tileRow with
  | none => .fault s fcTileUe (some r.tileRow)
  | some (x, s1) => rowDone s1 gl r r.tileRow (prefixRow x)

/-- Whether the offset or histogram row that an instruction reads has a double-bit error. -/
def spatialBadRow (g : Glove) (r : Rec) : Bool :=
  let t := g.tileOf (clsOf r.w.d)
  (r.op == .shist || r.op == .sdist) && t.valid && bitAt t.bad (imf r.w 21 16)

/-- One row step of a memory spatial instruction. -/
def rowSpatial (s : State) (gl : GloveRef) (r : Rec) : StepR :=
  let row := some r.spRow
  if r.ds.isEmpty then
    match spatialPrep s gl r with
    | .fault c => .fault s c none
    | .stall v => .stall v
    | .ok x =>
      if spatialBadRow (x.1.glv gl) x.2 then .fault x.1 fcTileUe row
      else faultAt x.1 row (spatialStep x.1 gl x.2) fun t => giveStore t x.2 row
  else if spatialBadRow (s.glv gl) r then .fault s fcTileUe row
  else faultAt s row (spatialStep s gl r) fun t => giveStore t r row

/-- Legality of the fields of a spatial instruction (R175). -/
def spatialLegal (op : TOp) (w : JFields) : Bool :=
  let sab := (clsOf w.a).isS && (clsOf w.b).isS
  match op with
  | .sqz | .suniqCnt => sab
  | .shist => sab && (clsOf w.d).isT && decide (imf w 3 0 ≤ 8)
  | .spfx => (clsOf w.a).isT && (clsOf w.d).isT && rowsOk w
  | .sdist => sab && (clsOf w.d).isT && decide (imf w 3 0 ≤ 8)
  | .shash => sab
  | .sbox => sab && (clsOf w.d).isS && decide (imf w 1 0 < 3)
  | .snear => sab && decide (imf w 4 0 + (if imb w 9 then 2 else 1) < 32)
  | _ => sab && (clsOf w.d).isS

end Sys2Proof.Machine
end

