-- ==== Sys2Proof/Machine/RowObserve.lean ====
section
/-!
DEFINITION. Observation instructions (R272, R275): digests, marks and counter reads.
-/
namespace Sys2Proof.Machine

/-! ### Counters (R269-R271) -/

/-- The value of the counter with a code and an INST; zero for a reserved code or a unit that does not exist. -/
def State.counterVal (s : State) (code inst : Nat) : Nat :=
  let i := code % 64
  match code / 64 with
  | 0 => match s.engines[inst]? with
    | some e => ((e.counters[i]?).getD 0).toNat
    | none => 0
  | 1 => match s.wings[inst]? with
    | some w => ((w.counters[i]?).getD 0).toNat
    | none => 0
  | 2 => ((s.obs.counters[i]?).getD 0).toNat
  | _ => 0

/-! ### CRC-32C -/

/-- One bit of CRC-32C, reflected: polynomial 0x82F63B78. -/
def crcBits : Nat → Nat → Nat
  | 0, c => c
  | n + 1, c => crcBits n (if c % 2 = 1 then Nat.xor (c / 2) 0x82F63B78 else c / 2)
/-- CRC-32C of a list of bytes from a running value. -/
def crcBytes : Nat → List Byte → Nat
  | c, [] => c
  | c, b :: l => crcBytes (crcBits 8 (Nat.xor c b.toNat)) l

/-! ### The running digest (R272), as one 512-bit word -/

/-- CRC register, NANS, ELEMENTS, MIN, MAX, SUM, SUMSQ, and whether MIN and MAX hold an element. -/
structure Dig where
  crc : Nat
  nans : Nat
  elements : Nat
  min : Nat
  max : Nat
  sum : Nat
  sumsq : Nat
  any : Bool
  deriving DecidableEq, Repr

def Dig.start : Dig := ⟨0xFFFFFFFF, 0, 0, 0, 0, 0, 0, false⟩
def Dig.pack (d : Dig) : BitVec 512 :=
  BitVec.ofNat 512 (d.crc + d.nans % 2 ^ 32 * 2 ^ 32 + digits 64 (fun i => [d.elements, d.min, d.max, d.sum, d.sumsq, b2n d.any][i]?.getD 0) 0 6 * 2 ^ 64)
def Dig.unpack (w : BitVec 512) : Dig :=
  let f (i : Nat) : Nat := (w.toNat >>> (64 + 64 * i)) % 2 ^ 64
  ⟨w.toNat % 2 ^ 32, (w.toNat >>> 32) % 2 ^ 32, f 0, f 1, f 2, f 3, f 4, f 5 == 1⟩

/-- One floating-point element. -/
def Dig.addFlt (d : Dig) (v : FV) : Dig :=
  let d := { d with elements := d.elements + 1 }
  if v.isNan then { d with nans := d.nans + 1 }
  else
    let x := fp64.encode v
    { d with
      min := if d.any then fp64.minMax false d.min x else x
      max := if d.any then fp64.minMax true d.max x else x
      sum := fp64.addB d.sum x
      sumsq := fp64.addB d.sumsq (fp64.mulB x x)
      any := true }

/-- One integer element. -/
def Dig.addInt (d : Dig) (i : Int) : Dig :=
  { d with
    elements := d.elements + 1
    min := if d.any ∧ sgn 64 d.min ≤ i then d.min else unsgn 64 i
    max := if d.any ∧ i ≤ sgn 64 d.max then d.max else unsgn 64 i
    sum := unsgn 64 ((d.sum : Int) + i)
    sumsq := unsgn 64 ((d.sumsq : Int) + i * i)
    any := true }

/-- One element of a format: BYTE and E8M0 count as uint8. -/
def Dig.addElt (f : EFmt) (d : Dig) (v : Nat) : Dig :=
  match f with
  | .flt g => d.addFlt (g.decode v)
  | .int sg w => d.addInt (ival sg w v)
  | .byte => d.addInt ((v % 256 : Nat) : Int)
  | .e8m0 => d.addInt ((v % 256 : Nat) : Int)

/-- The bytes of a segment. -/
def Dig.addBytes (d : Dig) (code : Nat) (bs : List Byte) : Dig :=
  let d1 := { d with crc := crcBytes d.crc bs }
  match efmt code with
  | some f => (unpackElts f.bits bs).foldl (Dig.addElt f) d1
  | none => d1

/-- The 64-byte record of a digest (R272). -/
def digRecord (d : Dig) (time : Word) (tag eng glv ten fmt : Nat) : BitVec 512 :=
  BitVec.ofNat 512 (ofBytes (toBytes 8 time.toNat ++ toBytes 4 tag ++ toBytes 1 eng ++ toBytes 1 glv ++ toBytes 1 ten ++ toBytes 1 fmt
    ++ toBytes 8 d.elements ++ toBytes 4 (Nat.xor d.crc 0xFFFFFFFF) ++ toBytes 4 d.nans ++ toBytes 8 d.min ++ toBytes 8 d.max
    ++ toBytes 8 d.sum ++ toBytes 8 d.sumsq))

/-- Hand a record to the wing's digest engine, which holds four and drops any beyond (R268). -/
def State.handDigest (s : State) (w : WingIx) (r : BitVec 512) : State :=
  if (s.wing w).digPend.length < 4 then s.modWing w fun x => { x with digPend := x.digPend ++ [r] } else s.hallCnt hallObsDrop 1

/-- The end of a `tdig` in DIGEST mode. MIN and MAX of no element are unstated: free values (log 15). -/
def State.digestDone (s : State) (gl : GloveRef) (w : JFields) (k : Desc) (d : Dig) : State :=
  let g := s.glv gl
  let a := s.draw
  let b := a.2.draw
  let s1 := if d.any then s else b.2
  let d1 := if d.any then d else { d with min := a.1.toNat, max := b.1.toNat }
  s1.handDigest (wingOf gl.e)
    (digRecord d1 s.hearth.time ((g.sreg (sNum w.b)).toNat % 2 ^ 32) gl.e.val gl.g.val g.tenant.val (Desc.fmt k))

/-- One row step of `tdig` (R272, R275): aux is 1 in DIGEST mode and 2 in WATCH mode, fixed at the first row step. -/
def rowTdig (s : State) (gl : GloveRef) (r : Rec) : StepR :=
  let w := wingOf gl.e
  let mode := if r.aux ≠ 0 then r.aux else if (s.wing w).dig then 1 else 2
  let s0 := if r.aux = 0 ∧ mode = 2 then s.wingCnt w 11 1 else s
  let r0 := { r with aux := mode, ds := if r.ds.length < 2 then [r.desc, Dig.start.pack] else r.ds }
  let g := s0.glv gl
  let o := g.origin r.w.a
  let row := some r.row
  let finish (t : State) (d : Dig) : StepR :=
    let u := if mode = 1 ∧ r.row + 1 = r.rows then t.digestDone gl r.w r.desc d else t
    .ok u { r0.next with ds := [r.desc, d.pack] }
  let d := Dig.unpack r0.desc2
  match Desc.seg r.desc (originOuter o + r.row) (originInner o) (rowElts (Desc.fmt r.desc)) with
  | none => finish s0 d
  | some x =>
    faultAt s0 row (x.check g.align) fun a =>
      if mode = 2 then faultAt s0 row (s0.glovePath gl a x.extent .r) fun _ => finish s0 d
      else faultAt s0 row (s0.gloveRead gl a x.extent) fun y =>
        if y.2.1 then .fault y.2.2 fcPoison row else finish y.2.2 (d.addBytes (Desc.fmt r.desc) y.1)

/-! ### tmark and cread -/

/-- The MARK record of `tmark` (R264, R275). -/
def State.markEffect (s : State) (gl : GloveRef) (w : JFields) : State :=
  let g := s.glv gl
  s.trace (engChan gl.e) true true (some g.tenant) (0x10 + imf w 2 0) gl.g.val (g.sreg (sNum w.b))

/-- The value that `cread` returns (R275). -/
def State.creadVal (s : State) (w : JFields) : Word :=
  if bitAt s.obs.ctl 10 then BitVec.ofNat 64 (s.counterVal (imf w 7 0) (imf w 11 8)) else 0

/-- `cread` writes its destination. -/
def State.creadEffect (s : State) (gl : GloveRef) (w : JFields) : State :=
  s.modGlv gl fun g => g.setS (sNum w.d) (s.creadVal w)

/-- Legality of the observation instructions. -/
def observeLegal (op : TOp) (w : JFields) : Bool :=
  match op with
  | .tmark => (clsOf w.b).isS
  | .tdig => (clsOf w.a).isS && (clsOf w.b).isS
  | _ => (clsOf w.d).isS

end Sys2Proof.Machine
end

