-- ==== Sys2Proof/Machine/Inflight.lean ====
section
/-!
DEFINITION. Tile instructions in flight (R59-R65): register hazards, the checks before the first row step, the units and
their row steps, responses, completion, and faults with the abort of a launch (R90-R93).
-/
namespace Sys2Proof.Machine

/-! ### Registers that a tile instruction reads and writes (R62) -/

def tD (n : Nat) : List RegId := [.d (dNum n)]
def tP (n : Nat) : List RegId := [.p (pNum n)]
def tM (n : Nat) : List RegId := [.m ⟨n % 8, by omega⟩]
def tS (n : Nat) : List RegId := if n % 32 = 0 then [] else [.s ⟨n % 32, by omega⟩]

/-- SLINK of D[k], where an instruction follows it. -/
def slinkOf (g : Glove) (k : Nat) : Nat := Desc.slink g.d[(dNum k).val]

/-- The registers that an instruction reads. -/
def readsOf (g : Glove) (op : TOp) (w : JFields) : List RegId :=
  let a := regOf w.a
  let b := regOf w.b
  let d := regOf w.d
  match op with
  | .ld | .ldAcc => a ++ tD (imf w 3 0)
  | .st => a ++ b ++ tD (imf w 3 0)
  | .stAcc => a ++ b ++ tD (imf w 3 0) ++ tD (slinkOf g (imf w 3 0))
  | .relay => a ++ tD (imf w 3 0) ++ tD (imf w 7 4)
  | .dld | .sld => a
  | .dst => a ++ tD (imf w 3 0)
  | .sst => a ++ b
  | .perm => a ++ (if flag53 w then b else []) ++ (if flag52 w then [] else tP (imf w 2 0))
  | .pmix => a ++ b ++ tP (imf w 2 0) ++ tP (imf w 5 3) ++ tM (imf w 8 6)
  | .brev | .trn | .pcompt => a
  | .pgat => a ++ b
  | .pcomp => if flag52 w then [] else a
  | .gath => a ++ tD (imf w 3 0)
  | .scat => a ++ b ++ tD (imf w 3 0)
  | .exch => a ++ b ++ tD (imf w 3 0) ++ tD (imf w 7 4)
  | .mma => a ++ b ++ (if flag52 w then [] else d)
  | .mmas => a ++ b ++ (if flag52 w then [] else d) ++ tD (imf w 9 6) ++ tD (imf w 13 10)
      ++ tD (slinkOf g (imf w 9 6)) ++ tD (slinkOf g (imf w 13 10)) ++ tS (mmasX w) ++ tS (mmasX w + 1)
  | .vfma => a ++ b ++ d ++ (if flag53 w then tM (imf w 6 4) else [])
  | .vadd | .vsub | .vmul | .vmin | .vmax | .vand | .vor | .vxor | .vsh => a ++ b ++ (if flag53 w then tM (imf w 6 4) else [])
  | .vun => a ++ (if flag53 w then tM (imf w 6 4) else [])
  | .vcmp | .vpdep | .vpext | .vdeq => a ++ b
  | .vcred | .vhred | .vcvt | .vquant => a
  | .sqz => a ++ b ++ tS (imf w 4 0)
  | .shist => a ++ b ++ d
  | .spfx => a
  | .sdist => a ++ b ++ d ++ tS (imf w 9 5)
  | .suniqCnt | .shash => a ++ b
  | .suniq | .slabel | .sbox | .soct => a ++ b ++ d
  | .snear => a ++ b ++ tS (imf w 4 0) ++ tS (imf w 4 0 + 1) ++ (if imb w 9 then tS (imf w 4 0 + 2) else [])
  | .tmark => b
  | .tdig => a ++ b ++ tD (imf w 3 0)
  | .cread | .copy | .relayout => []

/-- The registers that an instruction writes. -/
def writesOf (op : TOp) (w : JFields) : List RegId :=
  match op with
  | .st | .stAcc | .relay | .dst | .sst | .scat | .exch | .sqz | .shash | .snear | .suniqCnt | .tmark | .tdig | .copy
  | .relayout => []
  | .dld => tD (imf w 3 0)
  | .pcomp | .pcompt => [.p (compileK w)]
  | .vquant => regOf w.d ++ regOf w.b
  | _ => regOf w.d

/-- Whether two lists of registers meet. -/
def meets (x y : List RegId) : Bool := x.any y.contains

/-- Whether an instruction may issue while older ones are in flight (R62): it reads none of its destinations and it is no
memory-to-memory instruction, `scat` with accumulate, `exch` or observation instruction. -/
def restartable (g : Glove) (op : TOp) (w : JFields) : Bool :=
  !meets (readsOf g op w) (writesOf op w) &&
    match op with
    | .relay | .exch | .sqz | .shist | .spfx | .sdist | .suniqCnt | .suniq | .shash | .slabel | .sbox | .soct | .snear
    | .tmark | .tdig | .cread | .copy | .relayout => false
    | .scat => !imb w 7
    | _ => true

/-- Whether an instruction meets a hazard with an older one (R62). -/
def hazardWith (g : Glove) (rd wr : List RegId) (r : Rec) : Bool :=
  meets rd (writesOf r.op r.w) || meets wr (readsOf g r.op r.w) || meets wr (writesOf r.op r.w)

/-- Whether a tile instruction must wait (R62). -/
def tileHazard (g : Glove) (op : TOp) (w : JFields) : Bool :=
  !g.inflight.isEmpty &&
    (!restartable g op w || g.inflight.any (hazardWith g (readsOf g op w) (writesOf op w)))

/-- Whether a non-tile instruction must wait (R62). -/
def scalarHazard (g : Glove) (rd wr : List RegId) : Bool := g.inflight.any (hazardWith g rd wr)

/-! ### Units (R61) and what a row step adds to the busy counters (R115, R140, R156, R176, R235) -/

/-- The unit of a row step of a record. -/
def unitOf (r : Rec) : UnitName :=
  match r.op with
  | .perm | .pmix | .brev | .pgat => .network
  | .trn => .transpose
  | .pcomp | .pcompt => .compiler
  | .gath | .scat | .exch => .gather
  | .mma | .mmas => if r.row < r.aux then .network else .array
  | .ld | .st | .ldAcc | .stAcc | .relay | .dld | .dst | .sld | .sst | .tdig | .copy | .relayout => .loadStore
  | _ => .vector

/-- The unit of a record's next row step: the compiler while a handle misses (R108), the array where the B buffer holds tb (R141). -/
def State.unitFor (s : State) (gl : GloveRef) (r : Rec) : UnitName :=
  match r.op with
  | .perm | .pmix => if s.needsCompile gl r then .compiler else .network
  | .mma | .mmas => if r.skipsLoad (s.glv gl) then .array else unitOf r
  | _ => unitOf r

/-- The pointer of a unit. -/
def unitIx : UnitName → Fin 7
  | .network => 0
  | .compiler => 1
  | .transpose => 2
  | .gather => 3
  | .array => 4
  | .vector => 5
  | .loadStore => 6

/-- ec of a spatial row step (R176), but for the runs of `sdist` and the new voxels of `suniq`, which their steps count. -/
def spatialCost (r : Rec) : Nat :=
  match r.op with
  | .sqz => if r.fPfmt = 0 then 4 else 8
  | .spfx => 6
  | .shash => 8
  | .slabel => if r.spStep = 0 then 27 else 1
  | .sbox => if imf r.w 1 0 = 1 then (if r.spStep = 0 then 8 else 2) else if imf r.w 1 0 = 0 then 2 else 4
  | .snear => if r.spStep = 0 then 27 else if r.spStep = 1 then 8 else if r.spStep = 2 then 128 else 16
  | _ => 2

/-- ec that a row step keeps the network, the array, the gather/scatter unit and the vector unit busy. -/
def busyOf (g : Glove) (r : Rec) : Nat × Nat × Nat × Nat :=
  match r.op with
  | .perm | .pmix | .brev | .pgat => (1, 0, 0, 0)
  | .mma | .mmas => if r.row < r.aux then (1, 0, 0, 0) else (1, if typeA r.w = 7 then 16 else 8, 0, 0)
  | .gath | .scat => (0, 0, gsN r.w, 0)
  | .exch => (0, 0, ((maskWings (exchMask g r.w)).length * exchB g r.w + 16383) / 16384, 0)
  | .vhred => let n := Nat.log2 (2048 / (tyOf r.w).bits); (n, 0, 0, n)
  | .vquant | .vdeq => (1, 0, 0, 2)
  | .vcvt => if fmtBits (sFmt r.w) = fmtBits (dFmt r.w) then (0, 0, 0, 1) else (1, 0, 0, 1)
  | .vadd | .vsub | .vmul | .vfma | .vmin | .vmax | .vand | .vor | .vxor | .vsh | .vun | .vcmp | .vcred | .vpdep | .vpext =>
    (0, 0, 0, 1)
  | .sdist => (1, 0, 0, spatialCost r)
  | .sqz | .shist | .spfx | .suniqCnt | .suniq | .shash | .slabel | .sbox | .soct | .snear => (0, 0, 0, spatialCost r)
  | _ => (0, 0, 0, 0)

/-- Count the row step that took record r to r' (R235): none for a compile. -/
def State.countBusy (s : State) (gl : GloveRef) (r r' : Rec) : State :=
  if r'.row = r.row then s
  else
    let b := busyOf (s.glv gl) { r' with row := r'.row - 1 }
    (((s.addWork gl.e 0 b.1).addWork gl.e 1 b.2.1).addWork gl.e 2 b.2.2.1).addWork gl.e 3 b.2.2.2

/-! ### Checks before the first row step -/

/-- Operand classes and field ranges (R80, R102, R105, R109, R130, R135). -/
def memLegal (op : TOp) (w : JFields) : Bool :=
  let ca := clsOf w.a
  let cb := clsOf w.b
  let cd := clsOf w.d
  match op with
  | .ld => ca.isS && cd.isT && rowsOk w
  | .st => ca.isT && cb.isS && rowsOk w
  | .ldAcc => ca.isS && cd.isA && rowsOk w
  | .stAcc => ca.isA && cb.isS && rowsOk w
  | .relay => ca.isS && (dperm w 0 != 1 || imf w 33 28 == 0)
  | .dld | .dst => ca.isS
  | .sld => ca.isS && cd.isS
  | _ => ca.isS && cb.isS

def reorderLegal (op : TOp) (w : JFields) : Bool :=
  let ca := clsOf w.a
  let cb := clsOf w.b
  let cd := clsOf w.d
  match op with
  | .perm => ca.isT && cd.isT && (!flag53 w || cb.isM) && rowsOk w
  | .pmix | .pgat => ca.isT && cb.isT && cd.isT && w.d != w.a && w.d != w.b && rowsOk w
  | .brev => ca.isT && cd.isT && w.d != w.a && rowsOk w && decide (1 ≤ imf w 5 2) && decide (imf w 5 2 + imf w 1 0 ≤ 14)
      && row0 w % brevRows w == 0 && nrows w % brevRows w == 0
  | .trn => ca.isT && cd.isT && w.d != w.a
  | .pcomp => flag52 w || ca.isS
  | .pcompt => ca.isT
  | .gath => ca.isT && cd.isT && rowsOk w && decide (nrows w * gsN w ≤ 4096)
  | .scat => ca.isT && cb.isT && rowsOk w && decide (nrows w * gsN w ≤ 4096)
  | _ => ca.isS && cb.isS

/-- Whether the fields of a tile instruction are legal. -/
def tileLegal (op : TOp) (w : JFields) : Bool :=
  match op with
  | .ld | .st | .ldAcc | .stAcc | .relay | .dld | .dst | .sld | .sst => memLegal op w
  | .perm | .pmix | .brev | .pgat | .trn | .pcomp | .pcompt | .gath | .scat | .exch => reorderLegal op w
  | .mma | .mmas => mmaLegal op w
  | .vcvt | .vquant | .vdeq => cvtLegal op w
  | .vadd | .vsub | .vmul | .vfma | .vmin | .vmax | .vand | .vor | .vxor | .vsh | .vun | .vcmp | .vcred | .vhred | .vpdep
  | .vpext => vecLegal op w
  | .sqz | .shist | .spfx | .sdist | .suniqCnt | .suniq | .shash | .slabel | .sbox | .soct | .snear => spatialLegal op w
  | .tmark | .tdig | .cread => observeLegal op w
  | .copy | .relayout => true

/-- An odd INNER of a 4-bit format (R125). -/
def oddInner (d : Desc) (o : Word) : Bool := fmtBits (Desc.fmt d) == 4 && originInner o % 2 == 1

/-- The descriptors that an instruction reads at issue, after the checks of R119, R125, R128, R131, R135, R144. Where more than one of
ACC_TYPE, DESC_BAD and ALIGN holds for `gath` or `scat`, no rule says which is recorded: the model takes ACC_TYPE, then DESC_BAD, then
ALIGN (DESIGN CHOICE, log 57). -/
def descPrep (g : Glove) (op : TOp) (w : JFields) : Res (List Desc) :=
  let dk := g.d[(dNum (imf w 3 0)).val]
  let dl := g.d[(dNum (imf w 7 4)).val]
  match op with
  | .ld | .tdig =>
    if !Desc.ok dk then .fault fcDesc else if oddInner dk (g.origin w.a) then .fault fcAlign else .ok [dk]
  | .st => if !Desc.ok dk then .fault fcDesc else if oddInner dk (g.origin w.b) then .fault fcAlign else .ok [dk]
  | .ldAcc =>
    if !(Desc.ok dk && (Desc.fmt dk == 9 || Desc.fmt dk == 3 || Desc.fmt dk == 13)) then .fault fcDesc else .ok [dk]
  | .stAcc =>
    let sc := g.d[(dNum (Desc.slink dk)).val]
    let o := g.origin w.b
    if !Desc.ok dk || (Desc.sblk dk != 0 && !scaleOk dk sc) then .fault fcDesc
    else if oddInner dk o || (Desc.sblk dk != 0 && (Desc.base sc % 32 != 0 || originInner o % blockOf (Desc.sblk dk) != 0))
    then .fault fcAlign else .ok [dk, sc]
  | .relay =>
    let o := g.origin w.a
    if dperm w 0 = 1 ∧ originInner o % 64 ≠ 0 then .fault fcIllegal
    else if !relayOk w dk dl then .fault fcDesc
    else if oddInner dk o then .fault fcAlign else .ok [dk, dl]
  | .dst => .ok [dk]
  | .gath | .scat =>
    if op = .scat ∧ imb w 7 ∧ !(accPair (imf w 11 8) (imf w 14 12) && accWidth (imf w 14 12) == 2 ^ gsE w) then .fault fcAccType
    else if Desc.size dk 0 = 0 then .fault fcDesc
    else if op = .scat ∧ imb w 7 ∧ Desc.base dk % 2 ^ gsE w ≠ 0 then .fault fcAlign else .ok [dk]
  | .exch => .ok [dk, dl]
  | .mmas =>
    let k := g.d[(dNum (imf w 9 6)).val]
    let l := g.d[(dNum (imf w 13 10)).val]
    let sk := g.d[(dNum (Desc.slink k)).val]
    let sl := g.d[(dNum (Desc.slink l)).val]
    let ok (d sc : Desc) (t : Nat) : Bool := Desc.ok d && Desc.fmt d == mmaFmt t && Desc.sblk d != 0 && scaleOk d sc
    let al (d sc : Desc) (x : Nat) : Bool :=
      Desc.base sc % 32 == 0 && originInner (g.sreg (sNum (BitVec.ofNat 6 x))) % blockOf (Desc.sblk d) == 0
    if !(ok k sk (typeA w) && ok l sl (typeB w)) then .fault fcDesc
    else if !(al k sk (mmasX w) && al l sl (mmasX w + 1)) then .fault fcAlign else .ok [k, l, sk, sl]
  | _ => .ok []

/-- Rows of a spatial instruction: NROWS times its steps per row. -/
def spatialRowsOf (op : TOp) (w : JFields) : Nat := nrows w * spatialPasses op w

/-- Row steps of an instruction from its first row on, and the word `aux` it starts with. -/
def rowsOf (op : TOp) (w : JFields) : Nat × Nat :=
  match op with
  | .relay => (if dperm w 0 = 1 then 128 else nrows w, 0)
  | .dld | .dst | .sld | .sst | .pcomp | .pcompt | .vcmp | .tmark | .cread => (1, 0)
  | .trn => (128, 0)
  | .exch => (64, 0)
  | .mma | .mmas => (64 + nrows w, 64)
  | .pmix | .brev | .pgat => (nrows w * passesOf op w, 0)
  | .sqz | .shist | .sdist | .suniqCnt | .suniq | .shash | .slabel | .sbox | .soct | .snear => (spatialRowsOf op w, 0)
  | _ => (nrows w, 0)

/-- Checks of a tile instruction before its first row step, apart from its classes: its descriptors. Where a condition of EXCH_RANGE and an
unowned bolt both hold, R113 does not say which is recorded: the model takes EXCH_RANGE (DESIGN CHOICE, log 57). -/
def State.prep (s : State) (gl : GloveRef) (op : TOp) (w : JFields) : Res (List Desc) :=
  let g := s.glv gl
  (descPrep g op w).bind fun ds =>
    if op = .exch then
      if !exchOk gl.e g w (ds[0]?.getD 0) (ds[1]?.getD 0) then .fault fcExch
      else if !s.exchBolts gl w then .fault fcBolt else .ok ds
    else .ok ds

/-! ### One row step of a record -/

/-- The row step of a record's instruction. -/
def rowOp (s : State) (gl : GloveRef) (r : Rec) : StepR :=
  match r.op with
  | .ld => rowLd s gl r
  | .st => rowSt s gl r
  | .ldAcc => rowLdAcc s gl r
  | .stAcc => rowStAcc s gl r
  | .relay => rowRelay s gl r
  | .dld => rowDld s gl r
  | .dst => rowDst s gl r
  | .sld => rowSld s gl r
  | .sst => rowSst s gl r
  | .perm => rowPerm s gl r
  | .pmix => rowPmix s gl r
  | .brev => rowBrev s gl r
  | .pgat => rowPgat s gl r
  | .trn => rowTrn s gl r
  | .pcomp => rowPcomp s gl r
  | .pcompt => rowPcompt s gl r
  | .gath => rowGath s gl r
  | .scat => rowScat s gl r
  | .exch => rowExch s gl r
  | .mma => rowMma s gl r
  | .mmas => rowMmas s gl r
  | .vadd | .vsub | .vmul | .vfma | .vmin | .vmax | .vand | .vor | .vxor | .vsh => rowVec s gl r
  | .vun => rowVun s gl r
  | .vcmp => rowVcmp s gl r
  | .vcred => rowVcred s gl r
  | .vhred => rowVhred s gl r
  | .vcvt => rowVcvt s gl r
  | .vquant => rowVquant s gl r
  | .vdeq => rowVdeq s gl r
  | .vpdep => rowVbits s gl r depBits
  | .vpext => rowVbits s gl r extBits
  | .spfx => rowSpfx s gl r
  | .sqz | .shist | .sdist | .suniqCnt | .suniq | .shash | .slabel | .sbox | .soct | .snear => rowSpatial s gl r
  | .tmark => .ok (s.markEffect gl r.w) r.next
  | .tdig => rowTdig s gl r
  | .cread => .ok (s.creadEffect gl r.w) r.next
  | .copy => rowCopy s gl r
  | .relayout => rowRelayout s gl r

/-- Replace the k-th instruction in flight. -/
def State.setRec (s : State) (gl : GloveRef) (k : Nat) (r : Rec) : State :=
  s.modGlv gl fun g => { g with inflight := g.inflight.set k r }

/-- Whether an instruction has done its row steps and has every response. -/
def Rec.finished (r : Rec) : Bool := decide (r.rows ≤ r.row) && r.resp.isEmpty

/-- What an instruction gives back when it leaves: its cupboard locks and its transpose bank. -/
def State.freeRec (s : State) (e : EngIx) (r : Rec) : State :=
  let s1 := r.slots.foldl (fun t i => t.unlockSlot e i) s
  if r.op = .trn ∨ r.op = .relay ∨ r.op = .relayout then s1.freeBank e r.aux else s1

/-- A record that has given back its locks and its bank. -/
def Rec.freed (r : Rec) : Rec :=
  { r with slots := [], aux := if r.op = .trn ∨ r.op = .relay ∨ r.op = .relayout then 0 else r.aux }

/-- Whether an instruction keeps rows it has read for its later row steps; two such never run together (R62). -/
def keepsRows (op : TOp) : Bool :=
  match op with
  | .relay | .sqz | .shist | .spfx | .sdist | .suniqCnt | .suniq | .shash | .slabel | .sbox | .soct | .snear => true
  | _ => false

/-- The k-th instruction in flight completes; when it is record 0, TROW clears and the restart of a resumed glove is over (R68). -/
def State.finishRec (s : State) (gl : GloveRef) (k : Nat) : State :=
  match (s.glv gl).inflight[k]? with
  | none => s
  | some r =>
    (s.freeRec gl.e r).modGlv gl fun g =>
      { g with inflight := g.inflight.eraseIdx k, trow := if k = 0 then 0 else g.trow, resuming := g.resuming && k != 0,
               spatialRows := if keepsRows r.op then [] else g.spatialRows }

/-- What raised a fault: code, row and PC. -/
structure FaultInfo where
  code : Byte
  row : Option Nat
  pc : BitVec 32
  deriving DecidableEq, Repr

/-- What running one row step came to. -/
inductive Ran where
  | step (s : State)
  | done (s : State)
  | fault (s : State) (f : FaultInfo)
  | stall (w : Option WingIx := none)
  deriving DecidableEq, Repr

/-- Whether a row step that ended with HOST_ERR made a write (R206); the elements of `scat` are counted one by one. -/
def State.hostWriteFailed (s : State) (gl : GloveRef) (r : Rec) : Bool :=
  let fromHost (a : Nat) : Bool := s.hostRoom (s.glv gl).tenant a 1 .r
  match r.op with
  | .st | .stAcc | .dst | .sst | .exch => true
  | .copy => !fromHost (copySrc r.desc + 256 * r.row)
  | .relay | .relayout => !fromHost (Desc.base r.desc2)
  | _ => false

/-- PORT_DISCARD of a row step that failed at a port whose link is down. -/
def State.countDiscard (s : State) (gl : GloveRef) (r : Rec) (c : Byte) : State :=
  if s.hostWriteFailed gl r then s.hostFail gl c else s

/-- The record after a row step whose transactions take memory IDs, tracker entries and credits (R25, R30, R63): none where not even the
first of them can. A record that holds its responses waits for one; the transactions beyond those that fit follow as responses return. -/
def State.harvest (s : State) (gl : GloveRef) (r r' : Rec) : Option Rec :=
  let reqs := (s.glv gl).reqs
  let grew := decide (r.resp.length < r'.resp.length)
  if reqs.isEmpty then
    some (if grew && r'.resp.getLast?.any (·.dest == .accept) then { r' with resp := r'.resp.dropLast } else r')
  else
    let n := s.fitCount gl reqs []
    if n = 0 then none
    else if !r.held then some r'
    else
      let x := if grew then r' else r'.await none .accept 0 false
      some { x with resp := x.resp.dropLast ++ (x.resp.getLast?.toList.map fun y => { y with reqs := reqs, ids := n }) }

/-- Forget the transactions noted for a row step. -/
def State.clearReqs (s : State) (gl : GloveRef) : State := s.modGlv gl fun g => { g with reqs := [] }

/-- Run the next row step of the k-th instruction in flight. -/
def State.stepRec (s : State) (gl : GloveRef) (k : Nat) : Ran :=
  match (s.glv gl).inflight[k]? with
  | none => .stall
  | some r =>
    if r.rows ≤ r.row then .stall
    else match rowOp (s.clearReqs gl) gl r with
      | .ok t r' =>
        match t.harvest gl r r' with
        | some x =>
          let u := (((t.countBusy gl r x).setRec gl k x).clearReqs gl).modGlv gl fun g => { g with progressAt := s.hearth.time }
          if x.finished then .done (u.finishRec gl k) else .step u
        | none => .stall
      | .fault t c row => .fault ((t.clearReqs gl).countDiscard gl r c) ⟨c, row, r.pc⟩
      | .stall w => .stall w

/-! ### Faults (R90-R93) -/

/-- Set MORE in the recorded fault of the launch or tick run of a glove (R90). -/
def State.moreFault (s : State) (gl : GloveRef) : State :=
  let g := s.glv gl
  match g.kind with
  | .tick => s.modGlv gl fun g => { g with gfault := g.gfault ||| moreBit }
  | .none => s
  | _ =>
    match s.launchOf g.strm g.cmdIx with
    | some l =>
      let t := s.modLaunch g.strm g.cmdIx fun l => { l with fault := l.fault.map (· ||| moreBit) }
      match l.faultOn with
      | some h => t.modGlv h fun g => { g with gfault := g.gfault ||| moreBit }
      | none => t
    | none => s

/-- Record a fault of a glove: in GFAULT and the launch when it is the first, as MORE afterwards. -/
def State.recordFault (s : State) (gl : GloveRef) (f : FaultInfo) : State :=
  let g := s.glv gl
  let w := gfaultWord f.code f.row g.rank f.pc
  match g.kind with
  | .tick => s.modGlv gl fun g => { g with gfault := w }
  | .none => s
  | _ =>
    match s.launchOf g.strm g.cmdIx with
    | some l =>
      if l.fault.isSome then s.moreFault gl
      else (s.modLaunch g.strm g.cmdIx fun l => { l with fault := some w, faultOn := some gl }).modGlv gl fun g => { g with gfault := w }
    | none => s

/-- The index of the `scat` whose elements the combiner holds. -/
def Glove.scatOwner (g : Glove) : Option Nat :=
  (List.range g.inflight.length).find? fun k => g.inflight[k]?.any fun r => r.op == .scat && decide (r.row < r.rows)

/-- A stopped `scat` sends what its combiner holds (R112), when it is among the instructions from index k on: the first error response. -/
def State.flushCombiner (s : State) (gl : GloveRef) (k : Nat) : State × Option Byte :=
  let g := s.glv gl
  match g.scatOwner with
  | some i =>
    if i < k then (s, none)
    else match g.inflight[i]? with
      | some r => g.combiner.foldl (sendStopped gl r.w) (s.modGlv gl fun g => { g with combiner := [] }, none)
      | none => (s, none)
  | none => (s, none)

/-- The same, where an error response of the elements sets MORE (R90, R112). -/
def State.flushMore (s : State) (gl : GloveRef) (k : Nat) : State :=
  let x := s.flushCombiner gl k
  if x.2.isSome then x.1.moreFault gl else x.1

/-- A glove that waits at a bolt leaves its FIFO (R281). -/
def State.leaveBolt (s : State) (gl : GloveRef) : State :=
  match (s.glv gl).wait with
  | .bolt b _ _ _ _ _ => s.withdraw b (.glove gl)
  | _ => s

/-- The row steps of a glove that stops keep no unit. -/
def State.leaveUnits (s : State) (gl : GloveRef) : State :=
  s.modEng gl.e fun x => { x with keeps := x.keeps.map fun o => if o = some gl.g then none else o }

/-- Drop the instructions in flight from index k on; their accesses have been issued. -/
def State.dropFrom (s : State) (gl : GloveRef) (k : Nat) : State :=
  let l := (s.glv gl).inflight.drop k
  ((l.foldl (fun t r => t.freeRec gl.e r) s).leaveUnits gl).modGlv gl fun g => { g with inflight := g.inflight.take k }

/-- The instructions in flight from index k on stop (R90): those that still wait for a response stay until it has returned. -/
def State.stopFrom (s : State) (gl : GloveRef) (k : Nat) : State :=
  let l := (s.glv gl).inflight.drop k
  (s.dropFrom gl k).modGlv gl fun g =>
    { g with inflight := g.inflight ++ (l.filter fun r => !r.resp.isEmpty).map fun r => { r.freed with rows := r.row } }

/-- Mark an instance as ended without `end`. -/
def State.markEnded (s : State) (gl : GloveRef) : State :=
  let g := s.glv gl
  s.modLaunch g.strm g.cmdIx fun l => { l with insts := l.insts.map fun x => if x.1 = gl then (x.1, x.2.1, true) else x }

/-- What leaves with an instance that stops: locks, banks, its place at a bolt; its registers are released (R91). -/
def State.releaseGlove (s : State) (gl : GloveRef) : State :=
  ((s.leaveBolt gl).dropFrom gl 0).modGlv gl fun g => g.clearRegs.empty

/-- Whether an instance of a command runs on a glove now. -/
def Glove.runs (g : Glove) (n : StrmIx) (i : BitVec 32) : Bool :=
  (g.kind == .launch || g.kind == .copy || g.kind == .relayout) && g.strm == n && g.cmdIx == i

/-- An instance on a glove is aborted (R91): its responses drain, its combiner is sent, it ends without `end`. -/
def State.abortInstance (s : State) (gl : GloveRef) : State :=
  let bad := (s.glv gl).responses.any fun x => x.err != 0
  let s1 := (if bad then s.moreFault gl else s).flushMore gl 0
  ((s1.traceEnd gl stAborted).markEnded gl).releaseGlove gl

/-- The saved context of an instance of a command is discarded; the instance ends. -/
def State.dropSaved (s : State) (n : StrmIx) (i : BitVec 32) : State :=
  let s1 := s.modTen fun x => { x with leases := x.leases.map fun l =>
    match l.savedRun with
    | some r => if r.strm = n ∧ r.index = i then { l with savedRun := none, saved := false } else l
    | none => l }
  s1.modLaunch n i fun l => { l with insts := l.insts.map fun x => (x.1, x.2.1, true) }

/-- Abort an instance of a launch wherever its context is. -/
def State.abortOne (n : StrmIx) (i : BitVec 32) (s : State) (gl : GloveRef) : State :=
  if (s.glv gl).runs n i then s.abortInstance gl else s.dropSaved n i

/-- The other instances of a launch, those that have not ended. -/
def State.liveInsts (s : State) (n : StrmIx) (i : BitVec 32) : List GloveRef :=
  match s.launchOf n i with
  | some l => (l.insts.filter fun x => !x.2.2).map (·.1)
  | none => []

/-- Abort every instance of a launch that has not ended, and complete the command (R91). -/
def State.abortLaunch (s : State) (n : StrmIx) (i : BitVec 32) : State :=
  ((s.liveInsts n i).foldl (State.abortOne n i) s).launchCheck n i

/-- Abort the instances of a launch that have not ended, but for one (R91). -/
def State.abortOthers (s : State) (n : StrmIx) (i : BitVec 32) (gl : GloveRef) : State :=
  ((s.liveInsts n i).filter (· != gl)).foldl (State.abortOne n i) s

/-- The end of a launch instance or tick run that a fault has stopped, once nothing of it is in flight (R90-R92). -/
def State.dieCheck (s : State) (gl : GloveRef) : State :=
  let g := s.glv gl
  match g.dying with
  | none => s
  | some pc =>
    if !g.inflight.isEmpty then s
    else match g.kind with
      | .tick => (s.releaseGlove gl |>.modGlv gl fun x => { x with kind := .tick, armed := true }).tickFault gl.e pc
      | .none => s
      | _ => (((s.traceEnd gl stFault).markEnded gl).releaseGlove gl).launchCheck g.strm g.cmdIx

/-- A fault of the k-th instruction in flight of a glove, or at issue, where every one is older (R90, R91, R93): it is recorded, and a
swap-out in progress is abandoned (R65); the instruction and the younger ones stop; the other instances of the launch are aborted; the
older ones go on, and the instance ends when they have. A further fault until then sets MORE. -/
def State.gloveFault (s : State) (gl : GloveRef) (k : Nat) (f : FaultInfo) : State :=
  let g := s.glv gl
  if g.kind = .none then s.recordFault gl f
  else if g.dying.isSome then (((s.moreFault gl).flushMore gl k).stopFrom gl k).dieCheck gl
  else
    let s1 := (((s.recordFault gl f).flushMore gl k).leaveBolt gl).stopFrom gl k
    let s2 := s1.modGlv gl fun x =>
      { x with dying := some f.pc, wait := .none, state := if g.kind = .tick then x.state else 1, swapping := false }
    (if g.kind = .tick then s2 else s2.abortOthers g.strm g.cmdIx gl).dieCheck gl

/-- A fault at issue: every instruction in flight is older. -/
def State.issueFault (s : State) (gl : GloveRef) (code : Byte) : State :=
  s.gloveFault gl (s.glv gl).inflight.length ⟨code, none, (s.glv gl).pc⟩

/-! ### Issue (R59, R60) -/

/-- Whether nothing but the next instruction itself keeps a glove from issuing. -/
def State.gloveReady (s : State) (gl : GloveRef) : Bool :=
  let x := s.eng gl.e
  let g := s.glv gl
  s.alive && x.pwrState == 0 && !x.waking && g.state == 1 && (g.kind == .launch || g.kind == .tick) && g.wait == .none
    && !g.hang.frozen && !g.hang.freezing && !g.swapping && !g.resuming && g.dying.isNone

/-- The opcode of a tile instruction (R102, R130, R145, R175, R275). -/
def TOp.code : TOp → BitVec 8
  | .ld => 0x20 | .st => 0x21 | .ldAcc => 0x22 | .stAcc => 0x23 | .relay => 0x24
  | .dld => 0x28 | .dst => 0x29 | .sld => 0x30 | .sst => 0x31
  | .perm => 0x40 | .pmix => 0x41 | .brev => 0x42 | .pgat => 0x43 | .trn => 0x44 | .pcomp => 0x45 | .pcompt => 0x46
  | .gath => 0x48 | .scat => 0x49 | .exch => 0x4A
  | .mma => 0x60 | .mmas => 0x61
  | .vadd => 0x64 | .vsub => 0x65 | .vmul => 0x66 | .vfma => 0x67 | .vmin => 0x68 | .vmax => 0x69 | .vand => 0x6A
  | .vor => 0x6B | .vxor => 0x6C | .vsh => 0x6D | .vun => 0x6E | .vcmp => 0x6F | .vcred => 0x70 | .vhred => 0x71
  | .vcvt => 0x72 | .vquant => 0x73 | .vdeq => 0x74 | .vpdep => 0x75 | .vpext => 0x76
  | .sqz => 0x80 | .shist => 0x81 | .spfx => 0x82 | .sdist => 0x83 | .suniqCnt => 0x84 | .suniq => 0x84 | .shash => 0x85
  | .slabel => 0x86 | .sbox => 0x87 | .soct => 0x88 | .snear => 0x89
  | .tmark => 0x90 | .tdig => 0x91 | .cread => 0x92
  | .copy => 0 | .relayout => 0

/-- The tile instructions. -/
def tileOps : List TOp :=
  [.ld, .st, .ldAcc, .stAcc, .relay, .dld, .dst, .sld, .sst, .perm, .pmix, .brev, .pgat, .trn, .pcomp, .pcompt, .gath, .scat, .exch]
  ++ [.mma, .mmas, .vadd, .vsub, .vmul, .vfma, .vmin, .vmax, .vand, .vor, .vxor, .vsh, .vun, .vcmp, .vcred, .vhred, .vcvt, .vquant]
  ++ [.vdeq, .vpdep, .vpext, .sqz, .shist, .spfx, .sdist, .suniqCnt, .shash, .slabel, .sbox, .soct, .snear, .tmark, .tdig, .cread]

/-- The instruction word of a record. -/
def Rec.word (r : Rec) : Word := packWord r.op.code r.w

/-- The tile instruction that a word holds. -/
def topOf (w : Word) : Option TOp :=
  (tileOps.find? fun o => o.code == opcodeOf w).map fun o => if o = .suniqCnt ∧ imb (fieldsOf w) 6 then .suniq else o

/-- The registers that a non-tile instruction reads (R81). -/
def ctlReads (op : BitVec 8) (w : JFields) : List RegId :=
  let n := op.toNat
  if n = 0x03 then regOf w.a ++ regOf w.b
  else if n = 0x05 ∨ n = 0x06 ∨ n = 0x14 ∨ n = 0x16 ∨ n = 0x18 ∨ n = 0x19 ∨ n = 0x1A ∨ n = 0x1B then regOf w.a
  else if 0x07 ≤ n ∧ n ≤ 0x10 then regOf w.a ++ (if flag52 w then [] else regOf w.b)
  else if n = 0x12 then regOf w.d
  else if n = 0x15 then tD (imf w 3 0)
  else if n = 0x17 then tP (imf w 2 0)
  else []

/-- The registers that a non-tile instruction writes (R81). -/
def ctlWrites (op : BitVec 8) (w : JFields) : List RegId :=
  let n := op.toNat
  if n = 0x04 ∨ (0x07 ≤ n ∧ n ≤ 0x12) ∨ n = 0x15 ∨ n = 0x17 ∨ n = 0x18 ∨ n = 0x19 ∨ n = 0x1A ∨ n = 0x1E then regOf w.d
  else if n = 0x06 then regOf w.a
  else if n = 0x14 then tD (imf w 3 0)
  else if n = 0x16 then tP (imf w 2 0)
  else []

/-- Whether a record accesses memory (R29): so does an instruction that may yet read the table of a handle (R100). -/
def memOp (g : Glove) (r : Rec) : Bool :=
  match r.op with
  | .ld | .st | .ldAcc | .stAcc | .relay | .dld | .dst | .sld | .sst | .gath | .scat | .exch | .mmas | .pcomp
  | .sqz | .shist | .sdist | .suniqCnt | .suniq | .shash | .slabel | .sbox | .soct | .snear | .tdig | .copy | .relayout => true
  | .perm | .pmix => !r.resp.isEmpty || r.handles.any fun h => match h with
    | .preg k => hKind g.p[k.val] == 1
    | .spec _ => false
  | _ => false

/-- Whether every earlier access of a glove has been made and has returned (R29). -/
def Glove.fenced (g : Glove) : Bool := g.inflight.all fun r => !memOp g r

/-- The next instruction of a glove, when its line stands in the instruction buffer (R59, R69). -/
def Glove.nextWord (g : Glove) : Option Word :=
  match g.ibuf.find? fun l => l.off.toNat == g.pc.toNat / 64 * 64 with
  | some l => if l.err = 0 then some (l.data.extractLsb' (g.pc.toNat % 64 / 8 * 64) 64) else none
  | none => none

/-- Tile instructions in flight in an engine. -/
def Engine.inflightCount (x : Engine) : Nat := (x.gloves.toList.map (·.inflight.length)).sum

/-- Whether an instruction word can issue on a glove (R59, R62): no hazard holds it, no wait of its own definition (R86), and its unit can
accept it, which the limits of R62 on instructions in flight say (DEDUCED, log 63). -/
def State.canIssue (s : State) (gl : GloveRef) (w : Word) : Bool :=
  let g := s.glv gl
  s.gloveReady gl && match topOf w with
    | some op => decide (g.inflight.length < 4) && decide ((s.eng gl.e).inflightCount < 16) && !tileHazard g op (fieldsOf w)
    | none =>
      !scalarHazard g (ctlReads (opcodeOf w) (fieldsOf w)) (ctlWrites (opcodeOf w) (fieldsOf w)) && (opcodeOf w != 0x1B || g.fenced)

/-- Whether a glove is ready (R59). -/
def State.wantsIssue (s : State) (gl : GloveRef) : Bool :=
  match (s.glv gl).nextWord with
  | some w => s.canIssue gl w
  | none => false

/-- The glove of an engine that issues next (R59, R60): an armed tick glove that is ready, else the first ready one at or after the issue
pointer. -/
def State.issuer (s : State) (e : EngIx) : Option GlvIx :=
  let p := (s.eng e).issuePtr
  ((if (s.eng e).gloves[3].armed then [3] else []) ++ [p, p + 1, p + 2, p + 3]).find? fun g => s.wantsIssue ⟨e, g⟩

/-- Whether an instruction of a glove issues now: it stands at PC in the instruction buffer, it is ready, and it is the glove's turn. -/
def State.mayIssue (s : State) (gl : GloveRef) (op : BitVec 8) (w : JFields) : Bool :=
  (s.glv gl).nextWord == some (packWord op w) && s.issuer gl.e == some gl.g

/-- An instruction of a glove issues: the counters and the issue pointer. -/
def State.issue (s : State) (gl : GloveRef) : State :=
  let tick := (s.glv gl).armed
  let others := [0, 1, 2].any fun i => s.wantsIssue ⟨gl.e, i⟩
  let s1 := (s.engCnt gl.e 1 1).engCnt gl.e 2 (b2n (tick && others))
  (if tick then s1 else s1.modEng gl.e fun x => { x with issuePtr := gl.g + 1 }).modGlv gl fun g =>
    { g with progressAt := s.hearth.time }

/-- Whether the next sequential PC stays in the program region (R83). -/
def Glove.nextOk (g : Glove) : Bool := decide (g.pc.toNat + 8 < g.regionLen.toNat)

/-- PC moves to the next instruction. -/
def State.nextPc (s : State) (gl : GloveRef) : State := s.modGlv gl fun g => { g with pc := g.pc + 8 }

/-- The re-check of the seal after a command that may have written memory (R219). -/
def State.sealSweep (s : State) : State :=
  (allFin 16).foldl (fun t e => t.sealRecheck e) s

/-- Whether the B load of a contraction waits for an older one of its glove that still uses the B buffer (R141, log 35). -/
def waitsForBuf (older : List Rec) (r : Rec) : Bool :=
  (r.op == .mma || r.op == .mmas) && decide (r.row < r.aux) &&
    older.any fun x => (x.op == .mma || x.op == .mmas) && decide (x.row < x.rows)

/-- Whether a record's next row step cannot start yet: it wants a transpose bank, a slot for a pattern, the table that a compile reads, or
the acceptance of the segment before. -/
def State.recWaits (s : State) (gl : GloveRef) (r : Rec) : Bool :=
  let bank := r.aux == 0 && (takeBank (s.eng gl.e) gl.g).isNone
  let full := (victimSlot (s.eng gl.e).cupboard (s.pool gl)).isNone
  match r.op with
  | .trn => bank
  | .relay => dperm r.w 0 == 1 && bank
  | .relayout => !r.resp.isEmpty || (dperm r.w 0 == 1 && bank)
  | .perm | .pmix => (r.row == 0 && !r.resp.isEmpty) || (s.needsCompile gl r && full)
  | .pcomp | .pcompt => full
  | _ => false

/-- The oldest instruction of a glove with a row step for a unit, when that can start. After a restore only record 0 runs (R68). -/
def State.firstFor (s : State) (gl : GloveRef) (u : UnitName) : Option Nat :=
  let g := s.glv gl
  let l := if g.resuming then g.inflight.take 1 else g.inflight
  ((List.range l.length).find? fun k => match l[k]? with
    | some r => decide (r.row < r.rows) && s.unitFor gl r == u && !waitsForBuf (l.take k) r
    | none => false).filter fun k => match l[k]? with
      | some r => !s.recWaits gl r
      | none => false

/-- Whether the row steps of a glove go on. -/
def State.stepsGoOn (s : State) (gl : GloveRef) : Bool :=
  let g := s.glv gl
  s.alive && (s.eng gl.e).pwrState == 0 && !(s.eng gl.e).waking && g.kind != .none && !g.hang.frozen && g.state != 3

/-- The row step that a unit starts next (R61, R63): the one that keeps it, else that of an armed tick glove, else that of the first
waiting glove at or after the unit's pointer. -/
def State.nextForUnit (s : State) (e : EngIx) (u : UnitName) : Option (GlvIx × Nat) :=
  let x := s.eng e
  let p := x.unitPtr[(unitIx u).val]
  let order : List GlvIx := x.keeps[(unitIx u).val].toList ++ (if x.gloves[3].armed then [3] else []) ++ [p, p + 1, p + 2, p + 3]
  (order.filterMap fun g => if s.stepsGoOn ⟨e, g⟩ then (s.firstFor ⟨e, g⟩ u).map (g, ·) else none).head?

/-- A unit is free after a row step of glove g, and its pointer moves on; a tick glove's row step does not move it. -/
def State.moveUnitPtr (s : State) (e : EngIx) (u : UnitName) (g : GlvIx) : State :=
  let t := s.modEng e fun x => { x with keeps := vset x.keeps (unitIx u) none }
  if g = 3 ∧ (s.eng e).gloves[3].armed then t else t.modEng e fun x => { x with unitPtr := vset x.unitPtr (unitIx u) (g + 1) }

/-- The row step of the k-th instruction of a glove on a unit: the state, and whether the instruction has come to its next. A step that
its memory accesses hold keeps the unit (R63). -/
def State.runRow (s : State) (gl : GloveRef) (k : Nat) (u : UnitName) : State × Bool :=
  match s.stepRec gl k with
  | .step t => (t.moveUnitPtr gl.e u gl.g, true)
  | .done t => ((t.moveUnitPtr gl.e u gl.g).dieCheck gl, false)
  | .fault t f => ((t.moveUnitPtr gl.e u gl.g).gloveFault gl k f, false)
  | .stall w => ((s.wakeWing w).modEng gl.e fun x => { x with keeps := vset x.keeps (unitIx u) (some gl.g) }, false)

/-- Run row steps of the k-th instruction in flight while each is the next of its unit (R61). -/
def runSteps (gl : GloveRef) (k : Nat) : Nat → State → State
  | 0, s => s
  | n + 1, s =>
    match (s.glv gl).inflight[k]? with
    | none => s
    | some r =>
      let u := s.unitFor gl r
      if s.nextForUnit gl.e u = some (gl.g, k) then
        let x := s.runRow gl k u
        if x.2 then runSteps gl k n x.1 else x.1
      else s

/-- The one step of an instruction that completes in its issue slot and asks no unit (R108, R275). -/
def State.slotStep (s : State) (gl : GloveRef) (k : Nat) : State :=
  match s.stepRec gl k with
  | .step t => t
  | .done t => t
  | .fault t f => t.gloveFault gl k f
  | .stall w => s.wakeWing w

/-- Whether `pcomp` with I = 1 finds its pattern: it completes in its issue slot (R108). -/
def State.pcompHit (s : State) (gl : GloveRef) (op : TOp) (w : JFields) : Bool :=
  op == .pcomp && flag52 w && (s.findSpec gl (imf w 11 0)).isSome

/-- Whether a tile instruction issues now (R59, R62). -/
def State.tileReady (s : State) (gl : GloveRef) (op : TOp) (w : JFields) : Bool :=
  s.mayIssue gl op.code w && topOf (packWord op.code w) == some op

/-- The record of a tile instruction at issue. -/
def newRec (g : Glove) (op : TOp) (w : JFields) (held : Bool) (ds : List Desc) : Rec :=
  { op := op, w := w, pc := g.pc, row := 0, rows := (rowsOf op w).1, ds := ds, held := held, resp := [],
    aux := (rowsOf op w).2, start := 0, slots := [], scales := [], hit := false }

/-- A tile instruction enters flight and runs its first row steps. -/
def State.enterTile (s : State) (gl : GloveRef) (op : TOp) (w : JFields) (p : Pace) (ds : List Desc) : State :=
  let g := s.glv gl
  let r := newRec g op w p.held ds
  let s1 := ((s.issue gl).modGlv gl fun g =>
    { g with inflight := g.inflight ++ [r], spatialRows := if keepsRows op then [] else g.spatialRows }).nextPc gl
  let k := g.inflight.length
  if s.pcompHit gl op w ∨ op = .tmark ∨ op = .cread then s1.slotStep gl k else runSteps gl k p.steps s1

/-- A tile instruction (R59, R62, R80, R83, R90): it waits, faults at issue with no other effect (R80, R238), or enters flight. -/
def State.tile (s : State) (gl : GloveRef) (op : TOp) (w : JFields) (p : Pace) : State :=
  if !s.tileReady gl op w then s
  else if !tileLegal op w then s.issueFault gl fcIllegal
  else if !(s.glv gl).nextOk then s.issueFault gl fcPcRange
  else match s.prep gl op w with
    | .fault c => s.issueFault gl c
    | .stall w => s.wakeWing w
    | .ok ds => (s.enterTile gl op w p ds).sealSweep

/-! ### Row steps and responses that come later (R61, R131, R132) -/

/-- A COPY or RELAYOUT whose row steps are done ends like an instance (R136, R198). -/
def State.copyCheck (s : State) (gl : GloveRef) : State :=
  let g := s.glv gl
  if (g.kind == .copy || g.kind == .relayout) && g.inflight.isEmpty then ((s.traceEnd gl stOk).releaseGlove gl).instDone g.strm g.cmdIx gl 0 else s

/-- The oldest response that a glove waits for: the index of its instruction. -/
def firstResp (l : List Rec) : Option Nat :=
  (List.range l.length).find? fun k => match l[k]? with
    | some r => !r.resp.isEmpty
    | none => false

/-- A response returns to a glove (R26, R131): the transactions of its row step that had to wait go out first; then data are written, and an
error or poison faults its instruction (R49, R90). -/
def State.deliver (s : State) (gl : GloveRef) : State :=
  match firstResp (s.glv gl).inflight with
  | none => s
  | some k =>
    match (s.glv gl).inflight[k]? with
    | none => s
    | some r =>
      match r.resp with
      | [] => s
      | x :: rest =>
        let left := x.reqs.drop x.ids
        let row := if x.row < 64 then some x.row else none
        let t := s.setRec gl k { r with resp := rest }
        if x.err ≠ 0 then t.gloveFault gl k ⟨x.err, row, r.pc⟩
        else if !left.isEmpty then
          s.setRec gl k { r with resp := { x with reqs := left, ids := max 1 (t.fitCount gl left []) } :: rest }
        else if x.poisoned then t.gloveFault gl k ⟨fcPoison, row, r.pc⟩
        else
          let u := t.writeDest gl x.dest x.data
          if ({ r with resp := rest } : Rec).finished then (u.finishRec gl k).dieCheck gl else u

end Sys2Proof.Machine
end

