-- ==== Sys2Proof/Machine/Control.lean ====
section
/-!
DEFINITION. The non-tile instructions 0x00-0x1F (R77, R81-R89), reserved opcodes (R80), and the events that end their
waits: TREL_EFFECT and the fabric fence; the instruction buffer (R69, R70).
-/
namespace Sys2Proof.Machine

abbrev Out := Host.Outcome State Fault Refusal

/-! ### Shared operations -/

/-- A non-tile instruction that goes on to the next PC (R59, R62, R80, R83, R90): it waits, faults with no effect, or has
its effect. -/
def State.scalar (s : State) (gl : GloveRef) (op : BitVec 8) (w : JFields) (legal : Bool) (f : State → Res State) : State :=
  if !s.mayIssue gl op w then s
  else if !legal then s.issueFault gl fcIllegal
  else if !(s.glv gl).nextOk then s.issueFault gl fcPcRange
  else match f (s.issue gl) with
    | .ok t => t.nextPc gl
    | .fault c => s.issueFault gl c
    | .stall v => s.wakeWing v

/-- Change the registers of a glove. -/
def onGlove (gl : GloveRef) (f : Glove → Glove) (s : State) : Res State := .ok (s.modGlv gl f)

/-- A target PC as R83 checks it: inside the region. -/
def Glove.targetOk (g : Glove) (t : Int) : Bool := decide (0x40 ≤ t) && decide (t < g.regionLen.toNat)

/-- PC + 8 × sext(imm[23:0]) (R82). -/
def Glove.branchTarget (g : Glove) (w : JFields) : Int := g.pc.toNat + 8 * sgn 24 (imf w 23 0)

/-- An instruction that sets PC: `next` gives the glove after its register effect, the new PC, and whether that PC is aligned. -/
def State.jump (s : State) (gl : GloveRef) (op : BitVec 8) (w : JFields) (legal : Bool) (next : Glove → Glove × Int × Bool) : State :=
  if !s.mayIssue gl op w then s
  else if !legal then s.issueFault gl fcIllegal
  else
    let x := next (s.glv gl)
    if !(x.2.2 && (s.glv gl).targetOk x.2.1) then s.issueFault gl fcPcRange
    else (s.issue gl).modGlv gl fun g => { (next g).1 with pc := BitVec.ofInt 32 x.2.1 }

def Cls.isSM (c : Cls) : Bool := c.isS || c.isM

/-- Operand B of a scalar instruction: sext(imm) with I, S[b] otherwise (R82). -/
def Glove.opB (g : Glove) (w : JFields) : Word := if flag52 w then immS w else g.sreg (sNum w.b)
/-- Operand classes of the ALU instructions and `scmp`. -/
def aluLegal (w : JFields) : Bool := (clsOf w.a).isS && (clsOf w.d).isS && (flag52 w || (clsOf w.b).isS)

/-- An ALU instruction (R82). -/
def State.alu (s : State) (gl : GloveRef) (op : BitVec 8) (w : JFields) (f : Word → Word → Word) : State :=
  s.scalar gl op w (aluLegal w)
    (onGlove gl fun g => g.setS (sNum w.d) (f (g.sreg (sNum w.a)) (g.opB w)))

/-- The shift amount B[5:0]. -/
def shamt (b : Word) : Nat := b.toNat % 64

/-! ### Control -/

def execNop (gl : GloveRef) (w : JFields) (s : State) : Out := .next (s.scalar gl 0x00 w true .ok)

/-- `end` holds issue until INSTANCE_END (R77). -/
def execEndI (gl : GloveRef) (w : JFields) (s : State) : Out :=
  .next (if s.mayIssue gl 0x01 w then
    (s.issue gl).modGlv gl fun g => { g with wait := .ending (BitVec.ofNat 16 (imf w 15 0)), state := 2 } else s)

def execBr (gl : GloveRef) (w : JFields) (s : State) : Out :=
  .next (s.jump gl 0x02 w true fun g => (g, g.branchTarget w, true))

/-- Whether `bc` is taken; the condition codes 6 and 7 are illegal. -/
def Glove.bcTaken (g : Glove) (w : JFields) : Bool := (branchCond (imf w 26 24) (g.sreg (sNum w.a)) (g.sreg (sNum w.b))).getD false

def execBc (gl : GloveRef) (w : JFields) (s : State) : Out :=
  .next (s.jump gl 0x03 w ((clsOf w.a).isS && (clsOf w.b).isS && decide (imf w 26 24 < 6))
    fun g => (g, if g.bcTaken w then g.branchTarget w else g.pc.toNat + 8, true))

def execJal (gl : GloveRef) (w : JFields) (s : State) : Out :=
  .next (s.jump gl 0x04 w (clsOf w.d).isS
    fun g => (g.setS (sNum w.d) ((g.pc + 8).zeroExtend 64), g.branchTarget w, true))

def execJr (gl : GloveRef) (w : JFields) (s : State) : Out :=
  .next (s.jump gl 0x05 w (clsOf w.a).isS
    fun g => let t := fld (g.sreg (sNum w.a)) 31 0; (g, t, t % 8 == 0))

/-- `loop`: S[a] − 1, and the branch while it is not zero; S0 stays zero and falls through. -/
def Glove.loopNext (g : Glove) (w : JFields) : Glove × Int × Bool :=
  let h := g.setS (sNum w.a) (g.sreg (sNum w.a) - 1)
  (h, if h.sreg (sNum w.a) ≠ 0 then g.branchTarget w else g.pc.toNat + 8, true)

def execLoop (gl : GloveRef) (w : JFields) (s : State) : Out :=
  .next (s.jump gl 0x06 w (clsOf w.a).isS fun g => g.loopNext w)

/-! ### Scalar -/

/-- The condition of `scmp`: eq with I (R81). -/
def scmpCc (w : JFields) : Nat := if flag52 w then 0 else imf w 26 24

def execScmp (gl : GloveRef) (w : JFields) (s : State) : Out :=
  .next (s.scalar gl 0x07 w (aluLegal w && decide (scmpCc w < 6))
    (onGlove gl fun g =>
      g.setS (sNum w.d) (if (branchCond (scmpCc w) (g.sreg (sNum w.a)) (g.opB w)).getD false then 1 else 0)))

def execAdd (gl : GloveRef) (w : JFields) (s : State) : Out := .next (s.alu gl 0x08 w (· + ·))
def execSub (gl : GloveRef) (w : JFields) (s : State) : Out := .next (s.alu gl 0x09 w (· - ·))
def execMul (gl : GloveRef) (w : JFields) (s : State) : Out := .next (s.alu gl 0x0A w (· * ·))
def execAnd (gl : GloveRef) (w : JFields) (s : State) : Out := .next (s.alu gl 0x0B w (· &&& ·))
def execOr (gl : GloveRef) (w : JFields) (s : State) : Out := .next (s.alu gl 0x0C w (· ||| ·))
def execXor (gl : GloveRef) (w : JFields) (s : State) : Out := .next (s.alu gl 0x0D w (· ^^^ ·))
def execShl (gl : GloveRef) (w : JFields) (s : State) : Out := .next (s.alu gl 0x0E w fun x y => x <<< shamt y)
def execShr (gl : GloveRef) (w : JFields) (s : State) : Out := .next (s.alu gl 0x0F w fun x y => x >>> shamt y)
def execSar (gl : GloveRef) (w : JFields) (s : State) : Out := .next (s.alu gl 0x10 w fun x y => x.sshiftRight (shamt y))

def execLi (gl : GloveRef) (w : JFields) (s : State) : Out :=
  .next (s.scalar gl 0x11 w (clsOf w.d).isS (onGlove gl fun g => g.setS (sNum w.d) (immS w)))

/-- `lih` keeps S[d][33:0]. -/
def lihValue (old : Word) (w : JFields) : Word := BitVec.ofNat 64 (fld old 33 0 + 2 ^ 34 * imf w 29 0)

def execLih (gl : GloveRef) (w : JFields) (s : State) : Out :=
  .next (s.scalar gl 0x12 w (clsOf w.d).isS
    (onGlove gl fun g => g.setS (sNum w.d) (lihValue (g.sreg (sNum w.d)) w)))

/-! ### Register setup -/

def execDset (gl : GloveRef) (w : JFields) (s : State) : Out :=
  .next (s.scalar gl 0x14 w (clsOf w.a).isS
    (onGlove gl fun g => { g with d := vmod g.d (dNum (imf w 3 0)) fun d => Desc.setWord d (imf w 6 4) (g.sreg (sNum w.a)) }))

def execDget (gl : GloveRef) (w : JFields) (s : State) : Out :=
  .next (s.scalar gl 0x15 w (clsOf w.d).isS
    (onGlove gl fun g => g.setS (sNum w.d) (Desc.word g.d[(dNum (imf w 3 0)).val] (imf w 6 4))))

def execPset (gl : GloveRef) (w : JFields) (s : State) : Out :=
  .next (s.scalar gl 0x16 w (clsOf w.a).isS
    (onGlove gl fun g => { g with p := vset g.p (pNum (imf w 2 0)) (g.sreg (sNum w.a)) }))

def execPget (gl : GloveRef) (w : JFields) (s : State) : Out :=
  .next (s.scalar gl 0x17 w (clsOf w.d).isS
    (onGlove gl fun g => g.setS (sNum w.d) g.p[(pNum (imf w 2 0)).val]))

/-- Quarter q of a mask replaced (R82). -/
def maskSet (m : Mask) (q : Nat) (v : Word) : Mask := setFld m (64 * q) 64 v.toNat
/-- Quarter q of a mask. -/
def maskGet (m : Mask) (q : Nat) : Word := m.extractLsb' (64 * q) 64

def execMset (gl : GloveRef) (w : JFields) (s : State) : Out :=
  .next (s.scalar gl 0x18 w ((clsOf w.a).isS && (clsOf w.d).isM)
    (onGlove gl fun g => { g with m := vmod g.m (mNum w.d) fun m => maskSet m (imf w 1 0) (g.sreg (sNum w.a)) }))

def execMget (gl : GloveRef) (w : JFields) (s : State) : Out :=
  .next (s.scalar gl 0x19 w ((clsOf w.a).isM && (clsOf w.d).isS)
    (onGlove gl fun g => g.setS (sNum w.d) (maskGet g.m[(mNum w.a).val] (imf w 1 0))))

/-! ### Bolts, fence, release, special reads -/

/-- The bolt that S[a][11:0] names. -/
def boltOf (g : Glove) (w : JFields) : BoltIx := ⟨fld (g.sreg (sNum w.a)) 11 0, by unfold fld; omega⟩

/-- The wait of a glove at a bolt (R85): it joins the FIFO and waits; PC moves when the wait ends. -/
def State.boltWaitStart (s : State) (gl : GloveRef) (w : JFields) : State :=
  let b := boltOf (s.glv gl) w
  let n := BitVec.ofNat 32 (imf w 15 0)
  let t := imf w 31 16
  let dl := if t = 0 then none else some (s.now + 1000 * t)
  (s.modBolt b fun x => { x with fifo := x.fifo ++ [⟨.glove gl, n, s.now, dl, 0⟩] }).modGlv gl fun g =>
    { g with wait := .bolt b n dl s.now w.d t, state := 2 }

/-- `bwait` (R85, R86, R216): TICK_REACH in a tick run comes before every other check. -/
def execBwait (gl : GloveRef) (w : JFields) (s : State) : Out :=
  .next (if !s.mayIssue gl 0x1A w then s
    else if (s.glv gl).kind = .tick then s.issueFault gl fcReach
    else if !((clsOf w.a).isS && (clsOf w.d).isS && imf w 15 0 != 0) then s.issueFault gl fcIllegal
    else if !(s.glv gl).nextOk then s.issueFault gl fcPcRange
    else if !s.ownsBolt (boltOf (s.glv gl) w) (s.glv gl).tenant then s.issueFault gl fcBolt
    else (s.issue gl).boltWaitStart gl w)

/-- `bsig` (R86): after every earlier access of the glove is done, n is added to the bolt. -/
def execBsig (gl : GloveRef) (w : JFields) (s : State) : Out :=
  .next (s.scalar gl 0x1B w ((clsOf w.a).isS && imf w 15 0 != 0) fun t =>
    let t := t.fenceClean (· == gloveWho gl)
    let b := boltOf (t.glv gl) w
    match t.applySignal b (.glove gl) (imf w 15 0) with
    | some u => .ok (t.traceSignal u b (.glove gl) (imf w 15 0))
    | none => .fault fcBolt)

/-- `fence` holds issue until FABRIC_FENCE_COMPLETE (R87). -/
def execFence (gl : GloveRef) (w : JFields) (s : State) : Out :=
  .next (if !s.mayIssue gl 0x1C w then s
    else if !(s.glv gl).nextOk then s.issueFault gl fcPcRange
    else (s.issue gl).modGlv gl fun g => { g with wait := .fence s.now, state := 2 })

/-- The masks of `trel`. -/
def trelT (w : JFields) : BitVec 16 := BitVec.ofNat 16 (imf w 15 0)
def trelA (w : JFields) : BitVec 4 := BitVec.ofNat 4 (imf w 19 16)

/-- The registers that two masks name. -/
def maskRegs (t : BitVec 16) (a : BitVec 4) : List RegId :=
  ((allFin 16).filter fun i => bitAt t i.val).map .t ++ ((allFin 4).filter fun i => bitAt a i.val).map .a

/-- Whether an in-flight instruction reads or writes a named register (R58). -/
def Glove.uses (g : Glove) (t : BitVec 16) (a : BitVec 4) : Bool :=
  g.inflight.any fun r => meets (maskRegs t a) (readsOf g r.op r.w ++ writesOf r.op r.w)

/-- `trel` (R58, R88): at once when no in-flight instruction uses a named register, else it holds the glove. -/
def execTrel (gl : GloveRef) (w : JFields) (s : State) : Out :=
  .next (if !s.mayIssue gl 0x1D w then s
    else if !(s.glv gl).nextOk then s.issueFault gl fcPcRange
    else if (s.glv gl).uses (trelT w) (trelA w) then
      (s.issue gl).modGlv gl fun g => { g with wait := .trel (trelT w) (trelA w), state := 2 }
    else ((s.issue gl).modGlv gl fun g => g.release (trelT w) (trelA w)).nextPc gl)

/-- The value that `rdsr` reads (R84). -/
def State.rdsrVal (s : State) (gl : GloveRef) (r : Nat) : Word :=
  let g := s.glv gl
  match r with
  | 0 => s.hearth.time
  | 1 => g.launchWord
  | 2 => g.tickEdge
  | 3 => g.elapsed
  | _ => (s.eng gl.e).step.zeroExtend 64

def execRdsr (gl : GloveRef) (w : JFields) (s : State) : Out :=
  .next (s.scalar gl 0x1E w ((clsOf w.d).isS && decide (imf w 7 0 ≤ 4))
    (onGlove gl fun g => g.setS (sNum w.d) (s.rdsrVal gl (imf w 7 0))))

/-- An opcode that no class chapter assigns (R80). -/
def execReservedOpcode (gl : GloveRef) (op : BitVec 8) (w : JFields) (s : State) : Out :=
  .next (s.scalar gl op w false .ok)

/-! ### Events -/

/-- TREL_EFFECT (R58): the release takes effect once no in-flight instruction uses a named register. -/
def execTrelEffect (gl : GloveRef) (s : State) : Out :=
  .next (match (s.glv gl).wait with
    | .trel t a =>
      if (s.glv gl).uses t a then s
      else (s.modGlv gl fun g => { (g.release t a) with wait := .none, state := 1 }).nextPc gl
    | _ => s)

/-- The fabric fence of a glove completes (R29, R87): once every older tile instruction has. -/
def State.fenceDone (s : State) (gl : GloveRef) : State :=
  match (s.glv gl).wait with
  | .fence since =>
    if (s.glv gl).inflight.isEmpty then
      let t := s.trace (engChan gl.e) true false (some (s.glv gl).tenant) 0x03 gl.g.val
        (at_ (min (2 ^ 32 - 1) (s.now - since)) 0)
      ((t.fenceClean (· == gloveWho gl)).modGlv gl fun g => { g with wait := .none, state := 1 }).nextPc gl
    else s
  | _ => s

/-! ### The instruction buffer (R69, R70) -/

/-- Offset of the line that holds PC. -/
def Glove.pcLine (g : Glove) : Nat := g.pc.toNat / 64 * 64

/-- Whether a line may be fetched: the needed one, or one up to 512 bytes ahead, inside the region. -/
def Glove.lineOk (g : Glove) (off : Nat) (ahead : Bool) : Bool :=
  off % 64 == 0 && decide (off + 64 ≤ g.regionLen.toNat) &&
    (if ahead then decide (g.pcLine < off) && decide (off ≤ g.pc.toNat + 512) else off == g.pcLine)

/-- Put a line into the buffer of 64 lines. Which line leaves a full buffer is not stated: the model drops the one filled first (DESIGN CHOICE,
log 63). -/
def Glove.putLine (g : Glove) (l : IBufLine) : Glove := { g with ibuf := (l :: g.ibuf).take 64 }

/-- What a fetch of a line finds: its bytes, or the fault that execution raises when it reaches the line. -/
def State.fetchLine (s : State) (gl : GloveRef) (off : Nat) (ahead : Bool) : Res (IBufLine × State) :=
  let a := (s.glv gl).prog + off
  let o := BitVec.ofNat 32 off
  match s.glovePath gl a 64 .x with
  | .stall w => .stall w
  | .fault c => .ok (⟨o, 0, c⟩, s)
  | .ok _ =>
    if s.heldLine (s.keysOf a 64) || s.fitCount gl (reqsOf a 64 false) [] == 0 then .stall else
    let r := s.accRead { s.gloveSrc gl a with ahead := ahead } a 64
    .ok (⟨o, BitVec.ofNat 512 (ofBytes r.1), if r.2.1 then fcPoison else 0⟩, r.2.2)

/-- A line of the instruction buffer is filled (R69, R70); a fault of it is raised when execution needs the line: while nothing else holds
the glove's next instruction (R83). -/
def State.lineFill (s : State) (gl : GloveRef) (off : Nat) (ahead : Bool) : State :=
  let g := s.glv gl
  let reached (t : State) : Bool := !ahead && t.gloveReady gl
  if !((g.kind == .launch || g.kind == .tick) && g.lineOk off ahead && !g.hang.frozen && !g.swapping && g.dying.isNone) then s
  else match g.ibuf.find? (·.off.toNat == off) with
    | some l => if reached s && l.err != 0 then s.issueFault gl l.err else s
    | none =>
      match s.fetchLine gl off ahead with
      | .ok x =>
        let t := (x.2.modGlv gl fun g => g.putLine x.1).engCnt gl.e (if ahead then 15 else 14) 1
        if reached t && x.1.err != 0 then t.issueFault gl x.1.err else t
      | .fault _ => s
      | .stall w => s.wakeWing w

def execInstructionLineFill (gl : GloveRef) (line : BitVec 32) (ahead : Bool) (s : State) : Out :=
  .next (s.lineFill gl line.toNat ahead)

end Sys2Proof.Machine
end

