-- ==== Sys2Proof/Machine/Bolts.lean ====
section
/-!
DEFINITION. The commands of the bolt unit (R85, R203).
-/
namespace Sys2Proof.Machine

/-- The oldest command of a kind that a stream has started and not completed. -/
def Stream.runningKind (st : Stream) (kind : Nat) : Option (BitVec 32) :=
  (st.cmds.find? fun c => c.phase == .started && recKind c.record == kind).map (·.index)

/-- A signal whose party does not own the bolt (R203): BOLT_ACCESS at a glove, MORE where its instance is
being aborted, NOT_OWNER for a stream. -/
def State.signalRefused (s : State) : BoltParty → State
  | .glove gl => if (s.glv gl).kind != .none && (s.glv gl).dying.isNone then s.issueFault gl fcBolt else s.moreFault gl
  | .stream n =>
    match (s.stream n).runningKind 4 with
    | some i => s.cmdDone n i stNotOwner 0 0
    | none => s

/-- Whether a signal of a party makes a SIGNAL record on channel 16 (R263): of a stream, in MODE SYNC. -/
def State.onHall (s : State) : BoltParty → Bool
  | .glove _ => false
  | .stream n => let ch := s.obs.tch[hallChan.val]; ch.mode == 1 && ch.records (some (s.stream n).tenant)

/-- One signal reaches the bolt (R203, R204). The Hall attic takes one record per fc (R265): after the first of the signals that arrived in
one fc, a record of channel 16 is dropped. -/
def State.signalOne (b : BoltIx) (a : State × Bool) (x : BoltSig) : State × Bool :=
  match a.1.applySignal b x.src x.n.toNat with
  | some t =>
    let hall := t.onHall x.src
    (if hall && a.2 then t.dropRecord hallChan else a.1.traceSignal t b x.src x.n.toNat, a.2 || hall)
  | none => (a.1.signalRefused x.src, a.2)

/-- Signals in the order in which their records are written (R265): glove order, then stream order. -/
def sigInsert (x : BoltSig) : List BoltSig → List BoltSig
  | [] => [x]
  | y :: l => if wakerOf x.src ≤ wakerOf y.src then x :: y :: l else y :: sigInsert x l

/-- BOLT_SIGNAL_APPLY (R203): the signals that arrived in one fc, then the waiters from the head of the FIFO are served by
BOLT_GRANT. -/
def execBoltSignalApply (b : BoltIx) (sigs : List BoltSig) (s : State) : Out :=
  .next (if s.fabricOn then ((sigs.foldr sigInsert []).foldl (State.signalOne b) (s, false)).1 else s)

/-- BOLT_GRANT (R85, R203): the head waiter, when the count reaches its n. -/
def execBoltGrant (b : BoltIx) (s : State) : Out := .next (if s.fabricOn then s.boltServe b else s)

/-- Serve the waiters of a bolt from the head of its FIFO while the count reaches their n, at most k of them (R203). -/
def State.boltServeAll (b : BoltIx) : Nat → State → State
  | 0, s => s
  | k + 1, s =>
    if (s.bolt b).fifo.head?.any (fun x => decide (x.n.toNat ≤ (s.bolt b).count.toNat)) then State.boltServeAll b k (s.boltServe b) else s

/-- The timeout of a waiter (R85, R203): it leaves the FIFO and the count is unchanged. A wait that the count satisfies in the
same fc is satisfied. -/
def State.boltTimeout (s : State) (b : BoltIx) (who : BoltParty) : State :=
  match (s.bolt b).fifo.find? fun w => w.who == who with
  | some w =>
    match w.deadline with
    | some d =>
      let t := s.advanceTo d
      let u := State.boltServeAll b (t.bolt b).fifo.length t
      if (u.bolt b).fifo.any (·.who == who) then (u.withdraw b who).endWait b w false else u
    | none => s
  | none => s

def execBoltWaitTimeout (b : BoltIx) (who : BoltParty) (s : State) : Out :=
  .next (if s.fabricOn then s.boltTimeout b who else s)

end Sys2Proof.Machine
end

