-- ==== Sys2Proof/Machine/Context.lean ====
section
/-!
DEFINITION. Contexts (R65-R68): how a glove stops, the image of a context in its save area, and how it resumes.
-/
namespace Sys2Proof.Machine

/-! ### Stopping (R65, R281) -/

/-- Row steps per row of a record that goes on from its next row. -/
def Rec.perRow (r : Rec) : Nat :=
  match r.op with
  | .pmix | .brev | .pgat => passesOf r.op r.w
  | .sqz | .shist | .sdist | .suniqCnt | .suniq | .shash | .slabel | .sbox | .soct | .snear => spatialPasses r.op r.w
  | _ => 1

/-- TROW: the next row of a stopped record (R65): of its tile rows where it takes a row range, the destination row where that takes several
passes (R96), and the write row of `trn` and of a transposing `relay`, 0 in its read phase (R107). -/
def Rec.trow (r : Rec) : Nat :=
  match r.op with
  | .trn => if r.row < 64 then 0 else r.writeRow
  | .relay => if dperm r.w 0 = 1 then (if r.row < 64 then 0 else r.writeRow) else r.row
  | .mma | .mmas => if r.row < r.aux then row0 r.w + r.start else r.mmaRow
  | .sqz | .shist | .sdist | .suniqCnt | .suniq | .shash | .slabel | .sbox | .soct | .snear => r.row / r.perRow
  | .exch | .dld | .dst | .sld | .sst | .pcomp | .pcompt | .vcmp | .tmark | .cread | .tdig | .copy | .relayout => r.row
  | _ => row0 r.w + r.row / r.perRow

/-- A glove stops issue and the rows in flight end (R65, R281): TROW is recorded, a waiting glove leaves its bolt's FIFO, and locks, banks
and units are given back. -/
def State.stopGlove (s : State) (gl : GloveRef) : State :=
  let s1 := s.leaveBolt gl
  let s2 := ((s1.glv gl).inflight.foldl (fun t r => t.freeRec gl.e r) s1).leaveUnits gl
  s2.modGlv gl fun g =>
    { g with wait := .none, trow := BitVec.ofNat 6 ((g.inflight.head?.map Rec.trow).getD 0), inflight := g.inflight.map Rec.freed }

/-- A glove stops, once the combiner of a `scat` has been sent (R112). An error response of what that sends is a fault of the `scat`, which
is taken in place of the stop (R65, R93). -/
def State.stopOr (s : State) (gl : GloveRef) (f : State → State) : State :=
  let g := s.glv gl
  let x := s.flushCombiner gl 0
  match x.2, g.scatOwner with
  | some c, some i => x.1.gloveFault gl i ⟨c, none, (g.inflight[i]?.map (·.pc)).getD 0⟩
  | _, _ => f (x.1.stopGlove gl)

/-- A record starts again from a row (R68), for the registers of its glove. -/
def resumeRec (g : Glove) (op : TOp) (w : JFields) (pc : BitVec 32) (trow : Nat) : Rec :=
  let ds := match descPrep g op w with
    | .ok l => l
    | _ => []
  let r := { newRec g op w false ds with pc := pc }
  let t := trow - row0 w
  match op with
  | .trn => { r with start := trow, rows := 128 - trow }
  | .relay => if dperm w 0 = 1 then { r with start := trow, rows := 128 - trow } else { r with row := trow }
  | .mma | .mmas => { r with start := t, rows := r.aux + (nrows w - t) }
  | .sqz | .shist | .sdist | .suniqCnt | .suniq | .shash | .slabel | .sbox | .soct | .snear => { r with row := trow * r.perRow }
  | .exch | .dld | .dst | .sld | .sst | .pcomp | .pcompt | .vcmp | .tmark | .cread | .tdig | .copy | .relayout => { r with row := trow }
  | _ => { r with row := t * r.perRow }

/-- The row step from which a stopped COPY or RELAYOUT goes on: the first read of its block where a bank held part of it (R107, R136). -/
def Rec.blockStart (r : Rec) : Nat :=
  if r.op = .relayout ∧ dperm r.w 0 ≠ 0 then
    (if relayoutPieces r.w r.desc = 1 then r.row / 128 * 128 else r.row / 65 * 65)
  else r.row

/-- A record restarts as after a resume: from TROW when it is the oldest, from row 0 otherwise (R68). The running digest of a `tdig` goes
on (log 17). -/
def Glove.restartRec (g : Glove) (k : Nat) (r : Rec) : Rec :=
  let trow := if k = 0 then g.trow.toNat else 0
  match r.op with
  | .copy | .relayout => { r with resp := [], row := r.blockStart }
  | .tdig => if k = 0 then { r with resp := [] } else { resumeRec g r.op r.w r.pc 0 with held := r.held }
  | _ => { resumeRec g r.op r.w r.pc trow with held := r.held }

/-- The records of a glove as they restart (R68, R286). Latches and the B buffer are invalid, and the instruction buffer is empty (R69). -/
def Glove.restart (g : Glove) : Glove :=
  let g := { g with latchA := none, latchB := none, bbuf := none, spatialRows := [], ibuf := [] }
  { g with inflight := g.inflight.mapIdx g.restartRec, resuming := !g.inflight.isEmpty }

/-- A frozen glove is released as ABORT (R286): GFAULT records HANG, with PC of record 0 and ROW = TROW when a record exists;
the launch is aborted, or the tick run ends as at a fault. -/
def State.hangAbort (s : State) (gl : GloveRef) : State :=
  let g := s.glv gl
  let f : FaultInfo := match g.inflight with
    | r :: _ => ⟨fcHang, some g.trow.toNat, r.pc⟩
    | [] => ⟨fcHang, none, g.pc⟩
  (s.dropFrom gl 0).gloveFault gl 0 f

/-! ### The image of a context (R66) -/

/-- The PC word. -/
def Glove.pcWord (g : Glove) : Word :=
  at_ g.pc.toNat 0 ||| at_ g.trow.toNat 32 ||| at_ g.tvalid.toNat 38 ||| at_ g.avalid.toNat 54

/-- In-flight records 0-3: the word, its PC, and the number of records in record 0. -/
def recBytes (l : List Rec) : List Byte :=
  ((List.range 4).map fun k =>
    match l[k]? with
    | some r => toBytes 8 r.word.toNat ++ toBytes 4 r.pc.toNat ++ toBytes 4 (if k = 0 then l.length else 0)
    | none => List.replicate 16 0).flatten

/-- The header of 2,048 bytes. -/
def Glove.header (g : Glove) : List Byte :=
  (g.s.toList.map fun x => toBytes 8 x.toNat).flatten ++ (g.d.toList.map fun x => toBytes 64 x.toNat).flatten
    ++ (g.m.toList.map fun x => toBytes 32 x.toNat).flatten ++ (g.p.toList.map fun x => toBytes 8 x.toNat).flatten
    ++ toBytes 8 g.pcWord.toNat ++ recBytes g.inflight ++ List.replicate 376 0

/-- A tile or accumulator as 64 rows. -/
def Tile.image (t : Tile) : List Byte := ((allFin 64).map fun r => rowBytes (t.row r) 256).flatten

/-- The valid registers in the order of the save area. -/
def Glove.validTiles (g : Glove) : List Tile := (g.tile.toList ++ g.acc.toList).filter (·.valid)

/-- The image that a save writes. -/
def Glove.image (g : Glove) : List Byte := g.header ++ (g.validTiles.map Tile.image).flatten

/-- Bytes of a context's save area (R66). -/
def saveBytes : Nat := 329728

/-- 256-byte rows of a context with v valid registers. -/
def ctxRows (v : Nat) : Nat := 8 + 64 * v

/-- ec that a save or a restore of v valid registers takes (R67). -/
def ctxCost (v : Nat) : Nat := 48 + 16 + 128 * v

/-- A tile from its 64 rows. Every row of a restored register counts as written: the header saves none of the row-written bits, and R57 and
R68 do not say what they are then (DESIGN CHOICE, log 58). -/
def tileOfImage (bs : List Byte) : Tile :=
  { valid := true, written := BitVec.allOnes 64, bad := 0, weak := 0
    rows := Vector.ofFn fun r : Fin 64 => rowOfBytes ((bs.drop (256 * r.val)).take 256) }

/-- Tiles restored in order: a valid one takes the next 16,384 bytes. -/
def tilesOfImage : List Bool → List Byte → List Tile
  | [], _ => []
  | true :: l, bs => tileOfImage (bs.take 16384) :: tilesOfImage l (bs.drop 16384)
  | false :: l, bs => Tile.empty :: tilesOfImage l bs

/-- The valid bits of the PC word, T0-T15 and then A0-A3. -/
def validBits (w : Word) : List Bool := (List.range 20).map fun i => bitAt w (38 + i)

/-- A little-endian field of an image. -/
def imgFld (bs : List Byte) (off n : Nat) : Nat := ofBytes ((bs.drop off).take n)

/-- The records of a header. -/
def recsOfImage (g : Glove) (bs : List Byte) (trow : Nat) : List Rec :=
  (List.range (min 4 (imgFld bs 0x654 4))).filterMap fun k =>
    let w := BitVec.ofNat 64 (imgFld bs (0x648 + 16 * k) 8)
    (topOf w).map fun o =>
      resumeRec g o (fieldsOf w) (BitVec.ofNat 32 (imgFld bs (0x650 + 16 * k) 4)) (if k = 0 then trow else 0)

/-- The glove that a header and its tiles restore (R68); every latch is invalid. -/
def Glove.ofImage (g : Glove) (bs : List Byte) : Glove :=
  let pcw := BitVec.ofNat 64 (imgFld bs 0x640 8)
  let ts := tilesOfImage (validBits pcw) (bs.drop 2048)
  let h := { g with
    s := Vector.ofFn fun i : Fin 32 => BitVec.ofNat 64 (imgFld bs (8 * i.val) 8)
    d := Vector.ofFn fun i : Fin 16 => BitVec.ofNat 512 (imgFld bs (0x100 + 64 * i.val) 64)
    m := Vector.ofFn fun i : Fin 8 => BitVec.ofNat 256 (imgFld bs (0x500 + 32 * i.val) 32)
    p := Vector.ofFn fun i : Fin 8 => BitVec.ofNat 64 (imgFld bs (0x600 + 8 * i.val) 8)
    pc := BitVec.ofNat 32 (fld pcw 31 0)
    trow := BitVec.ofNat 6 (fld pcw 37 32)
    tile := Vector.ofFn fun i : Fin 16 => ts[i.val]?.getD Tile.empty
    acc := Vector.ofFn fun i : Fin 4 => ts[16 + i.val]?.getD Tile.empty
    latchA := none, latchB := none, bbuf := none, ibuf := [], spatialRows := [], combiner := [] }
  let l := recsOfImage h bs (fld pcw 37 32)
  { h with inflight := l, resuming := !l.isEmpty }

/-! ### Moving an image -/

/-- The source of an engine's save traffic: with the QoS of the stream that causes it (R67). -/
def ctxSrc (gl : GloveRef) (t : TenIx) (qos : Nat) : AccSrc := ⟨gl.e.val % 4, some t, false, false, qos, gloveWho gl⟩

/-- Write n rows of 256 bytes, each as an access of its own (R67). -/
def State.writeRows (src : AccSrc) : Nat → Nat → List Byte → State → State
  | 0, _, _, s => s
  | n + 1, a, bs, s => State.writeRows src n (a + 256) (bs.drop 256) (s.accWrite src a (bs.take 256))

/-- Read n rows of 256 bytes, each as an access of its own: what the reads do beside giving their bytes. -/
def State.touchRows (src : AccSrc) : Nat → Nat → State → State
  | 0, _, s => s
  | n + 1, a, s => State.touchRows src n (a + 256) (s.accTouch src (s.keysOf a 256) 0)

/-- Whether the save area answers: BUS_ERR for a target that answers with an error or an address without memory. -/
def State.ctxReady (s : State) (gl : GloveRef) (a n : Nat) : Res Unit :=
  (Res.all ((spots a n).map fun x =>
    match decodeAddr s.hall.remap x with
    | .hbm _ _ | .pantry _ _ | .sram _ => s.readyRes (wingOf gl.e) x
    | _ => .fault fcBus)).bind fun _ => .ok ()

/-- Save the context of a glove at an address with a QoS (R66, R67): the image in memory, SWAP_EC. -/
def State.ctxSave (s : State) (gl : GloveRef) (a qos : Nat) : Res State :=
  let g := s.glv gl
  let v := g.validTiles.length
  (s.ctxReady gl a (2048 + 16384 * v)).bind fun _ =>
    .ok ((s.writeRows (ctxSrc gl g.tenant qos) (ctxRows v) a g.image).addWork gl.e 4 (ctxCost v))

/-- Read the context saved at an address into a glove's registers (R67, R68): the rows read. -/
def State.ctxLoad (s : State) (gl : GloveRef) (a qos : Nat) : Res (Nat × State) :=
  let g := s.glv gl
  (s.ctxReady gl a 2048).bind fun _ =>
    let v := ((validBits (BitVec.ofNat 64 (ofBytes (s.physBytes (a + 0x640) 8)))).filter id).length
    let n := 2048 + 16384 * v
    (s.ctxReady gl a n).bind fun _ =>
      if s.poisoned a n then .fault fcPoison
      else
        let t := s.touchRows (ctxSrc gl g.tenant qos) (ctxRows v) a
        .ok (ctxRows v, (t.modGlv gl fun g => g.ofImage (s.physBytes a n)).addWork gl.e 4 (ctxCost v))

/-- SAVE_ERR (R347): the context is discarded and its launch completes FAULT with BUS_ERR or POISON; `row` is TROW of record 0. -/
def State.saveErr (s : State) (gl : GloveRef) (c : Byte) : State :=
  let g := s.glv gl
  let t := s.report { code := 0x52, scope := 3, unit := gl.e.val, tenant := some g.tenant }
  match g.kind with
  | .none => t.modGlv gl fun g => g.clearRegs.empty
  | _ => (t.dropFrom gl 0).gloveFault gl 0 ⟨c, none, g.pc⟩

end Sys2Proof.Machine
end

