-- ==== Sys2Proof/Machine/Streams.lean ====
section
/-!
DEFINITION. Streams (R193-R196, R206): rings, the commands that are fetched, which command may start, aborts and drains.
-/
namespace Sys2Proof.Machine

/-! ### Rings (R195) -/

/-- SIZE of a stream's rings. -/
def Stream.size (st : Stream) : Nat := 2 ^ (st.logSize.toNat + 4)
/-- Address of the record of command i. -/
def Stream.recAddr (st : Stream) (i : BitVec 32) : Nat := st.ringBase.toNat + 64 * (i.toNat % st.size)
/-- Address of the completion of command i. -/
def Stream.cplAddr (st : Stream) (i : BitVec 32) : Nat := st.complBase.toNat + 32 * (i.toNat % st.size)
/-- Commands up to TAIL that are not fetched. -/
def Stream.unfetched (st : Stream) : Nat := (st.tail - st.fetchIx).toNat
/-- HEAD: the oldest command not complete (R195, R207). -/
def Stream.oldest (st : Stream) : BitVec 32 :=
  match st.cmds with
  | c :: l => l.foldl (fun m x => if (x.index - st.head).toNat < (m - st.head).toNat then x.index else m) c.index
  | [] => st.fetchIx

/-- HEAD follows the commands. -/
def State.setHead (s : State) (n : StrmIx) : State := s.modStream n fun st => { st with head := st.oldest }

/-- The port of a stream's tenant. -/
def State.streamPort (s : State) (n : StrmIx) : MbIx := (s.tenant (s.stream n).tenant).port

/-- A command as it is fetched. -/
def newCmd (i : BitVec 32) (r : BitVec 512) : Cmd :=
  { index := i, record := r, phase := .fetched, status := 0, detail := 0, detail2 := 0, spilled := false, readyAt := 0,
    boundAt := 0, swapAt := 0, quiet := false, align := false }

/-- The source of the scheduler's accesses for a stream: with its QoS (R194). At a wing it is a master of HI (the table before R34). -/
def schedSrc (st : Stream) : AccSrc := ⟨7, some st.tenant, false, false, st.qos.toNat, 69⟩

/-- RING_ERR (R347): the stream is in ERROR. -/
def State.ringErr (s : State) (n : StrmIx) : State :=
  (s.modStream n fun st => { st with state := 4 }).report
    { code := 0x48, scope := 2, tenant := some (s.stream n).tenant, unit := (s.streamPort n).val, info := n.val }

/-! ### Which command may start (R196) -/

/-- Whether a kind ignores OVERLAP. -/
def ignoresOverlap (kind : Nat) : Bool := kind == 4 || kind == 5 || kind == 9

/-- Whether a fetched command may start now; under DRAIN those that are fetched run to completion, whatever stopped the stream (R206). -/
def Stream.mayStart (st : Stream) (c : Cmd) : Bool :=
  st.isOpen && (st.state == 0 || st.draining) && c.phase == .fetched && decide ((st.cmds.filter Cmd.started).length < 8) &&
    match st.cmd? (c.index - 1) with
    | none => true
    | some p => recFlag c.record 2 && !ignoresOverlap (recKind c.record) && p.started

/-- The ready command of a stream. -/
def Stream.ready (st : Stream) : Option Cmd := st.cmds.find? st.mayStart

/-- Whether a tenant has a ready command (R201). -/
def State.tenActive (s : State) (t : TenIx) : Bool :=
  s.ten.streams.toList.any fun st => st.isOpen && st.tenant == t && st.cmds.any fun c => c.readyAt != 0

/-- The lowest virtual time of the active tenants. -/
def State.lowestVt (s : State) : Option Nat :=
  (((allFin 64).filter s.tenActive).map fun t => (s.ten.vt[t.val]'(by omega))).min?

/-- A tenant becomes active at the scheduler (R201). -/
def State.activate (s : State) (t : TenIx) : State :=
  match s.lowestVt with
  | some m => s.modTen fun x => { x with vt := vmod x.vt ⟨t.val, by omega⟩ (max m) }
  | none => s

/-- Bring the readiness of a stream's commands up to date (R200, R201). -/
def State.refresh (s : State) (n : StrmIx) : State :=
  let st := s.stream n
  let clear (keep : Option (BitVec 32)) (s : State) : State :=
    s.modStream n fun st => { st with cmds := st.cmds.map fun c => if some c.index = keep then c else { c with readyAt := 0 } }
  match st.ready with
  | none => clear none s
  | some c =>
    let s1 := clear (some c.index) s
    if c.readyAt ≠ 0 then s1
    else
      let s2 := if s1.tenActive st.tenant then s1 else s1.activate st.tenant
      s2.modCmd n c.index fun c => { c with readyAt := s.now + 1 }

/-! ### Aborts and drains (R206) -/

/-- QUEUE_NS of a command: from the doorbell that named it to its bind (R199). -/
def State.queueNs (s : State) (n : StrmIx) (c : Cmd) : Nat :=
  match (s.stream n).doors.find? fun d => decide ((d.1 - 1 - c.index).toNat < 2 ^ 31) with
  | some d => min (2 ^ 32 - 1) (c.boundAt - d.2)
  | none => 0

/-- SWAP_NS of a command: from the start of the swap made for it to the start of its work. -/
def State.swapNs (s : State) (c : Cmd) : Nat := if c.swapAt = 0 then 0 else min (2 ^ 32 - 1) (s.now - (c.swapAt - 1))

/-- Mark a launch as aborted without a fault. -/
def State.markAborted (s : State) (n : StrmIx) (i : BitVec 32) : State := s.modLaunch n i fun l => { l with aborted := true }

/-- A DISARM_TICK that is aborted: the disarming goes on without it. -/
def State.forgetDisarm (s : State) (n : StrmIx) (i : BitVec 32) : State :=
  (allFin 16).foldl (fun t e =>
    if (t.eng e).tick.disarm = some (some (n, i)) then t.modTick e fun x => { x with disarm := some none } else t) s

/-- DETAIL2 of a LAUNCH that has been bound: QUEUE_NS and SWAP_NS (R199). -/
def State.boundDetail (s : State) (n : StrmIx) (c : Cmd) : Word :=
  if recKind c.record = 1 ∧ c.started then at_ (s.queueNs n c) 0 ||| at_ (s.swapNs c) 32 else 0

/-- A command is ended by an abort: its launch is aborted, its wait withdrawn; it completes ABORTED (R199, R206). `quiet`: the abort is of
its whole stream, which returns to IDLE or closes (R196). -/
def State.abortCmd (quiet : Bool) (n : StrmIx) (s : State) (c : Cmd) : State :=
  let s0 := s.modCmd n c.index fun c => { c with quiet := c.quiet || quiet }
  if c.phase = .done then s0
  else
    let hung := allGloves.filter fun gl => (s0.glv gl).hang.frozen && (s0.glv gl).runs n c.index
    let s0 := hung.foldl State.hangAbort s0
    let s1 := if (s0.launchOf n c.index).isSome then (s0.markAborted n c.index).abortLaunch n c.index else s0
    let s2 := if recKind c.record = 5 ∧ c.started then s1.withdraw ⟨recFld c.record 8 2 % 4096, by omega⟩ (.stream n) else s1
    (s2.forgetDisarm n c.index).cmdDone n c.index stAborted 0 (s.boundDetail n c)

/-- The records of k commands from index i on, as an abort reads them for TAG and IRQ (log 18). -/
def State.readRecords (n : StrmIx) : Nat → BitVec 32 → State → List Cmd × State
  | 0, _, s => ([], s)
  | k + 1, i, s =>
    let st := s.stream n
    let port := s.streamPort n
    let r := if st.loc then s.accRead (schedSrc st) (st.recAddr i) 64 |> fun x => (x.1, x.2.2)
      else if h : port.val < 4 then s.hostRead ⟨port.val, h⟩ (st.recAddr i) 64 else ([], s)
    let rest := State.readRecords n k (i + 1) r.2
    ({ newCmd i (BitVec.ofNat 512 (ofBytes r.1)) with phase := .done, status := stAborted, quiet := true } :: rest.1, rest.2)

/-- Whether the rings of a stream can be reached: Hall SRAM, or host memory of a port that carries requests. -/
def State.ringReach (s : State) (n : StrmIx) : Bool :=
  (s.stream n).loc || (let p := s.streamPort n; if h : p.val < 4 then (s.port ⟨p.val, h⟩).carries else false)

/-- Every command up to TAIL that is not fetched completes ABORTED; records that cannot be read give none (R206). -/
def State.abortUnfetched (s : State) (n : StrmIx) : State :=
  let st := s.stream n
  let r := if s.ringReach n then State.readRecords n st.unfetched st.fetchIx s else ([], s)
  r.2.modStream n fun st => { st with cmds := st.cmds ++ r.1, fetchIx := st.tail }

/-- The effect of ABORT on a stream. -/
def State.abortStream (s : State) (n : StrmIx) : State :=
  let s1 := (s.stream n).cmds.foldl (State.abortCmd true n) s
  ((s1.abortUnfetched n).modStream n fun st => { st with draining := false }).setHead n

/-- The effect of DRAIN on a stream: fetched commands run on; with LOC = 0 the others complete ABORTED (log 18). -/
def State.drainStream (s : State) (n : StrmIx) : State :=
  let s1 := if (s.stream n).loc then s else s.abortUnfetched n
  (s1.modStream n fun st => { st with draining := true, began := s.now }).setHead n

/-- Treat a stream under its abort policy. -/
def State.treatStream (s : State) (n : StrmIx) : State :=
  if (s.stream n).abort then s.abortStream n else s.drainStream n

/-- Whether a stream is idle: every command up to TAIL is complete. -/
def Stream.idle (st : Stream) : Bool := st.cmds.isEmpty && st.fetchIx == st.tail

/-- DRAIN_LIMIT in ns. -/
def State.drainLimit (s : State) : Nat := fld s.ten.schedCtl 31 16 * 100000

/-- STATE of a stream (R207): 0 idle, 1 active, 2 waiting, 3 paused, 4 error, 5 draining. -/
def Stream.stateCode (st : Stream) : Nat :=
  if !st.isOpen then 0
  else if st.state = 4 then 4
  else if st.draining then 5
  else if st.state = 3 then 3
  else if st.cmds.any fun c => c.phase == .running && recKind c.record == 5 then 2
  else if st.idle then 0 else 1

/-! ### Fetch -/

/-- Whether the scheduler fetches the next record of a stream: at most eight commands are held. -/
def State.mayFetch (s : State) (n : StrmIx) : Bool :=
  let st := s.stream n
  s.fabricOn && st.isOpen && st.state != 4 && st.fetchIx != st.tail && decide (st.cmds.length < 8) && (!st.draining || st.loc)

/-- A record arrives. -/
def State.takeRecord (s : State) (n : StrmIx) (r : BitVec 512) : State :=
  ((s.modStream n fun st => { st with cmds := st.cmds ++ [newCmd st.fetchIx r], fetchIx := st.fetchIx + 1 }).setHead n).refresh n

/-- The fetch of a record fails: no completion is written for that command (R347). -/
def State.failRecord (s : State) (n : StrmIx) : State :=
  (((s.modStream n fun st => { st with fetchIx := st.fetchIx + 1 }).setHead n).ringErr n).refresh n

/-- Readiness of a target for the scheduler, a Hall master. -/
def State.schedReady (s : State) (a : Nat) : Ready := s.ready none a

/-- The same for a write: the boot ROM, where the ring may stand after a change of REMAP, takes none. -/
def State.schedWrReady (s : State) (a : Nat) : Ready :=
  match decodeAddr s.hall.remap a, s.schedReady a with
  | .rom _, .ok => .busErr
  | _, r => r

/-- COMMAND_FETCH (R195, R347): from Hall SRAM, or from host memory as the operand gives the record. -/
def State.fetch (s : State) (n : StrmIx) (hostRecord : BitVec 512) (err : Bool) : State :=
  let st := s.stream n
  if !s.mayFetch n then s
  else if st.loc then
    match s.schedReady (st.recAddr st.fetchIx) with
    | .stall => s
    | .busErr => s.failRecord n
    | .ok =>
      let r := s.accRead (schedSrc st) (st.recAddr st.fetchIx) 64
      if r.2.1 then r.2.2.failRecord n else r.2.2.takeRecord n (BitVec.ofNat 512 (ofBytes r.1))
  else if err || !s.ringReach n then s.failRecord n
  else s.takeRecord n hostRecord

def execCommandFetch (n : StrmIx) (hostRecord : BitVec 512) (err : Bool) (s : State) : Out := .next (s.fetch n hostRecord err)

/-! ### The doorbell page (R195, R196) -/

/-- Whether a writer reaches a stream's doorbell page: its tenant's port, or the manager (R186). -/
def State.ownsDoorbell (s : State) (w : Writer) (n : StrmIx) : Bool := writerMb w == s.streamPort n || s.isManager w

/-- Whether doorbell writes to a stream have effect: open, and neither it nor its tenant is being evicted (R205). -/
def State.doorOpen (s : State) (w : Writer) (n : StrmIx) : Bool :=
  let st := s.stream n
  s.fabricOn && st.isOpen && s.ownsDoorbell w n && !(s.tenant st.tenant).evicting && st.reply.isNone

/-- A write of TAIL (R195). A TAIL behind the one in force is ignored (log 19). -/
def State.doorbell (s : State) (n : StrmIx) (tail : BitVec 32) : State :=
  let s1 := s.modStream n fun st => { st with tailReg := tail }
  let st := s1.stream n
  if st.size < (tail - st.head).toNat then s1.modStream n fun st => { st with state := 4, doorbellBad := true }
  else if (tail - st.head).toNat < (st.tail - st.head).toNat then s1
  else s1.modStream n fun st =>
    { st with tail := tail, doors := if tail = st.tail then st.doors else st.doors ++ [(tail, s.now)] }

/-- A write to a stream's doorbell page: a port that does not own the stream is refused (R180, R324); on a page without effect
nothing happens. -/
def State.atDoorbell (s : State) (w : Writer) (n : StrmIx) (f : State → State) : State :=
  if !s.fabricOn then s
  else if !((s.stream n).isOpen && s.ownsDoorbell w n) && !s.isManager w then s.refuseWrite w
  else if s.doorOpen w n then f s else s

def execStreamDoorbell (by_ : Writer) (n : StrmIx) (tail : BitVec 32) (s : State) : Out :=
  .next (s.atDoorbell by_ n fun s => s.doorbell n tail)

/-- CTL.RESUME (R196): the stream goes on with the next command. -/
def State.resume (s : State) (n : StrmIx) : State := (s.modStream n fun st => { st with state := 0, doorbellBad := false }).refresh n

def execStreamResume (by_ : Writer) (n : StrmIx) (s : State) : Out :=
  .next (s.atDoorbell by_ n fun s => (s.modStream n fun st => { st with ctl := 1 }).resume n)

/-- A drain that CTL.ABORT began ends when the stream is idle (R196). -/
def State.drainOver (s : State) (n : StrmIx) : State :=
  let st := s.stream n
  if st.idle && st.reply.isNone && !(s.tenant st.tenant).evicting then s.modStream n fun st => { st with draining := false } else s

/-- CTL.ABORT (R196): every command up to TAIL under the abort policy; the stream returns to IDLE. -/
def State.ctlAbort (s : State) (n : StrmIx) : State :=
  (((s.modStream n fun st => { st with state := 0 }).treatStream n).drainOver n).refresh n

def execStreamAbort (by_ : Writer) (n : StrmIx) (s : State) : Out :=
  .next (s.atDoorbell by_ n fun s => (s.modStream n fun st => { st with ctl := 2 }).ctlAbort n)

/-- CTL.PAUSE (R196). A stream in ERROR stays there. -/
def State.pause (s : State) (n : StrmIx) : State :=
  (s.modStream n fun st => { st with state := if st.state = 4 then 4 else 3 }).refresh n

def execStreamPause (by_ : Writer) (n : StrmIx) (s : State) : Out :=
  .next (s.atDoorbell by_ n fun s => (s.modStream n fun st => { st with ctl := 4 }).pause n)

end Sys2Proof.Machine
end

