-- ==== Sys2Proof/Machine/Scheduler.lean ====
section
/-!
DEFINITION. The scheduler (R190-R192, R200, R201): which ready command is bound next, on which glove, and which context is
swapped out (R65-R68).
-/
namespace Sys2Proof.Machine

/-! ### Leases and gloves of a command -/

/-- The lease that a command names, when its stream's tenant holds it (R198). -/
def State.cmdLease (s : State) (n : StrmIx) (c : Cmd) : Option LeaseIx :=
  match recLease c.record with
  | some v => if h : v < 512 then
      if (s.lease ⟨v, h⟩).valid && (s.lease ⟨v, h⟩).tenant == (s.stream n).tenant then some ⟨v, h⟩ else none
    else none
  | none => none

/-- Whether a command runs on a glove. -/
def Cmd.onGlove (c : Cmd) : Bool := let k := recKind c.record; k == 1 || k == 2 || k == 3

/-- The glove lease whose context is resident on a glove. -/
def State.holder (s : State) (gl : GloveRef) : Option LeaseIx :=
  (allFin 512).find? fun n =>
    let l := s.lease n
    l.valid && l.kind == 0 && l.engine == gl.e && l.resident == some gl.g

/-- Whether nothing runs on a glove and it is not frozen. -/
def State.gloveIdle (s : State) (gl : GloveRef) : Bool :=
  let g := s.glv gl
  g.kind == .none && g.state == 0 && !g.hang.frozen && !g.hang.freezing && !g.swapping

/-- The lowest free glove among 0-2 of an engine (R192). -/
def State.freeGlove (s : State) (e : EngIx) : Option GlvIx :=
  [0, 1, 2].find? fun g => (s.holder ⟨e, g⟩).isNone && s.gloveIdle ⟨e, g⟩

/-- Whether a started command other than one names a lease for work on a glove. -/
def State.leaseClaimed (s : State) (but : Option (StrmIx × BitVec 32)) (l : LeaseIx) : Bool :=
  (allFin 512).any fun m =>
    (s.stream m).isOpen && (s.stream m).tenant == (s.lease l).tenant && (s.stream m).cmds.any fun c =>
      c.phase == .started && c.onGlove && recLease c.record == some l.val && but != some (m, c.index)

/-- Whether the context of a glove lease runs, is being swapped or is claimed by another command. -/
def State.ctxBusy (s : State) (n : StrmIx) (i : BitVec 32) (l : LeaseIx) : Bool :=
  let x := s.lease l
  x.savedRun.isSome || s.leaseClaimed (some (n, i)) l ||
    match x.resident with
    | some g => !s.gloveIdle ⟨x.engine, g⟩
    | none => false

/-- Whether a saved launch takes a free glove ahead of a command of a class that has waited since a time (R192): one of a higher class,
one of the same class that rule 2 swapped out, or one that has waited longer (DESIGN CHOICE, log 59). -/
def State.savedFirst (s : State) (r : SavedRun) (cls since : Nat) : Bool :=
  let c := (s.stream r.strm).cls.toNat
  decide (c < cls) || (c == cls && (r.lower || decide (r.savedAt < since)))

/-- Whether a saved context with a launch in progress takes the free gloves of an engine first. -/
def State.savedWaits (s : State) (e : EngIx) (cls since : Nat) : Bool :=
  s.ten.leases.toList.any fun l => l.valid && l.engine == e && match l.savedRun with
    | some r => s.savedFirst r cls since
    | none => false

/-- The glove on which a command of a glove lease can be bound. -/
def State.spot (s : State) (n : StrmIx) (c : Cmd) (l : LeaseIx) : Option GlvIx :=
  let x := s.lease l
  if s.ctxBusy n c.index l then none
  else match x.resident with
    | some g => some g
    | none => if s.savedWaits x.engine (s.stream n).cls.toNat (c.readyAt - 1) then none else s.freeGlove x.engine

/-- The gloves of an engine lease on which nothing runs, in order. -/
def State.idleOf (s : State) (l : LeaseIx) : List GloveRef :=
  allGloves.filter fun gl => bitAt (s.lease l).emask gl.e.val && s.gloveIdle gl

/-- Whether a ready command can be bound now. -/
def State.bindable (s : State) (n : StrmIx) (c : Cmd) : Bool :=
  if !c.onGlove then true
  else match s.cmdLease n c with
    | none => true
    | some l =>
      if (s.lease l).freeing.isSome then false
      else if (s.lease l).kind = 2 then true
      else if (s.lease l).kind = 1 then !(s.idleOf l).isEmpty
      else (s.spot n c l).isSome

/-! ### The choice (R200, R201) -/

/-- Ready commands: one per stream at most. -/
def State.readyList (s : State) : List (StrmIx × Cmd) :=
  (allFin 512).filterMap fun n => (s.stream n).ready.map fun c => (n, c)

/-- Distance of v from a pointer, going up with wrap, of m numbers. -/
def dist (m p v : Nat) : Nat := (v + m - p) % m

/-- The first element with the least key. -/
def least {α : Type} (f : α → Nat) : List α → Option α
  | [] => none
  | x :: l => match least f l with
    | some y => if f x ≤ f y then some x else some y
    | none => some x

/-- The command that R200 takes: overdue ones by age, else by class, virtual time, tenant pointer and stream rotation. -/
def State.choose (s : State) (l : List (StrmIx × Cmd)) : Option (StrmIx × Cmd) :=
  match l.filter fun x => x.2.readyAt != 0 && decide (x.2.readyAt - 1 + 1000000 ≤ s.now) with
  | x :: r => least (fun y => y.2.readyAt) (x :: r)
  | [] =>
    match least (fun x => (s.stream x.1).cls.toNat) l with
    | none => none
    | some y =>
      let l1 := l.filter fun x => (s.stream x.1).cls == (s.stream y.1).cls
      let vt (x : StrmIx × Cmd) : Nat := (s.ten.vt[(s.stream x.1).tenant.val]?).getD 0
      match least vt l1 with
      | none => none
      | some z =>
        let l2 := l1.filter fun x => vt x == vt z
        match least (fun x => dist 65 s.ten.tptr.val (s.stream x.1).tenant.val) l2 with
        | none => none
        | some u =>
          let t := (s.stream u.1).tenant
          least (fun x => dist 512 (s.ten.strmPtr[t.val]).val x.1.val) (l2.filter fun x => (s.stream x.1).tenant == t)

/-! ### Swap-out (R65, R192) -/

/-- The contexts on gloves 0-2 of an engine that can be swapped out: a holder, not frozen, not swapping, not claimed. -/
def State.swappable (s : State) (e : EngIx) : List GloveRef :=
  ([0, 1, 2].map fun g => (⟨e, g⟩ : GloveRef)).filter fun gl =>
    let g := s.glv gl
    !g.hang.frozen && !g.hang.freezing && !g.swapping && g.dying.isNone && match s.holder gl with
      | some l => !(g.kind == .none && s.leaseClaimed none l)
      | none => false

/-- Class of the launch that runs on a glove. -/
def State.gloveCls (s : State) (gl : GloveRef) : Nat := (s.stream (s.glv gl).strm).cls.toNat

/-- SLICE in ns. -/
def State.slice (s : State) : Nat := fld s.ten.schedCtl 15 0 * 1000

/-- Whether a running context has used its slice while a launch waited since a time. -/
def State.sliceOver (s : State) (since : Nat) (gl : GloveRef) : Bool :=
  decide ((s.glv gl).boundAt.toNat + s.slice ≤ s.now) && decide (since + s.slice ≤ s.now)

/-- The context that R192 swaps out for a launch of a class that has waited since a time, and whether rule 2 chose it. -/
def State.victim (s : State) (e : EngIx) (cls since : Nat) : Option (GloveRef × Bool) :=
  let l := s.swappable e
  let bound (gl : GloveRef) : Nat := (s.glv gl).boundAt.toNat
  match least bound (l.filter fun gl => (s.glv gl).kind == .none) with
  | some gl => some (gl, false)
  | none =>
    let lower := l.filter fun gl => decide (cls < s.gloveCls gl)
    match least (fun gl => 4 - s.gloveCls gl) lower with
    | some gl => (least bound (lower.filter fun x => s.gloveCls x == s.gloveCls gl)).map (·, true)
    | none => (least bound (l.filter fun gl => s.gloveCls gl == cls && s.sliceOver since gl)).map (·, false)

/-- A swap-out begins for a stream (R65): the glove stops issue and its rows in flight end. -/
def State.beginSwap (s : State) (gl : GloveRef) (qos : BitVec 4) (lower : Bool) : State :=
  s.stopOr gl fun t => t.modGlv gl fun g =>
    { g with swapping := true, state := 3, swapQos := qos, swapLower := lower
             inflight := g.inflight.mapIdx fun k r => if k = 0 then r else { r with row := 0 } }

/-- Whether a swap is in progress on gloves 0-2 of an engine. -/
def State.swapOn (s : State) (e : EngIx) : Bool := [0, 1, 2].any fun g => (s.glv ⟨e, g⟩).swapping

/-- CONTEXT_SWAP_OUT for a ready command of a glove lease that finds no glove (R192). -/
def State.swapFor (s : State) (n : StrmIx) (c : Cmd) : State :=
  match s.cmdLease n c with
  | none => s
  | some l =>
    let x := s.lease l
    if !c.onGlove || x.kind != 0 || x.freeing.isSome || s.ctxBusy n c.index l || x.resident.isSome || (s.freeGlove x.engine).isSome
        || s.swapOn x.engine then s
    else match s.victim x.engine (s.stream n).cls.toNat (c.readyAt - 1) with
      | some (gl, lower) => (s.beginSwap gl (s.stream n).qos lower).modCmd n c.index fun c =>
          { c with swapAt := if c.swapAt = 0 then s.now + 1 else c.swapAt }
      | none => s

/-- The saved launch that resumes next on an engine: highest class, longest saved. -/
def State.nextSaved (s : State) (e : EngIx) : Option (LeaseIx × SavedRun) :=
  let l := (allFin 512).filterMap fun n =>
    if (s.lease n).valid && (s.lease n).engine == e then (s.lease n).savedRun.map fun r => (n, r) else none
  match least (fun x => (s.stream x.2.strm).cls.toNat) l with
  | some y => least (fun x => x.2.savedAt) (l.filter fun x => (s.stream x.2.strm).cls == (s.stream y.2.strm).cls)
  | none => none

/-- CONTEXT_SWAP_OUT for the saved launch of an engine that resumes next and finds no glove: it waits like any launch (R192, R239). -/
def State.swapSaved (s : State) (e : EngIx) : State :=
  match s.nextSaved e with
  | some (_, r) =>
    if (s.freeGlove e).isSome || s.swapOn e then s
    else match s.victim e (s.stream r.strm).cls.toNat r.savedAt with
      | some (gl, lower) => s.beginSwap gl (s.stream r.strm).qos lower
      | none => s
  | none => s

/-! ### Bind -/

/-- Virtual time of a bound command: 256 bytes (R201). -/
def bindCost (share : BitVec 8) : Nat := (65536 + share.toNat - 1) / max 1 share.toNat

/-- The bind of a command: pointers and virtual time, the glove of a glove lease, the wake of its engine, the BEGIN record. -/
def State.bind (s : State) (n : StrmIx) (c : Cmd) : State :=
  let t := (s.stream n).tenant
  let s1 := s.modTen fun x => { x with
    vt := vmod x.vt ⟨t.val, by omega⟩ (· + bindCost (s.tenant t).share)
    tptr := ⟨(t.val + 1) % 65, by omega⟩
    strmPtr := vset x.strmPtr t (n + 1) }
  let s2 := (s1.hallCnt hallSchedBinds 1).modCmd n c.index fun c => 
    { c with phase := .started, readyAt := 0, boundAt := s.now, align := (s.stream n).align }
  let s3 := match s.cmdLease n c with
    | some l =>
      let x := s.lease l
      if c.onGlove && x.kind == 0 then
        match s.spot n c l with
        | some g => (s2.modLease l fun y => { y with resident := some g }).engineWake x.engine
        | none => s2
      else if c.onGlove && x.kind == 1 then (match s.idleOf l with
        | gl :: _ => s2.engineWake gl.e
        | [] => s2)
      else if recKind c.record = 6 then s2.engineWake x.engine
      else s2
    | none => s2
  (s3.trace hallChan false true (some t) 0x04 n.val (beginWord n 0 false (recTag c.record) c.index)).refresh n

/-- COMMAND_BIND (R200): the swap-outs that the first ready command and the saved launches need begin; the first that can be bound is. -/
def execCommandBind (s : State) : Out :=
  .next (if !s.fabricOn then s
    else
      let s1 := match s.choose s.readyList with
        | some x => if s.bindable x.1 x.2 then s else s.swapFor x.1 x.2
        | none => s
      let s1 := (allFin 16).foldl State.swapSaved s1
      match s1.choose (s1.readyList.filter fun x => s1.bindable x.1 x.2) with
      | some x => s1.bind x.1 x.2
      | none => s1)

/-- SLICE_EXPIRY (R192): a running context has run SLICE µs while a command of its class, or a saved launch, waited. -/
def State.sliceExpiry (s : State) (gl : GloveRef) : State :=
  let waits := s.readyList.filter fun x =>
    !s.bindable x.1 x.2 && (s.stream x.1).cls.toNat == s.gloveCls gl && match s.cmdLease x.1 x.2 with
      | some l => (s.lease l).kind == 0 && (s.lease l).engine == gl.e
      | none => false
  if (s.glv gl).kind = .none then s
  else match s.choose waits, s.nextSaved gl.e with
    | some x, _ => (s.advanceTo (max (s.glv gl).boundAt.toNat (x.2.readyAt - 1) + s.slice)).swapFor x.1 x.2
    | none, some (_, r) =>
      if (s.stream r.strm).cls.toNat = s.gloveCls gl then
        (s.advanceTo (max (s.glv gl).boundAt.toNat r.savedAt + s.slice)).swapSaved gl.e
      else s
    | none, none => s

def execSliceExpiry (gl : GloveRef) (s : State) : Out := .next (if s.fabricOn then s.sliceExpiry gl else s)

/-! ### Save and restore (R66-R68) -/

/-- Address of the save slot of a lease (R191). -/
def State.slotAddr (s : State) (l : LeaseIx) : Nat :=
  let x := s.lease l
  fld (s.ten.save[(wingOf x.engine).val]) 47 0 + saveBytes * x.slot.toNat

/-- The SWAP record of a glove. -/
def State.traceSwap (s : State) (gl : GloveRef) (into : Bool) (rows : Nat) : State :=
  s.trace (engChan gl.e) false true (some (s.glv gl).tenant) 0x06 gl.g.val (at_ (b2n into) 0 ||| at_ rows 16)

/-- What the scheduler keeps of the launch on a glove: with a COPY or RELAYOUT its record, with a `tdig` in flight its running digest (log
17). -/
def Glove.savedRun (g : Glove) (gl : GloveRef) (now : Nat) : Option SavedRun :=
  if g.kind = .none then none
  else some ⟨g.strm, g.cmdIx, gl, g.rank, g.launchWord, g.elapsed, g.prog, g.regionLen, g.align, now, g.swapLower,
    if g.kind = .launch then g.inflight.head?.toList.filter (·.op == .tdig) else g.inflight⟩

/-- SWAP_SAVE (R65-R67): once every response has returned, the context is written to its slot and the glove is free. -/
def State.swapSave (s : State) (gl : GloveRef) : State :=
  let g := s.glv gl
  if !(g.swapping && g.inflight.all (·.resp.isEmpty)) then s
  else match s.holder gl with
    | none => s
    | some l =>
      match s.ctxSave gl (s.slotAddr l) g.swapQos.toNat with
      | .stall v => s.wakeWing v
      | .fault c => (s.saveErr gl c).modLease l fun x => { x with resident := none, saved := false, savedRun := none }
      | .ok t =>
        let rows := ctxRows g.validTiles.length
        let t1 := (t.traceSwap gl false rows).modGlv gl fun g =>
          { g.clearRegs.empty with pc := 0, lastSave := BitVec.ofNat 16 rows, swaps := g.swaps + 1 }
        t1.modLease l fun x => { x with resident := none, saved := true, savedRun := g.savedRun gl s.now }

def execSwapSave (gl : GloveRef) (s : State) : Out := .next (if s.fabricOn then (s.swapSave gl).sealSweep else s)

/-- A ready command that takes a glove of an engine ahead of a saved launch. -/
def State.higherWaits (s : State) (e : EngIx) (r : SavedRun) : Bool :=
  s.readyList.any fun x => !s.savedFirst r (s.stream x.1).cls.toNat (x.2.readyAt - 1) && x.2.onGlove && match s.cmdLease x.1 x.2 with
    | some l => (s.lease l).kind == 0 && (s.lease l).engine == e && s.bindable x.1 x.2
    | none => false

/-- What runs on a glove for a command kind. -/
def runKindOf (kind : Nat) : RunKind := if kind = 2 then .copy else if kind = 3 then .relayout else .launch

/-- The records that the scheduler has kept go on: those of a COPY or RELAYOUT, or the running digest of a `tdig`. -/
def Glove.putRecs (g : Glove) (l : List Rec) : Glove :=
  match l with
  | [] => g
  | r :: _ =>
    if r.op = .tdig then { g with inflight := g.inflight.mapIdx fun k x => if k = 0 ∧ x.op = .tdig then { x with ds := r.ds, aux := r.aux } else x }
    else { g with inflight := l.mapIdx g.restartRec, resuming := false }

/-- CONTEXT_RESTORE (R67, R68, R192): the next saved launch of the engine resumes on a free glove. -/
def State.ctxRestore (s : State) (gl : GloveRef) : State :=
  if !((s.holder gl).isNone && s.gloveIdle gl && gl.g != 3 && (s.eng gl.e).pwrState == 0 && !(s.eng gl.e).waking) then s
  else match s.nextSaved gl.e with
    | none => s
    | some (l, r) =>
      if s.higherWaits gl.e r then s
      else
        let kind := match (s.stream r.strm).cmd? r.index with
          | some c => recKind c.record
          | none => 1
        let s1 := s.modGlv gl fun g => { g with
          kind := runKindOf kind, tenant := (s.lease l).tenant, strm := r.strm, cmdIx := r.index, rank := r.rank, lease := l,
          launchWord := r.launchWord, elapsed := r.elapsed, prog := r.prog, regionLen := r.regionLen, align := r.align,
          state := 1, wait := .none, boundAt := s.hearth.time, progressAt := s.hearth.time }
        let s2 := s1.modLaunch r.strm r.index fun y => { y with insts := y.insts.map fun x => if x.1 = r.home then (gl, x.2) else x }
        match s2.ctxLoad gl (s.slotAddr l) (s.stream r.strm).qos.toNat with
        | .stall v => s.wakeWing v
        | .fault c => (s2.modLease l fun x => { x with resident := none, saved := false, savedRun := none }).saveErr gl c
        | .ok (rows, t) =>
          let t1 := (t.traceSwap gl true rows).modGlv gl fun g =>
            { g.putRecs r.recs with lastRestore := BitVec.ofNat 16 rows }
          t1.modLease l fun x => { x with resident := some gl.g, saved := false, savedRun := none }

def execContextRestore (gl : GloveRef) (s : State) : Out := .next (if s.fabricOn then s.ctxRestore gl else s)

end Sys2Proof.Machine
end

