-- ==== Sys2Proof/Machine/Commands.lean ====
section
/-!
DEFINITION. The commands of a stream but for the tick commands (R73-R76, R136, R197, R198), and their completions (R199).
-/
namespace Sys2Proof.Machine

/-- Run a command of a kind that has started; a command that has not, or of another kind, changes nothing. -/
def State.withCmd (s : State) (n : StrmIx) (i : BitVec 32) (kind : Nat → Bool) (f : Cmd → State) : State :=
  match (s.stream n).cmd? i with
  | some c => if s.fabricOn && c.phase == .started && kind (recKind c.record) then f c else s
  | none => s

/-- A command completes at once with a STATUS: with no details but those of a bound LAUNCH (R199). -/
def State.refuse (s : State) (n : StrmIx) (c : Cmd) (status : Byte) : State := s.cmdDone n c.index status 0 (s.boundDetail n c)

/-- A command completes FAULT with a fault word that no glove raised. -/
def State.faultCmd (s : State) (n : StrmIx) (c : Cmd) (code : Byte) : State :=
  s.cmdDone n c.index stFault (gfaultWord code none 0 0) (s.boundDetail n c)

/-- Whether an earlier command of the stream is not complete. -/
def State.olderOpen (s : State) (n : StrmIx) (i : BitVec 32) : Bool :=
  let st := s.stream n
  st.cmds.any fun c => decide ((c.index - st.head).toNat < (i - st.head).toNat)

/-! ### Program headers (R73, R74) -/

/-- The header of a program region. -/
structure ProgHead where
  magic : Nat
  version : Nat
  engines : Nat
  gloves : Nat
  entry : Nat
  regionLen : Nat
  residentData : Nat
  flags : Nat
  deriving DecidableEq, Repr

/-- Read a header from its first 24 bytes. -/
def headOf (bs : List Byte) : ProgHead :=
  let f (off n : Nat) : Nat := ofBytes ((bs.drop off).take n)
  ⟨f 0 4, f 4 2, f 6 1, f 7 1, f 8 4, f 12 4, f 16 4, f 20 4⟩

/-- The checks of R74 on a header (BAD_PROGRAM). -/
def ProgHead.ok (h : ProgHead) : Bool :=
  h.magic == 0x4C4E454A && h.version == 1 && decide (1 ≤ h.engines) && decide (h.engines ≤ 16) && decide (1 ≤ h.gloves)
    && decide (h.gloves ≤ 4) && h.entry % 8 == 0 && decide (0x40 ≤ h.entry) && decide (h.entry + 8 ≤ h.regionLen) && h.regionLen % 64 == 0

/-- Whether a program region may start at an address (R73): a 64-byte boundary inside the address space, not in host memory and not in the
boot ROM. R74 names no STATUS for such a PROG: the model completes the command BAD_PROGRAM (DESIGN CHOICE, log 60). -/
def State.progPlace (s : State) (t : TenIx) (a : Nat) : Bool :=
  a % 64 == 0 && decide (a < 2 ^ 48) && !s.hostRoom t a 1 .x && match decodeAddr s.hall.remap a with
    | .rom _ => false
    | _ => true

/-- The scheduler reads a header for a stream: through the rooms of its tenant with X. -/
def State.readHead (s : State) (st : Stream) (a : Nat) : Res (ProgHead × State) :=
  if !s.roomOk st.tenant a 64 .x then .fault fcRoom
  else (s.decodeRes a .x).bind fun _ =>
    match s.schedReady a with
    | .stall => .stall (decodeAddr s.hall.remap a).wing
    | .busErr => .fault fcBus
    | .ok =>
      if s.heldLine (s.keysOf a 64) then .stall
      else let r := s.accRead (schedSrc st) a 64
      if r.2.1 then .fault fcPoison else .ok (headOf r.1, r.2.2)

/-! ### Starting a glove (R75, R76) -/

/-- The launch word of an instance outside tick runs. -/
def launchWordOf (rank instances : Nat) (gl : GloveRef) : Word :=
  at_ (rank % 256) 0 ||| at_ (instances % 256) 8 ||| at_ gl.e.val 16 ||| at_ gl.g.val 20

/-- A glove is loaded for an instance of a command: registers as R76 states. -/
def State.loadGlove (s : State) (gl : GloveRef) (n : StrmIx) (c : Cmd) (l : LeaseIx) (kind : RunKind) (rank instances prog : Nat)
    (h : ProgHead) : State :=
  let lw := launchWordOf rank instances gl
  let arg (k : Nat) : Word := if kind = .launch then BitVec.ofNat 64 (recFld c.record (0x18 + 8 * k) 8) else 0
  let s1 := s.modGlv gl fun g =>
    let g := ((((g.clearRegs.setS 1 (arg 0)).setS 2 (arg 1)).setS 3 (arg 2)).setS 4 (arg 3)).setS 5 (if kind = .launch then lw else 0)
    { g with
      pc := BitVec.ofNat 32 h.entry, trow := 0, ibuf := [], kind := kind, state := 1, wait := .none, armed := false, inflight := [],
      tenant := (s.stream n).tenant, strm := n, cmdIx := c.index, rank := BitVec.ofNat 8 rank, lease := l, prog := prog,
      regionLen := BitVec.ofNat 32 h.regionLen, align := c.align, launchWord := lw, tickEdge := 0, elapsed := 0,
      boundAt := s.hearth.time, progressAt := s.hearth.time, hang := { g.hang with lastProgress := s.hearth.time } }
  s1.traceBegin gl

/-- Whether a glove's engine runs; otherwise the bind wakes it (R296). -/
def State.engRuns (s : State) (e : EngIx) : Bool := (s.eng e).pwrState == 0 && !(s.eng e).waking

/-- A command starts its work on gloves: its launch is in progress. -/
def State.startLaunch (s : State) (n : StrmIx) (c : Cmd) (l : LeaseIx) (kind : RunKind) (gls : List GloveRef) (prog : Nat)
    (h : ProgHead) : State :=
  let ranked := gls.zipIdx
  let s0 := match gls with
    | gl :: _ =>
      if (s.lease l).kind = 0 ∧ (s.lease l).saved then
        let t := s.modGlv gl fun g => { g with tenant := (s.stream n).tenant, lastRestore := BitVec.ofNat 16 (ctxRows 0) }
        ((t.addWork gl.e 4 (ctxCost 0)).traceSwap gl true (ctxRows 0)).modLease l fun x => { x with saved := false }
      else s
    | [] => s
  let s1 := ranked.foldl (fun t x => t.loadGlove x.1 n c l kind x.2 gls.length prog h) s0
  let rec_ : Launch :=
    { strm := n, index := c.index, insts := ranked.map fun x => (x.1, BitVec.ofNat 8 x.2, false), maxStatus := 0, fault := none,
      faultOn := none, aborted := false, queueNs := BitVec.ofNat 32 (s.queueNs n c), swapNs := BitVec.ofNat 32 (s.swapNs c),
      progress := 0 }
  (s1.modTen fun x => { x with launches := x.launches ++ [rec_] }).modCmd n c.index fun c => { c with phase := .running }

/-- The gloves that a launch of ENGINES × GLOVES takes on a lease, in rank order (R75). -/
def State.launchGloves (s : State) (l : LeaseIx) (engines gloves : Nat) : List GloveRef :=
  let x := s.lease l
  if x.kind = 0 then (match x.resident with
    | some g => [⟨x.engine, g⟩]
    | none => [])
  else
    let es := ((allFin 16).filter fun e => bitAt x.emask e.val).take engines
    (es.map fun e => ((allFin 4).take gloves).map fun g => (⟨e, g⟩ : GloveRef)).flatten

/-- Engines that a lease holds. -/
def Lease.engineCount (x : Lease) : Nat := ((allFin 16).filter fun e => bitAt x.emask e.val).length

/-- Start on some gloves, or wait until they are idle and their engines run. -/
def State.whenIdle (s : State) (gls : List GloveRef) (f : State → State) : State :=
  if gls.isEmpty || !gls.all s.gloveIdle then s
  else if gls.all fun gl => s.engRuns gl.e then f s
  else gls.foldl (fun t gl => t.engineWake gl.e) s

/-! ### LAUNCH (R74-R76) -/

/-- LAUNCH: its header is read before anything starts, and a refusal leaves nothing behind (R74, R238). No rule gives the STATUS of a LAUNCH
that names a tick lease, on which R75 has no glove for it: after the checks of the header the model completes it LEASE_SHORT (DESIGN
CHOICE, log 60). -/
def State.launchCmd (s : State) (n : StrmIx) (c : Cmd) : State :=
  let prog := recFld c.record 8 8
  match s.cmdLease n c with
  | none => s.refuse n c stNotOwner
  | some l =>
    let x := s.lease l
    if !s.progPlace (s.stream n).tenant prog then s.refuse n c stBadProgram
    else match s.readHead (s.stream n) prog with
      | .stall w => s.wakeWing w
      | .fault code => s.faultCmd n c code
      | .ok (h, s1) =>
        if !h.ok then s.refuse n c stBadProgram
        else if x.kind = 2 ∨ x.engineCount < h.engines ∨ (1 < h.gloves ∧ x.kind ≠ 1) then s.refuse n c stLeaseShort
        else
          let gls := s.launchGloves l h.engines h.gloves
          if gls.isEmpty || !gls.all s.gloveIdle then s
          else if gls.all fun gl => s.engRuns gl.e then s1.startLaunch n c l .launch gls prog h
          else gls.foldl (fun t gl => t.engineWake gl.e) s

/-- LAUNCH. -/
def execLaunch (n : StrmIx) (i : BitVec 32) (s : State) : Out := .next (s.withCmd n i (· == 1) fun c => s.launchCmd n c)

/-! ### COPY and RELAYOUT (R136, R198) -/

/-- No program. -/
def ProgHead.none : ProgHead := ⟨0, 0, 0, 0, 0, 0, 0, 0⟩

/-- The glove of a one-instance command: the context of a glove lease, or the first idle glove of an engine lease. -/
def State.oneGlove (s : State) (l : LeaseIx) : List GloveRef :=
  if (s.lease l).kind = 0 then s.launchGloves l 1 1 else (s.idleOf l).take 1

/-- A record that a stream command runs on a glove. -/
def cmdRec (op : TOp) (w : JFields) (rows : Nat) (ds : List Desc) (held : Bool) : Rec :=
  { op := op, w := w, pc := 0, row := 0, rows := rows, ds := ds, held := held, resp := [], aux := 0, start := 0, slots := [],
    scales := [], hit := false }

/-- Put a stream command's record on its glove and run its first row steps. -/
def State.runRecord (s : State) (gl : GloveRef) (r : Rec) (p : Pace) : State :=
  ((runSteps gl 0 p.steps (s.modGlv gl fun g => { g with inflight := [r] })).copyCheck gl).sealSweep

/-- No fields. -/
def noFields : JFields := ⟨0, 0, 0, 0, 0⟩

def State.copyCmd (s : State) (n : StrmIx) (c : Cmd) (p : Pace) : State :=
  let len := recFld c.record 0x18 8
  match s.cmdLease n c with
  | none => s.refuse n c stNotOwner
  | some l =>
    if len = 0 ∨ 2 ^ 40 < len then s.refuse n c stBadCommand
    else if (s.lease l).kind = 2 then s.refuse n c stLeaseShort
    else s.whenIdle (s.oneGlove l) fun s =>
      match s.oneGlove l with
      | gl :: _ =>
        (s.startLaunch n c l .copy [gl] 0 .none).runRecord gl (cmdRec .copy noFields ((len + 255) / 256) [c.record] p.held) p
      | [] => s

/-- COPY. -/
def execCopy (n : StrmIx) (i : BitVec 32) (p : Pace) (s : State) : Out := .next (s.withCmd n i (· == 2) fun c => s.copyCmd n c p)

/-- The fields of the `relay` that a RELAYOUT repeats: DPERM in imm[25:8]. -/
def relayoutFields (c : Cmd) : JFields := { noFields with imm := BitVec.ofNat 34 (recFld c.record 0x18 4 % 2 ^ 18 * 256) }

/-- The checks of a RELAYOUT's descriptors (R135). -/
def relayoutCheck (w : JFields) (k l : Desc) : Option Byte :=
  if !relayOk w k l then some fcDesc
  else if dperm w 0 = 1 ∧ !(fmtBits (Desc.fmt k) == 4 || fmtBits (Desc.fmt k) == 8 || fmtBits (Desc.fmt k) == 16 || fmtBits (Desc.fmt k) == 32)
  then some fcIllegal else none

/-- The descriptors of a RELAYOUT are read through the glove; its segments follow. -/
def State.relayoutStart (s : State) (gl : GloveRef) (c : Cmd) (p : Pace) : Res State :=
  let rd (s : State) (off : Nat) : Res (List Byte × Bool × State) := s.gloveRead gl (recFld c.record off 8) 64
  (rd s 0x08).bind fun x => (rd x.2.2 0x10).bind fun y =>
    let k : Desc := BitVec.ofNat 512 (ofBytes x.1)
    let l : Desc := BitVec.ofNat 512 (ofBytes y.1)
    let w := relayoutFields c
    if x.2.1 || y.2.1 then .fault fcPoison
    else match relayoutCheck w k l with
      | some code => .fault code
      | none => .ok (y.2.2.runRecord gl (cmdRec .relayout w (relayoutRows w k) [k, l] p.held) p)

def State.relayoutCmd (s : State) (n : StrmIx) (c : Cmd) (p : Pace) : State :=
  match s.cmdLease n c with
  | none => s.refuse n c stNotOwner
  | some l =>
    if (s.lease l).kind = 2 then s.refuse n c stLeaseShort
    else s.whenIdle (s.oneGlove l) fun s =>
      match s.oneGlove l with
      | gl :: _ =>
        let t := s.startLaunch n c l .relayout [gl] 0 .none
        (match t.relayoutStart gl c p with
        | .ok u => u
        | .fault code => t.gloveFault gl 0 ⟨code, none, 0⟩
        | .stall w => s.wakeWing w)
      | [] => s

/-- RELAYOUT. -/
def execRelayout (n : StrmIx) (i : BitVec 32) (p : Pace) (s : State) : Out :=
  .next (s.withCmd n i (· == 3) fun c => s.relayoutCmd n c p)

/-! ### BOLT_SIGNAL, BOLT_WAIT, TIMESTAMP, FENCE, BAD_COMMAND (R197, R198) -/

/-- The BOLT field of a record; none for a number that names no bolt. -/
def recBolt (r : BitVec 512) : Option BoltIx := if h : recFld r 8 2 < 4096 then some ⟨recFld r 8 2, h⟩ else none

def State.boltSignalCmd (s : State) (n : StrmIx) (c : Cmd) : State :=
  let k := recFld c.record 0x0C 4
  match recBolt c.record with
  | none => s.refuse n c stNotOwner
  | some b =>
    if !s.ownsBolt b (s.stream n).tenant then s.refuse n c stNotOwner
    else if k = 0 then s.refuse n c stBadCommand
    else if s.olderOpen n c.index then s
    else
      let s1 := s.fenceClean (· == 69)
      let t := s1.traceSignal (s1.boltAdd b (.stream n) k) b (.stream n) k
      t.cmdDone n c.index stOk ((t.bolt b).count.zeroExtend 64) 0

/-- BOLT_SIGNAL: after every earlier command of the stream. -/
def execBoltSignal (n : StrmIx) (i : BitVec 32) (s : State) : Out := .next (s.withCmd n i (· == 4) fun c => s.boltSignalCmd n c)

def State.boltWaitCmd (s : State) (n : StrmIx) (c : Cmd) : State :=
  let k := recFld c.record 0x0C 4
  let us := recFld c.record 0x10 4
  match recBolt c.record with
  | none => s.refuse n c stNotOwner
  | some b =>
    if !s.ownsBolt b (s.stream n).tenant then s.refuse n c stNotOwner
    else if k = 0 then s.refuse n c stBadCommand
    else
      let w : BWaiter := ⟨.stream n, BitVec.ofNat 32 k, s.now, if us = 0 then none else some (s.now + 1000 * us), c.index⟩
      (s.modBolt b fun x => { x with fifo := x.fifo ++ [w] }).modCmd n c.index fun c => { c with phase := .running }

/-- BOLT_WAIT: the stream joins the bolt's FIFO. -/
def execBoltWait (n : StrmIx) (i : BitVec 32) (s : State) : Out := .next (s.withCmd n i (· == 5) fun c => s.boltWaitCmd n c)

/-- TIMESTAMP: DETAIL is the timebase at its start. -/
def execTimestamp (n : StrmIx) (i : BitVec 32) (s : State) : Out :=
  .next (s.withCmd n i (· == 8) fun c => s.cmdDone n c.index stOk (BitVec.ofNat 64 c.boundAt) 0)

/-- FENCE: once every earlier command of the stream has completed, with the fabric fence (R29). -/
def execFenceCommand (n : StrmIx) (i : BitVec 32) (s : State) : Out :=
  .next (s.withCmd n i (· == 9) fun c =>
    if s.olderOpen n c.index then s else (s.fenceClean (· == 69)).cmdDone n c.index stOk 0 0)

/-- BAD_COMMAND: a reserved KIND (R197). -/
def execBadCommand (n : StrmIx) (i : BitVec 32) (s : State) : Out :=
  .next (s.withCmd n i (fun k => k == 0 || decide (10 ≤ k)) fun c => s.refuse n c stBadCommand)

/-! ### Completions (R199) -/

/-- PHASE of completion i. -/
def Stream.phaseBit (st : Stream) (i : BitVec 32) : Nat := 1 - (i.toNat / st.size) % 2

/-- Bytes 0x08-0x1F and bytes 0x00-0x07 of a completion record. -/
def Stream.cplBytes (st : Stream) (c : Cmd) (time : Word) : List Byte × List Byte :=
  (toBytes 8 time.toNat ++ toBytes 8 c.detail.toNat ++ toBytes 8 c.detail2.toNat,
   toBytes 1 c.status.toNat ++ toBytes 1 (st.phaseBit c.index + 2 * b2n c.spilled) ++ toBytes 2 (recTag c.record) ++ toBytes 4 c.index.toNat)

/-- The oldest command that has done its work. -/
def Stream.nextDone (st : Stream) : Option Cmd :=
  least (fun c => (c.index - st.head).toNat) (st.cmds.filter fun c => c.phase == .done)

/-- The two ordered writes of a completion: none when they meet an error response, stalled when the target waits. -/
def State.writeCpl (s : State) (n : StrmIx) (c : Cmd) : Res State :=
  let st := s.stream n
  let b := st.cplBytes c s.hearth.time
  let a := st.cplAddr c.index
  if st.loc then
    match s.schedWrReady a with
    | .stall => .stall (decodeAddr s.hall.remap a).wing
    | .busErr => .fault fcBus
    | .ok => .ok ((s.accWrite (schedSrc st) (a + 8) b.1).accWrite (schedSrc st) a b.2)
  else
    let p := s.streamPort n
    if h : p.val < 4 then
      if (s.port ⟨p.val, h⟩).carries then .ok ((s.hostWrite ⟨p.val, h⟩ (a + 8) b.1).hostWrite ⟨p.val, h⟩ a b.2) else .fault fcHost
    else .fault fcHost

/-- A command leaves its stream; RELAY_NEXT and the doorbells that name no open command go with it. -/
def State.retire (s : State) (n : StrmIx) (c : Cmd) : State :=
  (s.modStream n fun st =>
    let st := { st with cmds := st.cmds.filter fun x => x.index != c.index }
    { st with
      head := st.oldest
      doors := st.doors.filter fun d => decide ((d.1 - 1 - st.oldest).toNat < 2 ^ 31)
      draining := st.draining && !(st.idle && st.reply.isNone && !(s.tenant st.tenant).evicting) })

/-- COMPLETION_WRITE (R196, R199, R347): the record, HEAD, the VECTOR, and ERROR after a STATUS other than OK. -/
def State.completionWrite (s : State) (n : StrmIx) : State :=
  match (s.stream n).nextDone with
  | none => s
  | some c =>
    let ended (t : State) : State := t.trace hallChan false true (some (s.stream n).tenant) 0x05 n.val
      (setFld (beginWord n 0 false (recTag c.record) c.index) 16 8 c.status.toNat)
    match s.writeCpl n c with
    | .stall w => s.wakeWing w
    | .fault _ =>
      let p := s.streamPort n
      let down := if h : p.val < 4 then (s.port ⟨p.val, h⟩).lstate == 0 else false
      let s1 := ended (if down && !(s.stream n).loc then s.discard p 2 else s)
      (((s1.retire n c).ringErr n).refresh n).leaseSweep
    | .ok t =>
      let t2 := (ended t).retire n c
      let t3 := if c.status = stOk ∨ recFlag c.record 1 ∨ c.quiet then t2 else t2.modStream n fun st => { st with state := 4 }
      let t4 := if recFlag c.record 0 then t3.raiseVector n else t3
      (t4.refresh n).leaseSweep

def execCompletionWrite (n : StrmIx) (s : State) : Out :=
  .next (if s.fabricOn && (s.stream n).isOpen then s.completionWrite n else s)

end Sys2Proof.Machine
end

