-- ==== Sys2Proof/Machine/Reset.lean ====
section
/-!
DEFINITION. Resets of the whole part (R302, R311-R315, R366): what each clears and keeps, and the return of the device to ACTIVE.
-/
namespace Sys2Proof.Machine

/-- Memory that keeps only some locations. -/
def MemS.keep (f : Nat → Bool) (m : MemS) : MemS := ⟨m.cells.filter fun c => f c.1, m.poison.filter f⟩

/-- Whether a canonical address lies in HBM. -/
def isHbm (k : Nat) : Bool := decide (0x1000000000 ≤ k)

/-- A wing after PIN or WARM (R51, R290, R317): training and temperature stay; the cellar stays through WARM. -/
def Wing.cleared (warm : Bool) (w : Wing) : Wing :=
  { Wing.reset with
    trained := w.trained, training := w.training, trainFail := w.trainFail, filled := w.filled, hot := w.hot, temp := w.temp,
    cellar := if warm then w.cellar else 0, cellarUsed := if warm then w.cellarUsed else 0 }

/-- A host port after PIN (R315, R332): the level of PERST_N stays; so does what has already left the port. -/
def HostPort.pinned (p : HostPort) : HostPort :=
  { HostPort.reset with perst := p.perst, sent := p.sent, vectors := p.vectors, cpls := p.cpls, cfgOut := p.cfgOut }

/-- A host port after WARM (R313, R357): configuration and link stay; its event bits and what it had queued go. -/
def HostPort.warmed (p : HostPort) : HostPort := { p with evt := 0, lane := [], egress := [] }

/-- The tenancy tables after PIN or WARM (R185, R207): OPEN_SEQ stays. -/
def Tenancy.cleared (sel : BitVec 2) (t : Tenancy) : Tenancy :=
  { Tenancy.reset sel with tenants := t.tenants.map fun x => Tenant.closed x.openSeq }

/-- The tick leases that a reset removes: their FIFO entries and wake entries go as at DISARM_TICK (L of R315). -/
def State.dropArms (s : State) : State := (allFin 16).foldl (fun t e => if t.tickArmed e then t.disarmNow e else t) s

/-- The PIN column (`warm` false) or the WARM column of R315: everything outside the hearth; what the
core caches held dirty is lost. -/
def State.clearLogic (warm : Bool) (s : State) : State :=
  let t := s.dropArms.loseCaches
  { t with
    mem := if warm then t.mem else t.mem.keep isHbm
    hall := Hall.reset
    wings := t.wings.map (Wing.cleared warm)
    engines := Vector.replicate 16 Engine.reset
    ten := t.ten.cleared t.hearth.mgrSel
    obs := Obs.reset
    cores := { Cores.reset t.hearth.mgrSel t.hearth.bootSrc with
      uartSent := t.cores.uartSent, tapIr := t.cores.tapIr, tapDr := t.cores.tapDr, tapPins := t.cores.tapPins }
    ports := t.ports.map fun p => if warm then p.warmed else p.pinned
    flt := FaultS.reset t.hearth.mgrSel }

/-- The RESET event at the end of a reset (R347): its CAUSE is LAST. -/
def State.resetEvent (s : State) : State := s.report { code := 0x4E, scope := 5, cause := s.hearth.last.toNat }

/-- A device that was not ACTIVE returns toward it. -/
def Hearth.waking (h : Hearth) : Hearth := if h.devState = 0 then h else { h with devState := 1, toward := 0 }

/-- Under MGR_SEL 0b11 and BOOT_SRC 0b01 hart 0 writes STRAP_BAD to BOOT_STAT and the black box (R247). -/
def State.strapEvent (s : State) : State :=
  if s.hearth.mgrSel = 3 ∧ s.hearth.bootSrc = 1 then s.report { code := 0x4F, scope := 5, cause := 8 } else s

/-! ### PIN -/

/-- A PIN reset begins (R311): its cause is recorded and the part is held in reset. -/
def State.pinBegin (s : State) (cause : BitVec 4) : State :=
  (s.clearLogic false).modHearth fun h => { h.waking with pinReset := true, last := cause }

/-- A stack that is not trained starts its training, and is filled after it (R302). -/
def Wing.startTraining (w : Wing) : Wing :=
  if w.trained || w.trainFail then w else { w with training := true, filled := false }

/-- A PIN reset ends once RESET_N and PWR_GOOD are high and, after a trip, TJ is below 95 degrees (R310): the straps are
relatched. -/
def State.pinEnd (s : State) : State :=
  let h := s.hearth
  if !(h.pinReset && !h.por && h.resetN && h.pwrGood) || (h.gated && decide (95 ≤ h.tj.toInt)) then s
  else
    let s1 := (s.modHearth fun h =>
      { h with pinReset := false, gated := false, mgrSel := h.mgrStrap, bootSrc := h.bootStrap }).clearLogic false
    ({ s1 with wings := s1.wings.map Wing.startTraining }).setSteps.resetEvent.strapEvent

/-! ### WARM and HWDT -/

/-- WARM (R313): it ends with the mailbox interrupt of every port raised once. The time of a WARM of the manager is kept for R312. -/
def State.warmReset (s : State) (cause : BitVec 4) : State :=
  let s1 := (s.clearLogic true).modHearth fun h => { h.waking with
    last := cause, warms := h.warms + 1, warmAt := if cause = 4 then some s.now else h.warmAt }
  (allFin 4).foldl (fun t p => t.msix p 0) s1.setSteps.resetEvent.strapEvent

/-! ### Power -/

/-- A stack that has lost its power. -/
def Wing.unpowered (w : Wing) : Wing := { w with trained := false, training := false, trainFail := false, filled := false }

/-- Every domain but the hearth loses its power (R301, R310): memory contents and training are lost. -/
def State.powerOff (s : State) : State :=
  let t := s.clearLogic false
  { t with mem := ⟨[], []⟩, wings := t.wings.map Wing.unpowered }

/-- The device starts its return to ACTIVE (R300, R301). From OFF_AO it passes through the effects of a PIN reset once PWR_GOOD
is high. -/
def State.deviceWake (s : State) : State :=
  if s.hearth.devState = 3 then (s.modHearth fun h => { h.waking with last := 6, pinReset := true }).pinEnd
  else s.modHearth Hearth.waking

/-- POR: everything returns to its reset state and is held (R311, R366). The model's queue, draw count and output stay. -/
def State.porBegin (s : State) : State :=
  let h := s.hearth
  { State.reset with
    pending := s.pending, draws := s.draws, out := s.out
    hearth := { Hearth.reset h.mgrStrap h.bootStrap h.smbStrap with por := true, resetN := h.resetN, pwrGood := h.pwrGood } }

/-- The end of POR (R366): TIME starts at 0 and the straps latch; RESET_N or PWR_GOOD low holds the other logic in PIN reset. -/
def State.porEnd (s : State) : State :=
  let h := s.hearth
  if !h.por then s
  else
    let t : State := { State.reset with
      pending := s.pending, draws := s.draws, out := s.out
      ten := Tenancy.reset h.mgrStrap, cores := Cores.reset h.mgrStrap h.bootStrap, flt := FaultS.reset h.mgrStrap
      hearth := { Hearth.reset h.mgrStrap h.bootStrap h.smbStrap with
        resetN := h.resetN, pwrGood := h.pwrGood, pinReset := !(h.resetN && h.pwrGood) } }
    if t.hearth.pinReset then t else t.strapEvent

end Sys2Proof.Machine
end

