-- ==== Sys2Proof/Machine/Tick.lean ====
section
/-!
DEFINITION. The tick path (R209-R229): ARM_TICK and DISARM_TICK, tick pins, firing, the seal, the bypass lane; the wake
schedule and SYNC_OUT (R212, R305).
-/
namespace Sys2Proof.Machine

/-! ### ARM_TICK (R213-R215) -/

/-- OPT of an ARM_TICK record. -/
def armOpt (r : BitVec 512) : Nat := recFld r 0x13 1
def armSpillOk (r : BitVec 512) : Bool := armOpt r % 2 == 1
def armSkip (r : BitVec 512) : Bool := armOpt r / 2 % 2 == 1
def armSealEn (r : BitVec 512) : Bool := armOpt r / 4 % 2 == 1
def armChains (r : BitVec 512) : Nat := armOpt r / 16

/-- The pinned bytes of a tick lease. -/
def Lease.quota (l : Lease) : Nat := l.pages.toNat * 65536

/-- SEAL_OFF as R213 requires it: a multiple of 8 whose line lies in the pinned pages, the seal word not the line's last. -/
def sealOffOk (l : Lease) (off : Nat) : Bool := off % 8 == 0 && off / 8 % 8 != 7 && decide (off / 64 * 64 + 64 ≤ l.quota)

/-- The BAD_COMMAND checks of R213. -/
def State.armFields (s : State) (n : StrmIx) (c : Cmd) (l : LeaseIx) : Bool :=
  let r := c.record
  (s.lease l).kind == 2 && (s.stream n).cls == 0 && decide (recFld r 0x12 1 ≤ 3) && decide (recFld r 0x14 2 ≤ 5000)
    && (!armSealEn r || sealOffOk (s.lease l) (recFld r 0x18 4)) && s.inLeasePages l (recFld r 8 8)

/-- BUSY (R213): the lease is armed, or a lease of another tenant is armed on the pin. -/
def State.armBusy (s : State) (n : StrmIx) (pin : Fin 4) (l : LeaseIx) : Bool :=
  (s.eng (s.lease l).engine).tick.armed ||
    (s.armedOn pin).any fun e => (s.lease (s.eng e).tick.lease).tenant != (s.stream n).tenant

/-- The link of a port returns to L0 (R328). -/
def State.toL0 (s : State) (m : MbIx) : State := if h : m.val < 4 then s.modPort ⟨m.val, h⟩ HostPort.toL0 else s

/-- The arming itself (R215). Edges captured before it do not fire the lease: it counts as having served the entries that the FIFO holds. -/
def State.armNow (s : State) (n : StrmIx) (c : Cmd) (l : LeaseIx) (pin : Fin 4) (h : ProgHead) (spilled : Bool) : State :=
  let r := c.record
  let e := (s.lease l).engine
  let arg (k : Nat) : Word := BitVec.ofNat 64 (recFld r (0x20 + 8 * k) 8)
  let s0 := s.modPin pin fun p => { p with fifo := p.fifo.map fun x => { x with served := e :: x.served.filter (· != e) } }
  let s1 := s0.modTick e fun _ =>
    { TickS.reset with
      armed := true, armedAt := s.now, lease := l, pin := pin, spilled := spilled, sealEn := armSealEn r, skip := armSkip r,
      chains := BitVec.ofNat 4 (armChains r), expect := BitVec.ofNat 32 (recFld r 0x1C 4), grace := recFld r 0x14 2,
      sealOff := BitVec.ofNat 32 (recFld r 0x18 4), args := Vector.ofFn fun i : Fin 4 => arg i.val, prog := recFld r 8 8,
      regionLen := BitVec.ofNat 32 h.regionLen, entry := BitVec.ofNat 32 h.entry, strm := n, tag := BitVec.ofNat 16 (recTag r) }
  let s2 := s1.modGlv (tickGlove e) fun g =>
    { g.clearRegs.empty with
      pc := 0, state := 5, pinned := true, tenant := (s.lease l).tenant, lease := l, align := (s.stream n).align, ibuf := [],
      prog := recFld r 8 8, regionLen := BitVec.ofNat 32 h.regionLen, strm := n }
  let s3 := (((s2.modLease l fun x => { x with spilled := spilled }).engineWake e).refreshWake e).setSteps
  let s4 := (s3.rebound (s.streamPort n)).toL0 (s.streamPort n)
  (s4.modCmd n c.index fun c => { c with spilled := spilled }).cmdDone n c.index stOk
    (((s4.eng e).tick.bound).zeroExtend 64) 0

/-- CAPACITY and the spill rule of R214 for a checked header; `read` is the state after the read of the header, which a refusal
leaves aside (R238). -/
def State.armSized (s read : State) (n : StrmIx) (c : Cmd) (l : LeaseIx) (pin : Fin 4) (h : ProgHead) : State :=
  let x := s.lease l
  let prog := recFld c.record 8 8
  let last := x.pageRange.2
  let spilled := decide (x.quota < h.regionLen + h.residentData)
  if last < prog + h.regionLen ∨ (spilled ∧ !armSpillOk c.record) then s.refuse n c stCapacity
  else if spilled ∧ armChains c.record = 0 then s.refuse n c stBadCommand
  else read.armNow n c l pin h spilled

def State.armCmd (s : State) (n : StrmIx) (c : Cmd) : State :=
  match s.cmdLease n c with
  | none => s.refuse n c stNotOwner
  | some l =>
    let pin : Fin 4 := ⟨recFld c.record 0x12 1 % 4, by omega⟩
    if !s.armFields n c l then s.refuse n c stBadCommand
    else if s.armBusy n pin l then s.refuse n c stBusy
    else if !s.progPlace (s.stream n).tenant (recFld c.record 8 8) then s.refuse n c stBadProgram
    else match s.readHead (s.stream n) (recFld c.record 8 8) with
      | .stall w => s.wakeWing w
      | .fault _ => s.refuse n c stBadProgram
      | .ok (h, t) =>
        if !(h.ok && h.flags % 2 == 1 && h.engines == 1 && h.gloves == 1) then s.refuse n c stBadProgram
        else s.armSized t n c l pin h

/-- ARM_TICK. -/
def execArmTick (n : StrmIx) (i : BitVec 32) (s : State) : Out := .next (s.withCmd n i (· == 6) fun c => s.armCmd n c)

/-! ### DISARM_TICK (R215) -/

/-- Disarm the lease of an engine for a command, or for none: at once when no run is in progress. A frozen tick glove is
released as ABORT (R286). -/
def State.disarm (s : State) (e : EngIx) (who : Option (StrmIx × BitVec 32)) : State :=
  let gl := tickGlove e
  let s1 := s.modTick e fun t => { t with disarm := some who }
  if (s1.glv gl).hang.frozen then (if (s1.glv gl).kind = .tick then s1.hangAbort gl else s1.finishDisarm e)
  else if (s1.eng e).tick.phase = .idle then s1.finishDisarm e
  else match who with
    | some x => s1.modCmd x.1 x.2 fun c => { c with phase := .running }
    | none => s1

def State.disarmCmd (s : State) (n : StrmIx) (c : Cmd) : State :=
  match s.cmdLease n c with
  | none => s.refuse n c stNotOwner
  | some l =>
    let e := (s.lease l).engine
    let t := (s.eng e).tick
    if (s.lease l).kind ≠ 2 ∨ (s.stream n).cls ≠ 0 then s.refuse n c stBadCommand
    else if !(t.armed && t.lease == l) then s.cmdDone n c.index stOk 0 0
    else if t.disarm.isSome then s
    else s.disarm e (some (n, c.index))

/-- DISARM_TICK. -/
def execDisarmTick (n : StrmIx) (i : BitVec 32) (s : State) : Out := .next (s.withCmd n i (· == 7) fun c => s.disarmCmd n c)

/-- Disarm an armed lease without a command (R205, R329). -/
def State.disarmQuiet (s : State) (e : EngIx) : State :=
  let t := (s.eng e).tick
  if !t.armed then s
  else match t.disarm with
    | some _ => s
    | none => s.disarm e none

/-! ### Tick pins (R209-R211) -/

/-- Whether EDGE selects a change to a level. -/
def TPin.selects (p : TPin) (level : Bool) : Bool :=
  match fld p.ctl 1 0 with
  | 1 => level
  | 2 => !level
  | 3 => true
  | _ => false

/-- FILTER in hc. -/
def TPin.filter (p : TPin) : Nat := fld p.ctl 5 2

/-- Leases for which an edge captured now is an overrun (R220): a run is in progress, or earlier entries are pending. -/
def State.overOn (s : State) (n : Fin 4) : List EngIx :=
  (s.countsOn n).filter fun e => decide ((s.eng e).tick.phase ≠ .idle) || !((s.hearth.tpin[n.val]).unserved e).isEmpty

/-- TICK_EDGE_CAPTURE (R209, R210, R220): the synchroniser shows a new level; a selected edge becomes a candidate; a candidate that has
not qualified is discarded as a glitch. -/
def State.edgeCapture (s : State) (n : Fin 4) (level : Bool) : State :=
  let p := s.hearth.tpin[n.val]
  if p.level = level then s
  else s.modPin n fun p => { p with
    level := level
    moves := ((s.now, level) :: p.moves).take 3
    cand := if p.selects level then some ⟨s.hearth.time, s.countsOn n, s.overOn n⟩ else none }

/-- The level of a pin's synchroniser 2 hc ago (R212); it changes at most once in an hc, so three changes tell. -/
def TPin.delayed (p : TPin) (now : Nat) : Bool :=
  match p.moves.find? fun m => decide (m.1 + 80 ≤ now) with
  | some m => m.2
  | none => false

/-- The level of SYNC_OUT (R212). -/
def State.syncPin (s : State) : Bool :=
  match fld s.hearth.syncCtl 1 0 with
  | 0 => false
  | 1 => (s.hearth.tpin[fld s.hearth.syncCtl 3 2 % 4]'(Nat.mod_lt _ (by decide))).delayed s.now
  | _ => decide (s.now < s.hearth.syncUntil)

def execTickEdgeCapture (n : Fin 4) (level : Bool) (s : State) : Out :=
  .next (if s.hearth.por then s else s.edgeCapture n level)

/-- Registers of R209 after a qualifying edge. -/
def TPin.qualified (p : TPin) (ts : Word) : TPin :=
  let gap := ts.toNat - p.last.toNat
  let first := !p.any
  { p with
    any := true
    last := ts
    interval := if first then p.interval else BitVec.ofNat 32 (min (2 ^ 32 - 1) gap)
    edges := p.edges + 1
    fast := p.fast || (!first && decide (gap < 10000))
    cand := none }

/-- OVERRUNS of a lease (R220). -/
def State.countOverrun (s : State) (e : EngIx) : State := s.modTick e fun t => { t with overruns := satAdd t.overruns 1 }

/-- A qualifying edge that finds the FIFO full (R220). -/
def State.edgeLost (s : State) (n : Fin 4) : State :=
  let s1 := s.modPin n fun p => { p with lost := p.lost + 1, ovf := true }
  if (s.hearth.tpin[n.val]).ovf then s1
  else match s.armedOn n with
    | e :: rest =>
      let t := (s.eng e).tick
      let s2 := s1.report { code := 0x43, scope := 2, tenant := some (s.lease t.lease).tenant, unit := n.val, strm := some t.strm }
      rest.foldl (fun u x => u.raiseVector (u.eng x).tick.strm) s2
    | [] => s1

/-- A qualifying edge enters the FIFO (R210): armed leases that were not armed at its capture, and leases whose glove is
frozen (R282), count as having served it. -/
def State.edgeEnter (s : State) (n : Fin 4) (ts : Word) (fast : Bool) (at_ : List EngIx) : State :=
  let armed := s.armedOn n
  let frozen := armed.filter fun e => (s.glv (tickGlove e)).hang.frozen || (s.glv (tickGlove e)).hang.freezing
  let skip := armed.filter fun e => !at_.contains e || frozen.contains e
  let lost := (frozen.filter at_.contains).length
  let s1 := s.modPin n fun p => { p with lost := p.lost + BitVec.ofNat 16 lost, fifo := p.fifo ++ [⟨ts, fast, skip⟩] }
  s1.trimFifo n

/-- TICK_EDGE_QUALIFY (R209, R210, R220, R223): FILTER hc after its capture. -/
def State.edgeQualify (s : State) (n : Fin 4) : State :=
  let p := s.hearth.tpin[n.val]
  match p.cand with
  | none => s
  | some c =>
    let s0 := s.advanceTo (c.ts.toNat + 40 * p.filter)
    let fast := p.any && decide (c.ts.toNat - p.last.toNat < 10000)
    let s1 := s0.modPin n fun p => p.qualified c.ts
    let armed := (s1.armedOn n).filter c.armed.contains
    let s2 := (armed.filter c.behind.contains).foldl State.countOverrun s1
    let s3 := if armed.isEmpty then s2
      else if 16 ≤ p.fifo.length then s2.edgeLost n
      else s2.edgeEnter n c.ts fast c.armed
    (s3.armedOn n).foldl State.refreshWake s3

def execTickEdgeQualify (n : Fin 4) (s : State) : Out := .next (if s.hearth.por then s else s.edgeQualify n)

/-! ### Firing and the seal (R217-R219) -/

/-- TICK_FIRE: every lease of the pin that is due. -/
def execTickFire (n : Fin 4) (s : State) : Out :=
  .next (if s.alive then (s.armedOn n).foldl State.fireIfDue s else s)

/-- SEAL_READ_RETURN. -/
def execSealReadReturn (e : EngIx) (s : State) : Out := .next (if s.alive then s.sealReturn e else s)

/-- GRACE_EXPIRY. -/
def execGraceExpiry (e : EngIx) (s : State) : Out := .next (if s.alive then s.graceEnd e else s)

/-! ### The bypass lane (R222) -/

/-- BYPASS_LANE_SEND: at a TLP boundary with credits, the head of the lane leaves. -/
def execBypassLaneSend (p : PortIx) (s : State) : Out :=
  .next (match (s.port p).lane with
    | x :: rest =>
      if s.alive && (s.port p).lstate == 1 && !(s.port p).d3hot
      then s.modPort p fun y => { y with lane := rest, sent := y.sent ++ y.tlps x } else s
    | [] => s)

/-! ### The wake schedule and SYNC_OUT (R212, R305) -/

/-- PERIOD of an entry as it is taken (R304). -/
def WakeEnt.per (w : WakeEnt) : Nat := max 10000 w.period.toNat

/-- An entry after its due event (R305). -/
def WakeEnt.served (w : WakeEnt) (now : Nat) : WakeEnt :=
  if bitAt w.ctl 1 then { w with due := BitVec.ofNat 64 (w.due.toNat + ((now - w.due.toNat) / w.per + 1) * w.per) }
  else { w with ctl := setFld w.ctl 0 1 0 }

/-- A wake entry wakes an engine: out of DOZE until HOLD has passed or, with TICK, its run ends. -/
def State.holdEngine (ctl : Word) (s : State) (e : EngIx) : State :=
  (s.engineWake e).modEng e fun x =>
    { x with holdUntil := s.now + 1000 * fld ctl 39 24, tickHold := x.tickHold || bitAt ctl 3 }

/-- WAKE_ENTRY_DUE (R305). -/
def State.wakeDue (s : State) (i : Fin 64) : State :=
  let ent := s.hearth.wake[i.val]
  if !bitAt ent.ctl 0 then s
  else
    let s0 := s.advanceTo ent.due.toNat
    let s1 := s0.modHearth fun h => { h with wake := vmod h.wake i fun w => w.served s0.now }
    let s2 := ((allFin 16).filter fun e => bitAt ent.ctl (8 + e.val)).foldl (State.holdEngine ent.ctl) s1
    let s3 := ((allFin 4).filter fun w => bitAt ent.ctl (4 + w.val)).foldl (fun t w => t.wakeWing (some w)) s2
    if bitAt ent.ctl 2 then s3.deviceWake else s3

def execWakeEntryDue (i : Fin 64) (s : State) : Out := .next (if s.hearth.por then s else s.wakeDue i)

/-- SYNC_OUT_PULSE (R212): in MODE 2 the pin goes high for 25 hc at the next multiple of PERIOD. -/
def execSyncOutPulse (s : State) : Out :=
  .next (if s.hearth.por || fld s.hearth.syncCtl 1 0 != 2 then s
    else
      let per := max 10000 (fld s.hearth.syncCtl 39 8)
      let at_ := if s.now % per < 40 then s.now else (s.now / per + 1) * per
      (s.advanceTo at_).modHearth fun h => { h with syncUntil := h.time.toNat + 1000 })

end Sys2Proof.Machine
end

