-- ==== Sys2Proof/Machine/Tenancy.lean ====
section
/-!
DEFINITION. Mailbox requests (R181-R187, R190, R193, R195, R201, R202), manager decisions (R184), and evictions (R205, R206).
-/
namespace Sys2Proof.Machine

/-! ### Evictions (R183, R205) -/

/-- The streams of a tenant that are open. -/
def State.tenStreams (s : State) (t : TenIx) : List StrmIx :=
  (allFin 512).filter fun n => (s.stream n).isOpen && (s.stream n).tenant == t

/-- The leases of a tenant. -/
def State.tenLeases (s : State) (t : TenIx) : List LeaseIx :=
  (allFin 512).filter fun n => (s.lease n).valid && (s.lease n).tenant == t

/-- Whether a tick lease of a tenant is armed or its run is in progress. -/
def State.tenTicking (s : State) (t : TenIx) : Bool := (s.tenLeases t).any s.tickBusy

/-- Whether every stream of a tenant is idle and its tick leases are disarmed (step 4 of R205). -/
def State.evictIdle (s : State) (t : TenIx) : Bool := (s.tenStreams t).all (fun n => (s.stream n).idle) && !s.tenTicking t

/-- Close a stream: a request that waits for it is answered. -/
def State.closeStream (s : State) (n : StrmIx) : State :=
  let r := (s.stream n).reply
  let t := s.tableChange fun s => s.modStream n fun _ => Stream.closed
  match r with
  | some m => t.mbReply m .ok 0
  | none => t

/-- Release a lease of an evicted tenant; a request that waits for its release is answered. -/
def State.dropLease (s : State) (n : LeaseIx) : State :=
  let r := (s.lease n).freeing
  let t := s.releaseLease n
  match r with
  | some m => t.mbReply m .ok 0
  | none => t

/-- Free the bolts of a tenant with count 0. -/
def State.freeBolts (s : State) (t : TenIx) : State :=
  s.modTen fun x => { x with bolts := x.bolts.map fun b => if b.alloc && b.owner == t then Bolt.free else b }

/-- Step 4 and 5 of R205: leases, bolts and rooms go, the entry closes, the manager is signalled EVICTED. -/
def State.closeTenant (s : State) (t : TenIx) : State :=
  let x := s.tenant t
  let s1 := (s.tenStreams t).foldl State.closeStream s
  let s2 := (s1.tenLeases t).foldl State.dropLease s1
  let s3 := s2.tableChange fun s => (s.freeBolts t).modTenant t fun y => Tenant.closed y.openSeq
  let s4 := s3.report { code := 0x47, scope := 2, tenant := some t, unit := x.port.val, info := x.cause.toNat }
  match x.reply with
  | some m => s4.mbReply m .ok 0
  | none => s4

/-- Close an evicted tenant once its streams are idle. -/
def State.evictCheck (s : State) (t : TenIx) : State :=
  if (s.tenant t).evicting && s.evictIdle t then s.closeTenant t else s

/-- Steps 1-3 of R205, and step 4 at once when nothing runs. -/
def State.evict (s : State) (t : TenIx) (cause : Nat) (reply : Option MbIx) : State :=
  if !(s.tenant t).isOpen then s
  else if (s.tenant t).evicting then s
  else
    let s1 := s.tableChange fun s => s.modTenant t fun x =>
      { x with evicting := true, cause := BitVec.ofNat 32 cause, reply := reply, began := s.now }
    let ticks := (s1.tenLeases t).filter s1.tickBusy
    let s2 := ticks.foldl (fun u n => u.disarmQuiet (s1.lease n).engine) s1
    let s3 := (s2.tenStreams t).foldl State.treatStream s2
    s3.evictCheck t

/-- Evict every tenant of a port (R205, R330). -/
def State.evictPort (s : State) (p : MbIx) (cause : Nat) : State :=
  (allFin 64).foldl (fun t n => if (t.tenant n).isOpen && (t.tenant n).port == p then t.evict n cause none else t) s

/-- Evict every tenant (R301). -/
def State.evictAll (s : State) (cause : Nat) : State := (allFin 64).foldl (fun t n => t.evict n cause none) s

/-- A stream that STREAM_CLOSE names is closed once it is idle. -/
def State.closeCheck (s : State) (n : StrmIx) : State :=
  if (s.stream n).reply.isSome && (s.stream n).idle then s.closeStream n else s

/-- EVICTION_COMPLETE (R183, R205). -/
def execEvictionComplete (x : EvictRef) (s : State) : Out :=
  .next (if !s.fabricOn then s
    else match x with
      | .tenant t => s.evictCheck t
      | .stream n => s.closeCheck n)

/-- Whether a stream's eviction or drain has begun and not ended, and when. -/
def State.drainBegan (s : State) (n : StrmIx) : Option Nat :=
  if (s.stream n).draining then some (s.stream n).began else none

/-- Work of a stream that still runs DRAIN_LIMIT after its drain began is treated as under ABORT (R206). -/
def State.limitStream (s : State) (n : StrmIx) : State :=
  match s.drainBegan n with
  | some b => (s.advanceTo (b + s.drainLimit)).abortStream n
  | none => s

/-- DRAIN_LIMIT_EXPIRY (R206). -/
def execDrainLimitExpiry (x : EvictRef) (s : State) : Out :=
  .next (if !s.fabricOn then s
    else match x with
      | .tenant t => if (s.tenant t).evicting then ((s.tenStreams t).foldl State.limitStream s).evictCheck t else s
      | .stream n => (s.limitStream n).closeCheck n)

/-! ### The mailbox (R181, R182) -/

/-- What handling a request came to. -/
inductive MbOut
  | now (st : MbSt) (result : Nat) (s : State)
  | later (s : State)

/-- The REQ words of a request. -/
def reqWords (code : Byte) (r : MbReq) : Vector Word 8 :=
  ((((Vector.replicate 8 0).set 0 (at_ code.toNat 0 ||| at_ r.tenant.toNat 8)).set 1 r.w1).set 2 r.w2).set 3 r.w3

/-- The scheduler takes REQ and GO of a mailbox: BUSY, and the copy of REQ. -/
def Mailbox.take (m : Mailbox) (go : Word) : Mailbox := { m with busy := true, go := go, held := m.req }

/-- PORT_QUOTA fields of a port. -/
def State.quotaFld (s : State) (m : MbIx) (hi lo : Nat) : Nat := fld s.ten.quota[m.val] hi lo
def State.qTenants (s : State) (m : MbIx) : Nat := s.quotaFld m 6 0
def State.qStreams (s : State) (m : MbIx) : Nat := s.quotaFld m 16 7
def State.qBolts (s : State) (m : MbIx) : Nat := s.quotaFld m 29 17
def State.qTicks (s : State) (m : MbIx) : Nat := s.quotaFld m 34 30
def State.qShare (s : State) (m : MbIx) : Nat := s.quotaFld m 42 35
def State.qEngine (s : State) (m : MbIx) (e : Nat) : Bool := bitAt s.ten.quota[m.val] (43 + e)
def State.qApprove (s : State) (m : MbIx) : Bool := bitAt s.ten.quota[m.val] 59

/-- Tenants of a port. -/
def State.portTenants (s : State) (m : MbIx) : List TenIx :=
  (allFin 64).filter fun t => (s.tenant t).isOpen && (s.tenant t).port == m

/-- The tenant that a request names. -/
def reqTenant (w0 : Word) : TenIx := ⟨fld w0 13 8, by unfold fld; omega⟩

/-- A request that acts for its tenant: NOT_OWNER and BUSY first (R182). -/
def State.forTenant (s : State) (m : MbIx) (q : Vector Word 8) (f : TenIx → MbOut) : MbOut :=
  let t := reqTenant q[0]
  if !((s.tenant t).isOpen && (s.tenant t).port == m) then .now .notOwner 0 s
  else if (s.tenant t).evicting then .now .busy 0 s
  else f t

/-- The request waits for MGR_DECIDE: MGR_PEND, APPROVE_PEND (R184). -/
def State.askManager (s : State) (m : MbIx) (t : Option TenIx) : MbOut :=
  .later ((s.modTen fun x => { x with pend := x.pend ||| (1 <<< m.val) }).report { code := 0x51, scope := 2, tenant := t, unit := m.val })

/-! ### OPEN, CLOSE, EVICT, SHARE -/

/-- SHARE of a request. -/
def reqShare (q : Vector Word 8) : Nat := fld q[1] 7 0

/-- OPEN after its checks: the lowest free entry. -/
def State.openNow (s : State) (m : MbIx) (q : Vector Word 8) : MbOut :=
  match (allFin 64).find? fun t => !(s.tenant t).isOpen with
  | none => .now .noResource 0 s
  | some t =>
    .now .ok t.val (s.tableChange fun s => s.modTenant t fun x =>
      { Tenant.closed (x.openSeq + 1) with isOpen := true, port := m, share := BitVec.ofNat 8 (reqShare q) })

/-- OPEN (R182, R184, R185, R331). -/
def State.mbOpen (s : State) (m : MbIx) (q : Vector Word 8) : MbOut :=
  if reqShare q = 0 then .now .badRequest 0 s
  else if (s.portTenants m).any fun t => (s.tenant t).evicting then .now .busy 0 s
  else if s.qTenants m ≤ (s.portTenants m).length ∨ s.qShare m < reqShare q then .now .quota 0 s
  else if s.qApprove m then s.askManager m none else s.openNow m q

/-- CLOSE (R183). -/
def State.mbClose (s : State) (m : MbIx) (q : Vector Word 8) : MbOut :=
  s.forTenant m q fun t => .later (s.evict t 4 (some m))

/-- EVICT (R182, R183): the manager's mailbox only. -/
def State.mbEvict (s : State) (m : MbIx) (q : Vector Word 8) : MbOut :=
  let t := reqTenant q[0]
  if m ≠ mgrMb s.hearth.mgrSel ∨ !(s.tenant t).isOpen then .now .badRequest 0 s
  else if (s.tenant t).evicting then .now .busy 0 s
  else .later (s.evict t 5 (some m))

/-- SHARE (R201). -/
def State.mbShare (s : State) (m : MbIx) (q : Vector Word 8) : MbOut :=
  s.forTenant m q fun t =>
    if reqShare q = 0 then .now .badRequest 0 s
    else if s.qShare m < reqShare q then .now .quota 0 s
    else .now .ok 0 (s.tableChange fun s => s.modTenant t fun x => { x with share := BitVec.ofNat 8 (reqShare q) })

/-! ### ROOM_SET (R186, R187, R326) -/

/-- The room that a request describes. -/
def reqRoom (q : Vector Word 8) : Room :=
  { valid := true, perm := BitVec.ofNat 5 (fld q[1] 8 4), base := BitVec.ofNat 36 (fld q[2] 47 12),
    limit := BitVec.ofNat 36 (fld q[3] 47 12), guest := BitVec.ofNat 6 (fld q[1] 14 9), guestEn := bitAt q[1] 15 }

/-- Whether two rooms meet. -/
def Room.meets (a b : Room) : Bool := decide (a.base.toNat ≤ b.limit.toNat) && decide (b.base.toNat ≤ a.limit.toNat)

/-- Whether BASE and LIMIT are in range: 4 KiB boundaries, 48 bits, not empty. -/
def roomRange (q : Vector Word 8) : Bool :=
  fld q[2] 11 0 == 0 && fld q[3] 11 0 == 0xFFF && fld q[2] 63 48 == 0 && fld q[3] 63 48 == 0 && decide (q[2].toNat ≤ q[3].toNat)

/-- Whether a room may be set (R186, R326). -/
def State.roomAllowed (s : State) (t : TenIx) (k : Nat) (r : Room) : Bool :=
  !(r.host && (s.tenant t).port == 4)
    && (r.host || decide (r.limit.toNat < 0x40000) || decide (0x5FFFF < r.base.toNat))
    && (List.range 16).all fun j => j == k || match (s.tenant t).rooms[j]? with
      | some x => !(x.valid && x.host != r.host && x.meets r)
      | none => true

/-- ROOM_SET. -/
def State.mbRoom (s : State) (m : MbIx) (q : Vector Word 8) : MbOut :=
  s.forTenant m q fun t =>
    let k : Fin 16 := ⟨fld q[1] 3 0, by unfold fld; omega⟩
    let r := reqRoom q
    let put (x : Room) : State := s.tableChange fun s => s.modTenant t fun y => { y with rooms := vset y.rooms k x }
    if r.perm = 0 then .now .ok 0 (put Room.empty)
    else if !(roomRange q && s.roomAllowed t k.val r) then .now .badRequest 0 s
    else .now .ok 0 (put r)

/-! ### LEASE and LEASE_FREE (R190, R191) -/

/-- The fields of a LEASE request. -/
structure LeaseReq where
  kind : Nat
  engine : Nat
  first : Nat
  pages : Nat
  emask : Nat
  deriving DecidableEq, Repr

def leaseReq (q : Vector Word 8) : LeaseReq :=
  ⟨fld q[1] 1 0, fld q[1] 9 2, fld q[1] 16 10, fld q[1] 21 17, fld q[2] 15 0⟩

/-- Whether the operands of a LEASE request are in range (R182). -/
def LeaseReq.ok (r : LeaseReq) : Bool :=
  match r.kind with
  | 0 => r.emask == 0 && (decide (r.engine < 16) || r.engine == 0xFF)
  | 1 => r.emask != 0 || decide (r.engine < 16)
  | 2 => r.emask == 0 && decide (r.engine < 16) && decide (1 ≤ r.pages) && decide (r.pages ≤ 16) && decide (r.first + r.pages ≤ 128)
  | _ => false

/-- The leases of a kind on an engine. -/
def State.leasesOn (s : State) (kind : Nat) (e : Nat) : List LeaseIx :=
  (allFin 512).filter fun n => (s.lease n).valid && (s.lease n).kind.toNat == kind && bitAt (s.lease n).emask e

/-- The engine set of a request: for ENGINE = 0xFF, the engine of the mask with the fewest glove-lease contexts. -/
def State.leaseSet (s : State) (m : MbIx) (r : LeaseReq) : List Nat :=
  if r.kind = 1 ∧ r.emask ≠ 0 then (List.range 16).filter fun e => (r.emask >>> e) % 2 == 1
  else if r.engine = 0xFF then
    match least (fun e => (s.leasesOn 0 e).length) ((List.range 16).filter (s.qEngine m)) with
    | some e => [e]
    | none => []
  else [r.engine]

/-- Whether the quota admits a request (R185): the engine mask, and TICKS for a tick lease. -/
def State.leaseQuota (s : State) (m : MbIx) (r : LeaseReq) (set : List Nat) : Bool :=
  !set.isEmpty && set.all (s.qEngine m) &&
    (r.kind != 2 || decide (((allFin 512).filter fun n =>
      (s.lease n).valid && (s.lease n).kind == 2 && (s.tenant (s.lease n).tenant).port == m).length < s.qTicks m))

/-- The lowest free save slot of a wing (R191). -/
def State.freeSlot (s : State) (w : WingIx) : Option (BitVec 6) :=
  let slots := min 64 (fld s.ten.save[w.val] 54 48)
  let used := (s.ten.leases.toList.filter fun l => l.valid && l.kind == 0 && wingOf l.engine == w).map (·.slot.toNat)
  ((List.range slots).find? fun k => !used.contains k).map (BitVec.ofNat 6)

/-- Whether the conditions of R190 hold on the engines; none of the pages is pinned. -/
def State.leaseAdmits (s : State) (r : LeaseReq) (set : List Nat) : Bool :=
  match r.kind with
  | 0 => set.all fun e => (s.leasesOn 1 e).isEmpty && decide ((s.leasesOn 0 e).length < 16)
  | 1 => set.all fun e => (s.leasesOn 0 e).isEmpty && (s.leasesOn 1 e).isEmpty && (s.leasesOn 2 e).isEmpty
  | _ => set.all fun e => (s.leasesOn 1 e).isEmpty && (s.leasesOn 2 e).isEmpty &&
      (List.range r.pages).all fun k => (s.pinHolder (wingNo (e / 4)) (r.first + k)).isNone

/-- The lease entry of a request. -/
def leaseEntry (r : LeaseReq) (t : TenIx) (e : EngIx) (set : List Nat) (slot : BitVec 6) : Lease :=
  { Lease.free with
    valid := true, kind := BitVec.ofNat 2 r.kind, tenant := t, engine := e,
    firstPage := if r.kind = 2 then BitVec.ofNat 7 r.first else 0, pages := if r.kind = 2 then BitVec.ofNat 5 r.pages else 0,
    slot := slot, emask := BitVec.ofNat 16 ((set.map fun k => 2 ^ k).sum) }

/-- The admission of a lease; of a tick lease also its pages, glove 3 and cupboard slots 56-63 (R190). -/
def State.admitLease (s : State) (n : LeaseIx) (l : Lease) : State :=
  let s1 := s.tableChange fun s => s.modLease n fun _ => l
  if l.kind = 2 then
    (s1.setPins l true).modEng l.engine fun x =>
      { x with
        cupboard := x.cupboard.mapFinIdx fun i y _ => if 56 ≤ i then { y with valid := false } else y
        gloves := vmod x.gloves 3 fun g => { g with pinned := true, tenant := l.tenant, lease := n } }
  else s1

/-- LEASE after its quota and approval (R190). -/
def State.leaseNow (s : State) (m : MbIx) (q : Vector Word 8) (t : TenIx) : MbOut :=
  let r := leaseReq q
  let set := s.leaseSet m r
  match set.min? with
  | none => .now .busy 0 s
  | some lo =>
    let e : EngIx := ⟨lo % 16, by omega⟩
    if !s.leaseAdmits r set then .now .busy 0 s
    else
      let slot := if r.kind = 0 then s.freeSlot (wingOf e) else some 0
      match slot, (allFin 512).find? fun n => !(s.lease n).valid with
      | some k, some n => .now .ok n.val (s.admitLease n (leaseEntry r t e set k))
      | _, _ => .now .noResource 0 s

/-- LEASE. -/
def State.mbLease (s : State) (m : MbIx) (q : Vector Word 8) : MbOut :=
  s.forTenant m q fun t =>
    let r := leaseReq q
    if !r.ok then .now .badRequest 0 s
    else if !s.leaseQuota m r (s.leaseSet m r) then .now .quota 0 s
    else if s.qApprove m then s.askManager m (some t) else s.leaseNow m q t

/-- The commands of a stream that work on a lease end under ABORT; under DRAIN they run on. -/
def State.freeOn (l : LeaseIx) (s : State) (n : StrmIx) : State :=
  let st := s.stream n
  if st.abort then (st.cmds.filter fun c => c.started && recLease c.record == some l.val).foldl (State.abortCmd false n) s else s

/-- LEASE_FREE (R190): waits for the lease's running work under the abort policy of each stream that uses it. -/
def State.mbLeaseFree (s : State) (m : MbIx) (q : Vector Word 8) : MbOut :=
  s.forTenant m q fun t =>
    let n : LeaseIx := ⟨fld q[1] 8 0, by unfold fld; omega⟩
    if !((s.lease n).valid && (s.lease n).tenant == t) then .now .notOwner 0 s
    else
      let s1 := s.modLease n fun l => { l with freeing := some m }
      let s2 := (s1.tenStreams t).foldl (State.freeOn n) s1
      .later ((if (s2.lease n).kind = 2 then s2.disarmQuiet (s2.lease n).engine else s2).leaseSweep)

/-! ### Streams (R182, R193, R195, R327) -/

/-- The QOS range of a class (R193). -/
def qosOk (cls qos : Nat) : Bool :=
  match cls with
  | 0 => decide (1 ≤ qos) && decide (qos ≤ 14)
  | 1 => decide (1 ≤ qos) && decide (qos ≤ 13)
  | 2 => decide (1 ≤ qos) && decide (qos ≤ 10)
  | _ => decide (qos ≤ 5)

/-- The stream that a STREAM_OPEN describes. -/
def reqStream (q : Vector Word 8) (t : TenIx) : Stream :=
  { Stream.closed with
    isOpen := true, tenant := t, cls := BitVec.ofNat 2 (fld q[1] 1 0), qos := BitVec.ofNat 4 (fld q[1] 5 2),
    align := bitAt q[1] 6, abort := bitAt q[1] 7, loc := bitAt q[1] 8, logSize := BitVec.ofNat 4 (fld q[1] 12 9),
    vector := BitVec.ofNat 7 (fld q[1] 19 13), ringBase := q[2], complBase := q[3] }

/-- Whether a range lies in Hall SRAM under the mapping in force. -/
def State.inSram (s : State) (a n : Nat) : Bool := (spots a n).all fun x =>
  match decodeAddr s.hall.remap x with
  | .sram _ => true
  | _ => false

/-- Whether the rings of a stream may be where it puts them (R195, R326). -/
def State.ringsOk (s : State) (x : Stream) : Bool :=
  let r := x.ringBase.toNat
  let c := x.complBase.toNat
  r % 64 == 0 && c % 64 == 0 &&
    if x.loc then
      s.inSram r (64 * x.size) && s.inSram c (32 * x.size) && s.roomOk x.tenant r (64 * x.size) .r && s.roomOk x.tenant c (32 * x.size) .w
    else (s.tenant x.tenant).port != 4 && decide (r + 64 * x.size ≤ 2 ^ 48) && decide (c + 32 * x.size ≤ 2 ^ 48)

/-- Whether a tenant holds a tick lease. -/
def State.tenHoldsTick (s : State) (t : TenIx) : Bool := (s.tenLeases t).any fun n => (s.lease n).kind == 2

/-- STREAM_OPEN. -/
def State.mbStreamOpen (s : State) (m : MbIx) (q : Vector Word 8) : MbOut :=
  s.forTenant m q fun t =>
    let x := reqStream q t
    if !(qosOk x.cls.toNat x.qos.toNat && decide (4 ≤ x.vector.toNat) && decide (x.logSize.toNat ≤ 12) && s.ringsOk x
        && (x.cls != 0 || s.tenHoldsTick t)) then .now .badRequest 0 s
    else if s.qStreams m ≤ ((s.portTenants m).map fun u => (s.tenStreams u).length).sum then .now .quota 0 s
    else match (allFin 512).find? fun n => !(s.stream n).isOpen with
      | none => .now .noResource 0 s
      | some n => .now .ok n.val (s.tableChange fun s => s.modStream n fun _ => x)

/-- The stream that a request names. -/
def reqStrm (q : Vector Word 8) : StrmIx := ⟨fld q[1] 8 0, by unfold fld; omega⟩

/-- A request on a stream of its tenant. -/
def State.forStream (s : State) (m : MbIx) (q : Vector Word 8) (f : StrmIx → MbOut) : MbOut :=
  s.forTenant m q fun t =>
    let n := reqStrm q
    if !((s.stream n).isOpen && (s.stream n).tenant == t) then .now .notOwner 0 s else f n

/-- STREAM_SET. -/
def State.mbStreamSet (s : State) (m : MbIx) (q : Vector Word 8) : MbOut :=
  s.forStream m q fun n =>
    let qos := fld q[1] 12 9
    let v := fld q[1] 21 15
    if !(qosOk (s.stream n).cls.toNat qos && decide (4 ≤ v)) then .now .badRequest 0 s
    else .now .ok 0 (s.tableChange fun s => s.modStream n fun x =>
      { x with qos := BitVec.ofNat 4 qos, align := bitAt q[1] 13, abort := bitAt q[1] 14, vector := BitVec.ofNat 7 v })

/-- STREAM_CLOSE (R183). -/
def State.mbStreamClose (s : State) (m : MbIx) (q : Vector Word 8) : MbOut :=
  s.forStream m q fun n =>
    if (s.stream n).reply.isSome then .now .busy 0 s
    else .later (((s.modStream n fun x => { x with reply := some m }).treatStream n).closeCheck n)

/-! ### Bolts (R183, R202) -/

/-- Bolts of a port's tenants. -/
def State.portBolts (s : State) (m : MbIx) : Nat :=
  (s.ten.bolts.toList.filter fun b => b.alloc && (s.tenant b.owner).port == m).length

/-- The lowest bolt from which n bolts are free. -/
def State.freeRun (s : State) (n : Nat) : Option Nat :=
  (List.range (4097 - n)).find? fun a => (List.range n).all fun k => match s.ten.bolts[a + k]? with
    | some b => !b.alloc
    | none => false

/-- Change a run of bolts. -/
def State.modRun (s : State) (first n : Nat) (f : Bolt → Bolt) : State :=
  s.modTen fun x => { x with bolts := x.bolts.mapFinIdx fun i b _ => if first ≤ i ∧ i < first + n then f b else b }

/-- BOLT_ALLOC. -/
def State.mbBoltAlloc (s : State) (m : MbIx) (q : Vector Word 8) : MbOut :=
  s.forTenant m q fun t =>
    let n := fld q[1] 6 0 + 1
    if s.qBolts m < s.portBolts m + n then .now .quota 0 s
    else match s.freeRun n with
      | none => .now .noResource 0 s
      | some a => .now .ok a (s.tableChange fun s => s.modRun a n fun _ =>
          { Bolt.free with count := BitVec.ofNat 32 (fld q[1] 63 32), owner := t, alloc := true })

/-- BOLT_FREE. -/
def State.mbBoltFree (s : State) (m : MbIx) (q : Vector Word 8) : MbOut :=
  s.forTenant m q fun t =>
    let a := fld q[1] 11 0
    let n := fld q[1] 18 12 + 1
    let l := (List.range n).map fun k => s.ten.bolts[a + k]?
    if 4096 < a + n then .now .badRequest 0 s
    else if l.any (fun b => match b with
        | some b => !(b.alloc && b.owner == t)
        | none => true) then .now .notOwner 0 s
    else if l.any (fun b => match b with
        | some b => !b.fifo.isEmpty
        | none => false) then .now .busy 0 s
    else .now .ok 0 (s.tableChange fun s => s.modRun a n fun _ => Bolt.free)

/-! ### Taking a request -/

/-- The request of a code. -/
def State.mbHandle (s : State) (m : MbIx) (q : Vector Word 8) : MbOut :=
  match fld q[0] 7 0 with
  | 0x01 => s.mbOpen m q
  | 0x02 => s.mbClose m q
  | 0x03 => s.mbRoom m q
  | 0x04 => s.mbLease m q
  | 0x05 => s.mbLeaseFree m q
  | 0x06 => s.mbStreamOpen m q
  | 0x07 => s.mbStreamSet m q
  | 0x08 => s.mbStreamClose m q
  | 0x09 => s.mbBoltAlloc m q
  | 0x0A => s.mbBoltFree m q
  | 0x0B => s.mbShare m q
  | 0x10 => s.mbEvict m q
  | _ => .now .badRequest 0 s

/-- What a handled request does to its mailbox: it is answered, or it stays BUSY. -/
def MbOut.finish (m : MbIx) : MbOut → State
  | .now st v s => s.mbReply m st v
  | .later s => s

/-- A write of GO (R181): ignored with COLLIDE while BUSY, else `f` acts on the copy of REQ. -/
def State.go (s : State) (m : MbIx) (v : Word) (f : State → MbOut) : State :=
  if !s.fabricOn then s
  else if (s.mbox m).busy then s.modMb m fun x => { x with collide := true }
  else
    let s1 := s.modMb m fun x => x.take v
    (f (if m = 4 then s1.modCores fun c => { c with mailboxIrq := false } else s1)).finish m

/-- A write of GO acts on what REQ holds. -/
def State.writeGo (s : State) (m : MbIx) (v : Word) : State :=
  s.go m v fun t => t.mbHandle m (t.mbox m).held

/-- A request: REQ is written, then GO. -/
def State.request (s : State) (code : Byte) (r : MbReq) (f : State → MbIx → Vector Word 8 → MbOut) : State :=
  if !s.fabricOn then s
  else (s.modMb r.mb fun x => { x with req := reqWords code r }).go r.mb r.seq fun t => f t r.mb (t.mbox r.mb).held

def execOpenT (r : MbReq) (s : State) : Out := .next (s.request 0x01 r State.mbOpen)
def execCloseT (r : MbReq) (s : State) : Out := .next (s.request 0x02 r State.mbClose)
def execRoomSet (r : MbReq) (s : State) : Out := .next (s.request 0x03 r State.mbRoom)
def execLease (r : MbReq) (s : State) : Out := .next (s.request 0x04 r State.mbLease)
def execLeaseFree (r : MbReq) (s : State) : Out := .next (s.request 0x05 r State.mbLeaseFree)
def execStreamOpen (r : MbReq) (s : State) : Out := .next (s.request 0x06 r State.mbStreamOpen)
def execStreamSet (r : MbReq) (s : State) : Out := .next (s.request 0x07 r State.mbStreamSet)
def execStreamClose (r : MbReq) (s : State) : Out := .next (s.request 0x08 r State.mbStreamClose)
def execBoltAlloc (r : MbReq) (s : State) : Out := .next (s.request 0x09 r State.mbBoltAlloc)
def execBoltFree (r : MbReq) (s : State) : Out := .next (s.request 0x0A r State.mbBoltFree)
def execShare (r : MbReq) (s : State) : Out := .next (s.request 0x0B r State.mbShare)
def execEvict (r : MbReq) (s : State) : Out := .next (s.request 0x10 r State.mbEvict)

/-- A code that R182 does not list. -/
def execBadRequest (r : MbReq) (code : Byte) (s : State) : Out := .next (s.request code r State.mbHandle)

/-! ### MGR_DECIDE (R184) -/

/-- An admitted request goes on past its quota; a tenant that is gone or EVICTING by then gives BUSY. -/
def State.admitted (s : State) (m : MbIx) : MbOut :=
  let q := (s.mbox m).held
  let t := reqTenant q[0]
  if fld q[0] 7 0 = 1 then s.openNow m q
  else if (s.tenant t).isOpen && (s.tenant t).port == m && !(s.tenant t).evicting then s.leaseNow m q t
  else .now .busy 0 s

/-- A decision on the request that waits in a mailbox. -/
def State.decideMb (s : State) (m : MbIx) (allow : Bool) : State :=
  let s1 := s.modTen fun x => { x with decide := vset x.decide m allow }
  if bitAt s1.ten.pend m.val then
    let s2 := s1.modTen fun x => { x with pend := x.pend &&& ~~~((1 : BitVec 5) <<< m.val) }
    (if allow then s2.admitted m else .now .denied 0 s2).finish m
  else s1

/-- MGR_DECIDE: the manager only. -/
def execMgrDecide (by_ : Writer) (m : MbIx) (allow : Bool) (s : State) : Out :=
  .next (if s.fabricOn then s.asManager by_ fun s => s.decideMb m allow else s)

end Sys2Proof.Machine
end

