-- ==== Sys2Proof/Machine/Events.lean ====
section
/-!
DEFINITION. Events of an engine and of the fabric's masters: the end of an instance (R77), responses (R24-R26), fences (R29),
and row steps of the shared units (R61).
-/
namespace Sys2Proof.Machine

/-- The instance on a glove has drained and fenced (R77). -/
def State.instanceEnd (s : State) (gl : GloveRef) : State :=
  let g := s.glv gl
  match g.wait with
  | .ending st =>
    if !(s.alive && g.inflight.isEmpty && !g.hang.frozen && !g.hang.freezing && !g.swapping) then s
    else match g.kind with
      | .tick => (s.fenceClean (· == gloveWho gl)).tickRunEnd gl.e
      | _ => (((s.fenceClean (· == gloveWho gl)).traceEnd gl stOk).releaseGlove gl).instDone g.strm g.cmdIx gl st
  | _ => s

def execInstanceEnd (gl : GloveRef) (s : State) : Out := .next (s.instanceEnd gl)

/-! ### Responses (R24-R26) -/

/-- Change a link direction. -/
def State.modLink (s : State) (l : LinkId) (f : Link → Link) : State :=
  match l with
  | .out w j => s.modWing w fun x => { x with links := vmod x.links j f }
  | .hallTo w => s.modHall fun h => { h with toWing := vmod h.toWing w f }

/-- The other direction of a link. -/
def linkBack : LinkId → LinkId
  | .out w j => if j = 3 then .hallTo w else
    let v : WingIx := if j.val < w.val then j else j + 1
    .out v (meshPort v w)
  | .hallTo w => .out w 3

/-- A response takes the credits of its flits on a link direction, four of which are left to tick transactions; none where it finds too
few (R30). The receiver gives them back in the next hearth cycle (DESIGN CHOICE, log 46). -/
def State.rspTake (s : State) (l : Option LinkId) (tick : Bool) (n : Nat) : Option State :=
  match l with
  | none => some s
  | some l => if (s.link l).rspUsed + n ≤ (if tick then 128 else 124) then some (s.modLink l fun k => { k with rspUsed := k.rspUsed + n }) else none

/-- Whether a transaction at a port is one of a master with a memory ID (R26). -/
def ownsReq (m : MasterRef) (p : PortId) (r : Req) : Bool :=
  match m, p with
  | .hall i id, .hall _ => r.master.val == i.val && r.id == id
  | .wing w i id, .wing v _ _ => w == v && r.master.val == i.val && r.id == id
  | _, _ => false

/-- Remove the first element that a test accepts. -/
def eraseFirst {α : Type} (f : α → Bool) : List α → List α
  | [] => []
  | x :: l => if f x then l else x :: eraseFirst f l

/-- The oldest transaction of a master with a memory ID that has been granted, if none of its transactions issued before it still waits for a
grant: responses of an ID return in issue order (R26). -/
def State.nextTxn (s : State) (m : MasterRef) : Option Txn :=
  match least (·.req.order) (s.hall.txns.filter fun t => ownsReq m t.port t.req) with
  | none => none
  | some t => if s.anyWaits fun p r => ownsReq m p r && decide (r.order < t.req.order) then none else some t

/-- The oldest transaction of a master returns: its tracker entry goes, the link credits of its flits return (R25, R30), and its response
takes credits of its own channel on the way back, without which it waits. -/
def State.endTxn (s : State) (m : MasterRef) : State :=
  match s.nextTxn m with
  | none => s
  | some t =>
    match s.rspTake ((portLink t.port).map linkBack) (t.req.qos == 15) (flitsFor (!t.req.write) t.req.bytes) with
    | none => s
    | some s1 =>
      let u := s1.modHall fun h => { h with txns := eraseFirst (· == t) h.txns }
      match portLink t.port with
      | some l => u.modLink l fun k => { k with reqUsed := k.reqUsed - reqFlits t.req }
      | none => u

/-- The last transaction that the oldest response of a glove brings; its others have returned before. -/
def Glove.lastReq (g : Glove) : Option GloveReq :=
  match g.responses with
  | x :: _ => (x.reqs.take x.ids).getLast?
  | [] => none

/-- The response of a glove takes the credits of its last transaction on the link that brings it (R30); none where there are too few. -/
def State.gloveRsp (s : State) (gl : GloveRef) : Option State :=
  match (s.glv gl).lastReq with
  | none => some s
  | some q => s.rspTake ((s.reqLink gl q.addr).map linkBack) (s.gloveQos gl == 15) (flitsFor (!q.write) q.bytes)

/-- A response of a glove returns, once the link brings it. -/
def State.returnTo (s : State) (gl : GloveRef) : State :=
  match s.gloveRsp gl with
  | some t => ((t.deliver gl).copyCheck gl).sealSweep
  | none => s

/-- MEMORY_RESPONSE (R26): to a glove, its oldest response; to another master, the answer to the oldest transaction of its ID. -/
def execMemoryResponse (m : MasterRef) (s : State) : Out :=
  .next (match m with
    | .glove gl => if s.alive then s.returnTo gl else s
    | m => s.endTxn m)

/-- The masters whose writes the fence of a master of the fabric covers, by the code of `AccSrc` (R29). -/
def fenceCovers (m : MasterRef) (c : Nat) : Bool :=
  let ofWing (w : Nat) : Bool := decide (c < 64) && c / 16 == w
  match m with
  | .glove gl => c == gloveWho gl
  | .hall i _ => if i.val < 5 then c == 64 + i.val else if i.val < 9 then ofWing (i.val - 5) else c == 60 + i.val
  | .wing w i _ => c == 80 + 8 * w.val + i.val ||
    (if i.val < 4 then decide (c < 64) && c / 4 == 4 * w.val + i.val
    else if i.val < 7 then ofWing (if i.val - 4 < w.val then i.val - 4 else i.val - 3)
    else decide (64 ≤ c) && decide (c < 80))

/-- Whether an access that waits is one of a master of the fabric. -/
def State.heldOf (s : State) (m : MasterRef) (h : HeldAcc) : Bool :=
  match m, h with
  | .hall i _, .read p _ _ _ => i.val == p.val
  | .hall i _, .write p _ _ _ _ => i.val == p.val
  | .wing w i _, .acc a => a.master.val == i.val && (decodeAddr s.hall.remap a.addr).wing == some w
  | _, _ => false

/-- Whether an access of a glove passes the fabric as one of a master: of its engine at its own wing, of the mesh inbound port at another,
of the wing's link at the Hall. -/
def State.passesAs (s : State) (gl : GloveRef) (m : MasterRef) (q : GloveReq) : Bool :=
  match m, s.wingTo gl q.addr with
  | .wing w i _, some v => (decide (i.val < 4) && gl.e.val == 4 * w.val + i.val) || (v == w && masterAt gl.e w == i.val)
  | .wing w i _, none => decide (i.val < 4) && gl.e.val == 4 * w.val + i.val
  | .hall i _, none => i.val == 5 + (wingOf gl.e).val
  | _, _ => false

/-- Whether a master of the fabric has a transaction that waits, is granted, is held or has not returned (R29). -/
def State.hasOpen (s : State) (m : MasterRef) : Bool :=
  let of (p : PortId) (r : Req) : Bool := match m, p with
    | .hall i _, .hall _ => r.master.val == i.val
    | .wing w i _, .wing v _ _ => w == v && r.master.val == i.val
    | _, _ => false
  s.hall.txns.any (fun t => of t.port t.req) || s.anyWaits of || s.hall.held.any (s.heldOf m)
    || allGloves.any fun gl => (s.glv gl).responses.any fun y => y.reqs.any (s.passesAs gl m)

/-- FABRIC_FENCE_COMPLETE (R29, R43, R87): of a glove, its `fence` ends; of another master once every earlier transaction of it is
visible or has returned, the lines that it covers are written back. -/
def execFabricFenceComplete (m : MasterRef) (s : State) : Out :=
  .next (match m with
    | .glove gl => if s.gloveReady gl || (s.glv gl).state == 2 then s.fenceDone gl else s
    | m => if s.hasOpen m then s else s.fenceClean (fenceCovers m))

/-- ROW_STEP_END (R61): the unit runs the next waiting row step, the armed tick glove first, then by its pointer. -/
def State.rowStepEnd (s : State) (e : EngIx) (u : UnitName) : State :=
  match s.nextForUnit e u with
  | some (g, k) => ((s.runRow ⟨e, g⟩ k u).1.copyCheck ⟨e, g⟩).sealSweep
  | none => s

def execRowStepEnd (e : EngIx) (u : UnitName) (s : State) : Out := .next (s.rowStepEnd e u)

end Sys2Proof.Machine
end

