-- ==== Sys2Proof/Machine/Fabric.lean ====
section
/-!
DEFINITION. The fabric (R15-R32): arbitration at target ports, aging, links, REMAP.
-/
namespace Sys2Proof.Machine

/-! ### Ports -/

/-- A port that nothing has used. -/
def PortSt.fresh (p : PortId) : PortSt := ⟨p, [], 0, 0, Vector.replicate 65 0⟩

/-- The state of a target port. -/
def State.portSt (s : State) (p : PortId) : PortSt := (s.hall.ports.find? (·.port == p)).getD (PortSt.fresh p)

/-- Replace the state of a target port. -/
def State.setPort (s : State) (x : PortSt) : State :=
  s.modHall fun h =>
    let l := if h.ports.any fun y => y.port == x.port then h.ports.map fun y => if y.port == x.port then x else y
      else h.ports ++ [x]
    { h with ports := l }

/-- Masters of a port's switch: 16 in the Hall, 8 in a wing. -/
def portMasters : PortId → Nat
  | .hall _ => 16
  | .wing _ _ _ => 8

/-- Whether a port arbitrates in QOS mode (R23). -/
def State.qosMode (s : State) : PortId → Bool
  | .hall t => bitAt s.hall.arbMode t.val
  | .wing w t _ => bitAt (s.wing w).arbMode t.val

/-- The priority that a port gives to a master (R21). -/
def State.prioOf (s : State) (p : PortId) (m : Nat) : Nat :=
  match p with
  | .hall t => fld s.hall.prio[t.val] (3 * m + 2) (3 * m)
  | .wing w t _ => fld (s.wing w).prio[t.val] (3 * m + 2) (3 * m)

/-- Whether ties at a port go by shares in QOS mode (R22): MO_0-MO_2, HO and WT_0-WT_3. -/
def portByShare : PortId → Bool
  | .hall t => decide (6 ≤ t.val) && decide (t.val ≤ 9)
  | .wing _ t _ => decide (2 ≤ t.val) && decide (t.val ≤ 5)

/-- The wing in whose LINK_STAT a link direction shows (R353). -/
def linkWing : LinkId → WingIx
  | .out w _ => w
  | .hallTo w => w

/-! ### Admission to arbitration -/

/-- The engines behind a master of a port's switch (the tables before R17). -/
def masterEngines (p : PortId) (m : Nat) : List EngIx :=
  match p with
  | .hall _ => if 5 ≤ m ∧ m ≤ 8 then (allFin 16).filter fun e => (wingOf e).val == m - 5 else []
  | .wing w _ _ =>
    if m < 4 then (allFin 16).filter fun e => e.val == 4 * w.val + m
    else if m < 7 then (allFin 16).filter fun e => wingOf e != w && (meshPort w (wingOf e)).val == m - 4
    else []

/-- Whether a master acts for the armed tick lease of a tenant now: one of its engines has a tick run in progress for it (R19, R217). -/
def State.actsForTick (s : State) (p : PortId) (r : Req) : Bool :=
  (masterEngines p r.master.val).any fun e =>
    let g := s.glv (tickGlove e)
    g.armed && g.tenant.val == r.tenant.val

/-- The ceiling of the QoS that a transaction may carry: that of its stream (R194). -/
def State.ceiling (s : State) (r : Req) : Nat :=
  match r.strm with
  | some n => (s.stream n).qos.toNat
  | none => 15

/-- The clamp of a master port (R19): the QoS of an armed tick lease is 15 (R36, R216); any other is at most 14 and the ceiling of its
stream. -/
def State.reqClamp (s : State) (p : PortId) (r : Req) : Req :=
  if r.tick && s.actsForTick p r then { r with qos := 15 }
  else { r with tick := false, qos := BitVec.ofNat 4 (min (min 14 r.qos.toNat) (s.ceiling r)) }

/-- Whether a transaction leads to a target of a switch (the tables before R17). A port to the hosts, and the link out of a wing to the Hall,
carry host addresses too, which the part does not decode. -/
def State.leadsTo (s : State) (p : PortId) (r : Req) : Bool :=
  let t := decodeAddr s.hall.remap r.addr
  let local_ (a : Nat) : Bool := decide (0x42000000 ≤ a) && decide (a < 0x48000000)
  match p with
  | .hall k =>
    if 2 ≤ k.val ∧ k.val ≤ 5 then true
    else match t with
      | .rom _ | .sram _ => k == 0
      | .reg a => if local_ a then decide (6 ≤ k.val) && decide (k.val ≤ 9) else k == 1
      | .pantry w _ | .hbm w _ => k.val == 6 + w.val
      | .census _ => k == 10
      | .none => false
  | .wing w k _ =>
    if k = 5 then true
    else match t with
      | .pantry v _ => if v = w then k == 0 else k.val == 2 + (meshPort w v).val
      | .hbm v _ => if v = w then k == 1 else k.val == 2 + (meshPort w v).val
      | .reg a => k == 6 && local_ a
      | _ => false

/-- The lane of a wing target for an address, and the bytes from it to the end of that lane's interleave (R34). -/
def State.laneAt (s : State) (k : Fin 7) (a : Nat) : Fin 16 × Nat :=
  let lane (n : Nat) : Fin 16 := ⟨n % 16, by omega⟩
  match decodeAddr s.hall.remap a, k with
  | .pantry _ o, 0 => (lane (o / 256), 256 - a % 256)
  | .hbm _ o, 1 => (lane ((o / 256 % 16) ^^^ (o / 65536 % 16)), 256 - a % 256)
  | _, 6 => (0, 256)
  | _, _ => (lane (a / 64 % 4), 64 - a % 64)

/-- The parts of a transaction at the lane ports of its target (R34), each at the port of its lane. At a Hall target it is one. -/
def State.laneParts (s : State) (p : PortId) (r : Req) : Nat → Nat → Nat → List (PortId × Req)
  | 0, _, _ => []
  | fuel + 1, a, n =>
    if n = 0 then []
    else match p with
      | .hall _ => [(p, r)]
      | .wing w k _ =>
        let x := s.laneAt k a
        let m := min n x.2
        (.wing w k x.1, { r with addr := a, bytes := m }) :: s.laneParts p r fuel (a + m) (n - m)

/-- Transactions of a master outstanding at the ports of one switch (R24). -/
def State.outstanding (s : State) (p : PortId) (m : Fin 16) : Nat :=
  (s.hall.txns.filter fun t => match p, t.port with
    | .hall _, .hall _ => t.req.master == m
    | .wing w _ _, .wing v _ _ => v == w && t.req.master == m
    | _, _ => false).length

/-- How many transactions a master may have outstanding (R24); none where the manual gives no limit. -/
def masterLimit (p : PortId) (m : Nat) : Option Nat :=
  match p with
  | .hall _ => if m < 4 then some 256 else if m = 4 then some 64 else if m = 9 then some 64 else if m = 10 then some 32
      else if m = 11 then some 32 else if m = 12 then some 16 else none
  | .wing _ _ _ => if m < 4 then some 128 else none

/-- Whether a transaction has what it needs to be granted: a place under its master's limit, a tracker entry of its class, and
link credits of its class (R24, R25, R30). None is granted into the range that a change of REMAP drains (R16). -/
def State.mayGrant (s : State) (p : PortId) (r : Req) : Bool :=
  (match masterLimit p r.master.val with
    | some n => decide (s.outstanding p r.master < n)
    | none => true)
    && s.trackerFree p r && s.creditFree p r && !(p == .hall 0 && s.hall.remapNew.isSome)

/-! ### The choice (R20-R22, R201) -/

/-- The fc that a request has waited: TIME counts hc of 48 fc (R22). -/
def reqWaitFc (r : Req) (now : Nat) : Nat := (now - r.since) * 6 / 5

/-- Effective QoS (R22): one more for each 256 fc of waiting, up to 14. -/
def reqEffQos (now : Nat) (r : Req) : Nat := if r.qos = 15 then 15 else min 14 (r.qos.toNat + reqWaitFc r now / 256)

/-- Whether a request has waited 4,096 fc (R21). -/
def reqAged (r : Req) (now : Nat) : Bool := decide (4096 ≤ reqWaitFc r now)

/-- The first requester at or after the rotating pointer. -/
def byPointer (n : Nat) (x : PortSt) (l : List Req) : Option Req := least (fun r => dist n x.ptr.val r.master.val) l

/-- The elements with the greatest key. -/
def greatest {α : Type} (f : α → Nat) (l : List α) : List α :=
  match (l.map f).max? with
  | some m => l.filter fun x => f x == m
  | none => []

/-- The request of the lowest virtual time, then at or after the tenant pointer, then by the rotating pointer. -/
def byVt (n : Nat) (x : PortSt) (l : List Req) : Option Req :=
  match least (fun r => x.vt[r.tenant.val]) l with
  | none => none
  | some a =>
    let l1 := l.filter fun r => x.vt[r.tenant.val] == x.vt[a.tenant.val]
    match least (fun r => dist 65 x.tptr.val r.tenant.val) l1 with
    | none => none
    | some b => byPointer n x (l1.filter fun r => r.tenant == b.tenant)

/-- The transaction that a port grants among those that may be granted. -/
def State.pick (s : State) (p : PortId) (x : PortSt) (l : List Req) : Option Req :=
  let n := (portMasters p)
  let top := l.filter fun r => r.qos == 15
  let aged := l.filter fun r => reqAged r s.now
  if !top.isEmpty then byPointer n x top
  else if s.qosMode p then
    let best := greatest (reqEffQos s.now) l
    if portByShare p then byVt n x best else byPointer n x best
  else if !aged.isEmpty then byPointer n x aged
  else byPointer n x (greatest (fun r => s.prioOf p r.master.val) l)

/-- The share of a tenant, or of the system tenant (R201). -/
def State.shareOf (s : State) (t : Fin 65) : Nat :=
  if h : t.val < 64 then (s.tenant ⟨t.val, h⟩).share.toNat else fld s.ten.schedCtl 39 32

/-- Virtual time of a grant (R201). -/
def grantCost (bytes share : Nat) : Nat := (bytes * 256 + share - 1) / max 1 share

/-- A request waits at a port: a tenant that had none waiting becomes active (R201). -/
def PortSt.arrive (x : PortSt) (r : Req) : PortSt :=
  let vt := if x.waiting.any (fun y => y.tenant == r.tenant) then x.vt
    else match ((x.waiting.map fun y => x.vt[y.tenant.val])).min? with
      | some m => vmod x.vt r.tenant (max m)
      | none => x.vt
  { x with waiting := x.waiting ++ [r], vt := vt }

/-- A part of a transaction arrives at a port, next in the order of issue. -/
def State.arrivePart (s : State) (x : PortId × Req) : State :=
  (s.setPort ((s.portSt x.1).arrive { x.2 with since := s.now, order := s.hall.issued })).modHall fun h => { h with issued := h.issued + 1 }

/-- A transaction arrives at a target: clamped, and split at the lanes (R18, R19, R34). One that leads to another target is none of its
arrivals. -/
def State.arrive (s : State) (p : PortId) (r : Req) : State :=
  if s.leadsTo p r then (s.laneParts p (s.reqClamp p r) 8 r.addr (min 256 r.bytes)).foldl State.arrivePart s else s

/-- A port after a grant: pointers and virtual time. -/
def PortSt.granted (x : PortSt) (n : Nat) (share : Bool) (cost : Nat) (r : Req) : PortSt :=
  { x with
    waiting := eraseFirst (· == r) x.waiting
    ptr := ⟨(r.master.val + 1) % n % 16, by omega⟩
    tptr := if share then ⟨(r.tenant.val + 1) % 65, by omega⟩ else x.tptr
    vt := if share then vmod x.vt r.tenant (· + cost) else x.vt }

/-- Whether a port's link is down, out or back: its transactions complete at once with error responses (R353). -/
def State.portDown (s : State) (p : PortId) : Bool :=
  match portLink p with
  | some l => (s.link l).down || (s.link (linkBack l)).down
  | none => false

/-- TARGET_GRANT (R17, R20-R25, R30, R34): transactions arrive, and one is granted. R25 does not say when a transaction is accepted: the model
takes its tracker entry and its place under the limit of its master at the grant, so that a request which waits at a target port holds
neither (DESIGN CHOICE, log 46). -/
def State.targetGrant (s : State) (p : PortId) (arrivals : List Req) : State :=
  let s0 := arrivals.foldl (fun t r => t.arrive p r) s
  let x := s0.portSt p
  if s0.portDown p then s0.setPort { x with waiting := [] }
  else match s0.pick p x (x.waiting.filter (s0.mayGrant p)) with
    | none => s0
    | some r =>
      let share := s0.qosMode p && portByShare p
      let s1 := (s0.setPort (x.granted (portMasters p) share (grantCost r.bytes (s0.shareOf r.tenant)) r)).modHall fun h =>
        { h with txns := h.txns ++ [⟨p, r⟩] }
      match portLink p with
      | some l => s1.modLink l fun k => { k with reqUsed := k.reqUsed + reqFlits r }
      | none => s1

def execTargetGrant (p : PortId) (arrivals : List Req) (s : State) : Out :=
  .next (if s.fabricOn then s.targetGrant p arrivals else s)

/-- REQUEST_AGED (R21): TIME comes to the moment at which the k-th waiting request has waited 4,096 fc. -/
def execRequestAged (p : PortId) (k : Nat) (s : State) : Out :=
  .next (if s.fabricOn then
    match (s.portSt p).waiting[k]? with
    | some r => s.advanceTo (r.since + 3414)
    | none => s
  else s)

/-- When a request has next waited a further 256 fc. -/
def reqNextStep (r : Req) (now : Nat) : Nat := r.since + ((reqWaitFc r now / 256 + 1) * 1280 + 5) / 6

/-- QOS_AGE_STEP (R22): TIME comes to the moment at which a waiting request of the port has waited 256 fc more; each request's wait counts
from its own arrival. -/
def execQosAgeStep (p : PortId) (s : State) : Out :=
  .next (if s.fabricOn then
    match ((s.portSt p).waiting.map fun r => reqNextStep r s.now).min? with
    | some t => s.advanceTo t
    | none => s
  else s)

/-! ### Links (R31, R353) -/

/-- Responses outstanding over a link become error responses. -/
def State.failResponses (s : State) (l : LinkId) : State :=
  { s with engines := s.engines.mapFinIdx fun i x hi => { x with gloves := x.gloves.mapFinIdx fun j g hj =>
      { g with inflight := g.inflight.map fun r => { r with resp := r.resp.map fun y =>
        if (y.reqs.any fun q => s.crosses ⟨⟨i, hi⟩, ⟨j, hj⟩⟩ q.addr l) = true then { y with err := fcBus } else y } } } }

/-- LINK_DOWN (R31, R353): the link is down, its transactions complete with errors, the event is raised. -/
def State.linkFall (s : State) (l : LinkId) : State :=
  if (s.link l).down then s
  else
    let s1 := (s.failResponses l).modLink l fun x => { x with down := true, reqUsed := 0, rspUsed := 0 }
    let crossing (p : PortId) : Bool := portLink p == some l
    let s2 := s1.modHall fun h => { h with
      txns := h.txns.filter fun t => !crossing t.port
      ports := h.ports.map fun x => if crossing x.port then { x with waiting := [] } else x }
    s2.report { code := 0x42, scope := 4, unit := (linkWing l).val }

/-- Consecutive failed replays so far: a failure within 80 ns of the last one, the time of a replay, is that of its replay; a later one
finds that a replay has succeeded since (DEDUCED, log 46). -/
def Link.failRun (x : Link) (now : Nat) : Nat := if now ≤ x.failAt + 80 then x.fails else 0

/-- FLIT_CRC_FAIL (R31): the flit is replayed and counted; after eight consecutive failed replays the link is down. -/
def State.crcFail (s : State) (l : LinkId) : State :=
  let x := s.link l
  let n := x.failRun s.now
  let t := s.modLink l fun x => { x with fails := n + 1, failAt := s.now }
  if x.down then s
  else if 8 ≤ n then t.linkFall l
  else (t.modLink l fun x => { x with retries := x.retries + 1 }).wingCnt (linkWing l) 8 1

def execFlitCrcFail (l : LinkId) (s : State) : Out := .next (if s.fabricOn then s.crcFail l else s)
def execLinkDown (l : LinkId) (s : State) : Out := .next (if s.fabricOn then s.linkFall l else s)

/-! ### REMAP (R15, R16) -/

/-- REMAP as it reads: the last value written. -/
def Hall.remapSel (h : Hall) : Bool := h.remapNew.getD h.remap

/-- A write of HALL_REMAP: a change starts a drain; writing the value in force ends one. -/
def State.remapWrite (s : State) (v : Word) : State :=
  let b := bitAt v 0
  s.modHall fun h => if b = h.remapSel then h else { h with remapNew := if b = h.remap then none else some b }

/-- Whether a transaction into the low range that was accepted is still outstanding: of a switch, or of a glove, whose accesses to a HOST
room do not go there. -/
def State.lowBusy (s : State) : Bool :=
  (s.hall.txns.any fun t => t.port == .hall 0 || (decide (t.req.addr < 0x11000000) && t.port != .hall 0 && (portLink t.port).isSome)) ||
    allGloves.any fun gl => (s.glv gl).responses.any fun y => y.reqs.any fun q =>
      decide (q.addr < 0x11000000) && (s.hostOf gl q.addr).isNone

/-- REMAP_DONE (R16): once the drain is complete, the new mapping is in force. The directory has written back and invalidated
every core copy in the range (R250). -/
def State.remapDone (s : State) : State :=
  match s.hall.remapNew with
  | some b =>
    if !s.lowBusy then
      (s.dropLines fun a => decide (a < 0x11000000)).modHall fun h => { h with remap := b, remapNew := none }
    else s
  | none => s

end Sys2Proof.Machine
end

