-- ==== Sys2Proof/Machine/Wings.lean ====
section
/-!
DEFINITION. The memories of a wing (R35-R52): accesses at the accumulate unit, deterministic-order windows, error counters, the
patrol scrubber, and the life of the HBM stack.
-/
namespace Sys2Proof.Machine

/-- The source of an access at the accumulate unit of a wing. -/
def accSrcOf (w : WingIx) (a : AccAccess) : AccSrc :=
  ⟨a.master.val, a.tenant, a.observer, a.ahead, 0, if a.observer then 71 else 80 + 8 * w.val + a.master.val⟩

/-- What the accumulate unit does with an accepted access (R42, R45): a read leaves its bytes in `out`. -/
def State.accAccept (s : State) (w : WingIx) (a : AccAccess) (key : Nat) : State :=
  let s1 := s.eccAt key a.ecc
  match a.kind with
  | .read n => let r := s1.accRead (accSrcOf w a) a.addr n; { r.2.2 with out := r.1 }
  | .write bs => s1.accWrite (accSrcOf w a) a.addr bs
  | .update op ty v =>
    match s1.accUpdate (accSrcOf w a) key op.toNat ty.toNat v.toNat with
    | some t => t
    | none => s1

/-- Whether the unit can accept an access to an address now (R40, R41): a stack with TRAIN_FAIL answers with an error. -/
def State.accReady (s : State) (a : Nat) : Ready :=
  match decodeAddr s.hall.remap a with
  | .pantry w _ => if (s.wing w).pwrState ≠ 0 then .stall else .ok
  | .hbm w _ => if (s.wing w).pwrState ≠ 0 then .stall else (s.wing w).hbmReady
  | _ => .ok

/-- An access whose turn has come at an accumulate unit. -/
def State.accServe (s : State) (a : AccAccess) : State :=
  match decodeAddr s.hall.remap a.addr with
  | .pantry w o => s.accAccept w a (0x20000000 + w.val * 0x1000000 + o)
  | .hbm w o => if s.accReady a.addr = .ok then s.accAccept w a (0x1000000000 + w.val * 2 ^ 34 + o) else { s with out := [] }
  | _ => s

/-! ### Deterministic-order windows (R47, R51) -/

/-- The first addresses of the elements of a window of a wing. -/
def DetWin.elements (d : DetWin) (w : WingIx) : List Nat :=
  let b := fld d.base 47 0
  ((List.range ((fld d.limit 47 0 + 1 - b) / d.bytes)).map fun i => b + d.bytes * i).filter fun a => decide (0x20000000 ≤ a) && keyWing a == w

/-- The exact value of the element of a window at an address (R47). -/
def State.exactAt (s : State) (d : DetWin) (a : Nat) : DetSum := sumOf a (d.fmt.decode (s.elemAt a d.bytes))

/-- DET_INIT: the manager writes 1 to INIT; every shadow entry takes the exact value of its target, and updates wait. -/
def State.detInit (s : State) (w : WingIx) (k : Fin 4) : State :=
  let d : DetWin := (s.wing w).det[k.val]
  let l := d.elements w
  let t := s.modWing w fun x => { x with det := vmod x.det k fun d =>
    { d with ctl := d.ctl ||| 8, initing := true, initDone := false, sums := l.map (s.exactAt d) } }
  let lo := fld d.shadow 47 0
  if inHbm w lo (40 * l.length)
  then { t with mem := { t.mem with cells := cellFill t.mem.cells lo (40 * l.length) fun o =>
    (s.exactAt d (fld d.base 47 0 + d.bytes * (o / 40))).byte (o % 40) } }
  else t

def execDetInit (by_ : Writer) (w : WingIx) (k : Fin 4) (s : State) : Out :=
  .next (if s.fabricOn then s.asManager by_ fun s => s.detInit w k else s)

/-- DET_INIT_DONE. -/
def State.detInitDone (s : State) (w : WingIx) (k : Fin 4) : State :=
  if ((s.wing w).det[k.val]).initing then
    s.modWing w fun x => { x with det := vmod x.det k fun d => { d with initing := false, initDone := true } }
  else s

/-! ### Error counters (R51, R357) -/

/-- ECC_CNT of a wing. -/
def Wing.eccCnt (w : Wing) : Word :=
  at_ w.cePantry.toNat 0 ||| at_ w.ceHbm.toNat 16 ||| at_ w.uePantry.toNat 32 ||| at_ w.ueHbm.toNat 40 ||| at_ w.accPoisoned.toNat 48

/-- HALL_ECC. -/
def Hall.eccWord (h : Hall) : Word := at_ h.ceSram.toNat 0 ||| at_ h.ueSram.toNat 16 ||| at_ h.ueState.toNat 24

/-- A read of ECC_CNT returns the counters and clears them. -/
def State.eccCntRead (s : State) (w : WingIx) : State :=
  { (s.modWing w fun x => { x with cePantry := 0, ceHbm := 0, uePantry := 0, ueHbm := 0, accPoisoned := 0 }) with
    out := toBytes 8 (s.wing w).eccCnt.toNat }

/-- ECC_CNT_READ. The read of a port without the manager role is a census read (R324), which clears nothing. -/
def execEccCntRead (by_ : Writer) (w : WingIx) (s : State) : Out :=
  .next (if !s.fabricOn then s
    else if s.isManager by_ then s.eccCntRead w else { s with out := toBytes 8 (s.wing w).eccCnt.toNat })

/-- A read of HALL_ECC returns the counters and clears them. -/
def State.hallEccRead (s : State) : State :=
  { (s.modHall fun h => { h with ceSram := 0, ueSram := 0, ueState := 0 }) with out := toBytes 8 s.hall.eccWord.toNat }

/-- HALL_ECC_READ, likewise. -/
def execHallEccRead (by_ : Writer) (s : State) : Out :=
  .next (if !s.fabricOn then s
    else if s.isManager by_ then s.hallEccRead else { s with out := toBytes 8 s.hall.eccWord.toNat })

/-- One finding of the scrubber, when it lies in the wing. -/
def State.scrubOne (w : WingIx) (s : State) (x : Nat × Ecc) : State :=
  match decodeAddr s.hall.remap x.1 with
  | .pantry v o => if v = w then s.eccAt (0x20000000 + v.val * 0x1000000 + o) x.2 else s
  | .hbm v o => if v = w then s.eccAt (0x1000000000 + v.val * 2 ^ 34 + o) x.2 else s
  | _ => s

/-- PATROL_SCRUB (R50): one pass, with what it finds; PERIOD = 0 disables the scrubber. -/
def execPatrolScrub (w : WingIx) (found : List (Nat × Ecc)) (s : State) : Out :=
  .next (if s.fabricOn && fld (s.wing w).scrub 15 0 != 0 then found.foldl (State.scrubOne w) s else s)

/-! ### The stack (R40, R41, R302) -/

/-- HBM_TRAINING_END: trained, or TRAIN_FAIL with HBM_TRAIN. -/
def State.trainingEnd (s : State) (w : WingIx) (ok : Bool) : State :=
  if !(s.wing w).training then s
  else if ok then s.modWing w fun x => { x with training := false, trained := true }
  else (s.modWing w fun x => { x with training := false, trainFail := true }).report { code := 0x41, scope := 4, unit := w.val }

/-- HBM_SELF_REFRESH_ENTRY: in wing STANDBY; dirty lines of the combining buffer are written back first (R43). -/
def execHbmSelfRefreshEntry (w : WingIx) (s : State) : Out :=
  .next (if s.alive && (s.wing w).pwrState == 1 && (s.wing w).trained
    then (s.cleanWing w).modWing w fun x => { x with selfRefresh := true } else s)

/-- HBM_SELF_REFRESH_EXIT: once the wing has left STANDBY. -/
def State.refreshExit (s : State) (w : WingIx) : State :=
  if (s.wing w).pwrState ≠ 1 then s.modWing w fun x => { x with selfRefresh := false } else s

/-- Bytes of a stack (R12). -/
def hbmBase (w : WingIx) : Nat := 0x1000000000 + w.val * 2 ^ 34

/-- HBM_ZERO_FILL_DONE (R302): the whole stack holds zeros. -/
def State.zeroFillDone (s : State) (w : WingIx) : State :=
  if (s.wing w).trained && !(s.wing w).filled
  then (s.zeroRange (hbmBase w) (hbmBase w + 2 ^ 34)).modWing w fun x => { x with filled := true } else s

end Sys2Proof.Machine
end

