-- ==== Sys2Proof/Machine/ObsEvents.lean ====
section
/-!
DEFINITION. The observation block at work (R265-R271): clearing counters, moving trace records to their rings, the budget meter
and the sampler rings.
-/
namespace Sys2Proof.Machine

/-! ### CLEAR (R270, R271) -/

/-- CODE and INST of a selection of a sampler ring. -/
def selCode (w : Word) : Nat := fld w 7 0
def selInst (w : Word) : Nat := fld w 11 8
def selOn (w : Word) : Bool := bitAt w 15

/-- The scope of a counter code: 0 engine, 1 wing, 2 Hall. -/
def codeScope (c : Nat) : Nat := c / 64

/-- The unit whose counters hold a code: engines 0-15, wings 16-19, the Hall 20; none for a code or an instance that names no counter. -/
def unitOfCode (code inst : Nat) : Option Nat :=
  match codeScope code with
  | 0 => if code < 0x15 then some (inst % 16) else none
  | 1 => if code < 0x4C ∧ inst < 4 then some (16 + inst) else none
  | 2 => if code < 0x87 then some 20 else none
  | _ => none

/-- The counters of some units have been cleared (R271). -/
def State.markClr (s : State) (units : BitVec 21) : State :=
  s.modObs fun o => { o with samp := o.samp.map fun k => { k with clr := k.clr ||| units } }

/-- Every counter of the part is zero (R270). -/
def State.clearCounters (s : State) : State :=
  let s1 : State := { s with
    engines := s.engines.map fun x => { x with counters := Vector.replicate 21 0 }
    wings := s.wings.map fun w => { w with counters := Vector.replicate 12 0 } }
  (s1.modObs fun o => { o with counters := Vector.replicate 7 0 }).markClr (BitVec.allOnes 21)

/-- OBS_CLEAR (R270): the manager writes 1 to CLEAR. -/
def execObsClear (by_ : Writer) (s : State) : Out :=
  .next (if s.fabricOn then s.asManager by_ fun s => (s.modObs fun o => { o with ctl := o.ctl ||| 0x200 }).clearCounters else s)

/-- The counters of an engine, of a wing return to zero with a power state or an ENGINE reset (R270, R316). -/
def State.clearEngCounters (s : State) (e : EngIx) : State :=
  (s.modEng e fun x => { x with counters := Vector.replicate 21 0 }).markClr (1 <<< e.val)
def State.clearWingCounters (s : State) (w : WingIx) : State :=
  (s.modWing w fun x => { x with counters := Vector.replicate 12 0 }).markClr (1 <<< (16 + w.val))

/-! ### The trace DMA (R265, R266) -/

/-- Bytes that a ring can still take. -/
def Ring.space (r : Ring) : Nat := r.size - (r.write - r.read).toNat

/-- Bytes that a channel may still move, what waits for the meter included. -/
def Tch.space (t : Tch) : Nat := t.ring.space - 16 * t.chunk.length

/-- Records padded to a multiple of two with PAD records. -/
def padEven (l : List (BitVec 128)) : List (BitVec 128) := if l.length % 2 = 1 then l ++ [0] else l

/-- A flush moves the records present (R266): all of them, padded, when the ring has room, else the whole chunks that fit. -/
def State.flushChan (s : State) (c : Fin 17) : State :=
  let l := s.attic c
  let room := s.obs.tch[c.val].space
  let n := if 16 * (padEven l).length ≤ room then l.length else room / 256 * 16
  let out := if n = l.length then padEven l else l.take n
  (s.setAttic c (l.drop n)).modTch c fun t => { t with chunk := t.chunk ++ out }

/-- TRACE_FLUSH: the manager writes 1 to FLUSH. -/
def execTraceFlush (by_ : Writer) (c : Fin 17) (s : State) : Out :=
  .next (if s.fabricOn then
    s.asManager by_ fun s => (s.modTch c fun t => { t with ctl := t.ctl ||| 0x20 }).flushChan c else s)

/-- Whether the DMA of a channel may move a chunk: DMA_EN, 16 records, and ring space for 256 bytes. -/
def State.chunkDue (s : State) (c : Fin 17) : Bool :=
  let t := s.obs.tch[c.val]
  bitAt t.ctl 3 && decide (16 ≤ (s.attic c).length) && t.chunk.isEmpty && decide (256 ≤ t.space)

/-- TRACE_DMA_CHUNK: 16 records leave the attic for the meter. -/
def execTraceDmaChunk (c : Fin 17) (s : State) : Out :=
  .next (if s.fabricOn && s.chunkDue c then
    let l := s.attic c
    (s.setAttic c (l.drop 16)).modTch c fun t => { t with chunk := l.take 16 }
  else s)

/-! ### The budget meter (R267, R268) -/

/-- The OBS master. -/
def obsSrc : AccSrc := ⟨7, none, true, false, 0, 70⟩

/-- Bytes written at a ring's next address, in two parts where the ring ends; none while a target cannot take them. A target that
answers with an error loses them. -/
def State.ringWrite (s : State) (r : Ring) (bs : List Byte) : Option State :=
  let a := r.nextAddr
  let k := fld r.cfg 47 0 + r.size - a
  let parts := [(a, bs.take k), (fld r.cfg 47 0, bs.drop k)].filter fun x => !x.2.isEmpty
  if parts.any fun x => s.ready none x.1 == .stall || s.heldLine (s.keysOf x.1 x.2.length) then none
  else some (parts.foldl (fun t x => if t.ready none x.1 = .ok then t.accWrite obsSrc x.1 x.2 else t) s)

/-- A write that waits for tokens. -/
inductive ObsWait
  | samp (k : Fin 4)
  | dig (w : WingIx)
  | chunk (c : Fin 17)
  deriving DecidableEq, Repr

/-- The ring and the bytes of a waiting write. -/
def State.obsBytes (s : State) : ObsWait → Ring × List Byte
  | .samp k => (s.obs.samp[k.val].ring, match s.obs.samp[k.val].pend with
    | some r => toBytes 128 r.toNat
    | none => [])
  | .dig w => ((s.wing w).digRing, match (s.wing w).digPend with
    | r :: _ => toBytes 64 r.toNat
    | [] => [])
  | .chunk c => (s.obs.tch[c.val].ring, ((s.obs.tch[c.val].chunk.take 16).map fun r => toBytes 16 r.toNat).flatten)

/-- Sampler records first, then digest records, then trace chunks in channel rotation (R268): the first that waits and fits its
ring. -/
def State.nextObs (s : State) : Option ObsWait :=
  let l := (allFin 4).map ObsWait.samp ++ (allFin 4).map ObsWait.dig
    ++ ((allFin 17).map fun i => ObsWait.chunk ⟨(s.obs.rot + i.val) % 17, by omega⟩)
  l.find? fun x => let y := s.obsBytes x; !y.2.isEmpty && y.1.fits y.2.length

/-- What a write that has been issued leaves. -/
def State.obsSent (s : State) (n : Nat) : ObsWait → State
  | .samp k => s.modObs fun o => { o with samp := vmod o.samp k fun x => { x with ring := x.ring.push n, pend := none } }
  | .dig w => s.modWing w fun x => { x with digRing := x.digRing.push n, digPend := x.digPend.drop 1 }
  | .chunk c => (s.modTch c fun t => { t with ring := t.ring.push n, chunk := t.chunk.drop 16 }).modObs fun o =>
      { o with rot := (c.val + 1) % 17 }

/-- OBS_WRITE_ISSUE (R267): the next waiting write, once the bucket holds its full size. -/
def State.obsIssue (s : State) : State :=
  match s.nextObs with
  | none => s
  | some x =>
    let y := s.obsBytes x
    let n := y.2.length
    if s.obs.tokens < n then s
    else match s.ringWrite y.1 y.2 with
      | none => s
      | some t => ((t.modObs fun o => { o with tokens := o.tokens - n }).hallCnt hallObsBytes n).obsSent n x

def execObsWriteIssue (s : State) : Out := .next (if s.fabricOn then s.obsIssue.sealSweep else s)

/-! ### Sampler rings (R271) -/

/-- CLR of a selection: its counter has been cleared since the ring's previous record. -/
def Samp.cleared (x : Samp) (w : Word) : Bool :=
  match unitOfCode (selCode w) (selInst w) with
  | some u => bitAt x.clr u
  | none => false

/-- Selection j of a record. -/
def State.selWord (s : State) (x : Samp) (j : Fin 14) : Word :=
  let w := x.sel[j.val]
  if selOn w then
    at_ (s.counterVal (selCode w) (selInst w)) 0 ||| at_ (selCode w) 48 ||| at_ (selInst w) 56
      ||| at_ (b2n (x.cleared w)) 62 ||| at_ 1 63
  else 0

/-- The 128-byte record of a ring. -/
def State.sampRecord (s : State) (k : Fin 4) (x : Samp) : BitVec 1024 :=
  BitVec.ofNat 1024 (ofBytes (toBytes 8 s.hearth.time.toNat ++ toBytes 4 x.seq.toNat ++ toBytes 4 k.val
    ++ ((allFin 14).map fun j => toBytes 8 (s.selWord x j).toNat).flatten))

/-- SAMPLER_DUE: the timebase crosses a multiple of PERIOD; a record that was still pending is dropped (R268). It is the sampler event of
PLIC source 6 (R246; DEDUCED, log 61). -/
def State.samplerDue (s : State) (k : Fin 4) : State :=
  let x := s.obs.samp[k.val]
  let per := x.period.toNat * 1000
  if per = 0 then s
  else
    let t := s.advanceTo ((x.lastDue / per + 1) * per)
    let y := { x with seq := x.seq + 1 }
    let u := if x.pend.isSome then t.hallCnt hallObsDrop 1 else t
    let z := { y with pend := some (t.sampRecord k y), clr := 0, lastDue := t.now }
    (u.modObs fun o => { o with samp := vset o.samp k z }).modCores fun c => { c with sampIrq := true }

def execSamplerDue (k : Fin 4) (s : State) : Out := .next (if s.fabricOn then s.samplerDue k else s)

end Sys2Proof.Machine
end

