-- ==== Sys2Proof/Machine/Hang.lean ====
section
/-!
DEFINITION. The progress watchdog and the freeze of a glove (R278-R283), its release (R286) and the slots of the cellar (R290).
-/
namespace Sys2Proof.Machine

/-! ### Expiry (R278-R281) -/

/-- LIMIT in force, in ns (R279): 50 to 1,000,000 µs. -/
def Glove.wdogNs (g : Glove) : Nat := max 50 (min 1000000 g.wdogLimit.toNat) * 1000

/-- Whether IDLE of a glove counts (R278): it runs or waits, and is neither frozen nor swapping. A glove that freezes does so until its
STATE reads frozen (R281). -/
def State.idleRuns (s : State) (gl : GloveRef) : Bool :=
  let g := s.glv gl
  (g.state == 1 || g.state == 2) && !g.hang.frozen && !g.swapping && g.kind != .none

/-- Whether IDLE of a glove can reach LIMIT: GRACE ends a seal wait, of at most 5 µs, before; a glove that has expired does not expire
again, and a fault of the glove comes first (R280). -/
def State.idleCounts (s : State) (gl : GloveRef) : Bool :=
  s.idleRuns gl && !(s.glv gl).hang.freezing && (s.glv gl).dying.isNone && (s.glv gl).wait != .seal

/-- A frozen tick lease counts as having served the entries of its pin; each skipped one is lost (R282). -/
def State.skipEntries (s : State) (gl : GloveRef) : State :=
  let t := (s.eng gl.e).tick
  if (s.glv gl).kind ≠ .tick then s
  else
    let n := ((s.hearth.tpin[t.pin.val]).unserved gl.e).length
    (s.modPin t.pin fun p => { p with
      lost := p.lost + BitVec.ofNat 16 n
      fifo := p.fifo.map fun x => { x with served := if x.served.contains gl.e then x.served else gl.e :: x.served } }).trimFifo t.pin

/-- A glove begins to freeze (R281): it stops as at a swap-out and is withdrawn from its bolt's FIFO. -/
def State.freezeGlove (s : State) (gl : GloveRef) : State :=
  let g := s.glv gl
  let b := match g.wait with
    | .bolt b n _ _ d us => some (b, n, us, d)
    | _ => none
  s.stopOr gl fun t => (t.skipEntries gl).modGlv gl fun x =>
    { x with hang := { x.hang with freezing := true, bolt := b, lastProgress := g.progressAt } }

/-- WATCHDOG_EXPIRY: IDLE reaches LIMIT. An engine that sleeps is woken first, and the glove freezes after its restore (R297). -/
def State.wdogExpiry (s : State) (gl : GloveRef) : State :=
  if !s.idleCounts gl then s
  else
    let t := s.advanceTo ((s.glv gl).progressAt.toNat + (s.glv gl).wdogNs)
    let u := t.engineWake gl.e
    if (t.eng gl.e).saved[gl.g.val] then u.modGlv gl fun g => { g with hang := { g.hang with freezing := true } } else u.freezeGlove gl

def execWatchdogExpiry (gl : GloveRef) (s : State) : Out := .next (if s.alive then s.wdogExpiry gl else s)

/-! ### Frozen (R281-R283) -/

/-- The HANG event of a glove. -/
def State.hangEvent (s : State) (gl : GloveRef) : State :=
  let g := s.glv gl
  s.report { code := 0x15, scope := 1, tenant := some g.tenant, unit := gl.e.val, glove := gl.g.val, info := g.pc.toNat, strm := some g.strm }

/-- Where a frozen glove stands in the dump queue: after those that froze before it; among those of the same hc by engine and
glove (R284). -/
def State.queueDump (s : State) (gl : GloveRef) : List GloveRef → List GloveRef
  | [] => [gl]
  | x :: l =>
    if (s.glv x).hang.frozenAt = s.hearth.time ∧ 4 * gl.e.val + gl.g.val < 4 * x.e.val + x.g.val then gl :: x :: l
    else x :: s.queueDump gl l

/-- GLOVE_FROZEN: once every response of an issued row step has returned. -/
def State.gloveFrozen (s : State) (gl : GloveRef) : State :=
  let g := s.glv gl
  if !(g.hang.freezing && g.inflight.all (·.resp.isEmpty) && !(s.eng gl.e).saved[gl.g.val]) then s
  else
    let s1 := s.modGlv gl fun g => { g with
      state := 4
      hang := { g.hang with frozen := true, freezing := false, dump := 1, noSlot := false, freezes := g.hang.freezes + 1,
                            frozenAt := s.hearth.time } }
    (s1.modObs fun o => { o with dumpQueue := s.queueDump gl o.dumpQueue }).hangEvent gl

def execGloveFrozen (gl : GloveRef) (s : State) : Out := .next (if s.alive then s.gloveFrozen gl else s)

/-! ### Release (R286) -/

/-- A write of ACTION is ignored unless the glove is frozen, with no dump queued or running. -/
def State.hangOpen (s : State) (gl : GloveRef) : Bool :=
  let h := (s.glv gl).hang
  h.frozen && h.dump != 1 && h.dump != 2

/-- ACTION as written. -/
def State.setAction (s : State) (gl : GloveRef) (a : BitVec 2) : State :=
  s.modGlv gl fun g => { g with hang := { g.hang with action := a } }

/-- A withdrawn `bwait` queues again at the tail of its bolt's FIFO, with its full timeout. A bolt that the tenant no longer owns
raises BOLT_ACCESS (R86). -/
def State.requeue (s : State) (gl : GloveRef) (x : BoltIx × BitVec 32 × Nat × BitVec 6) : State :=
  let dl := if x.2.2.1 = 0 then none else some (s.now + 1000 * x.2.2.1)
  if !s.ownsBolt x.1 (s.glv gl).tenant then s.issueFault gl fcBolt
  else
    (s.modBolt x.1 fun b => { b with fifo := b.fifo ++ [⟨.glove gl, x.2.1, s.now, dl, 0⟩] }).modGlv gl fun g =>
      { g with wait := .bolt x.1 x.2.1 dl s.now x.2.2.2 x.2.2.1, state := 2 }

/-- RESUME: as after a restore, with every latch invalid; a resumed tick run is VOID. -/
def State.hangResume (s : State) (gl : GloveRef) : State :=
  let b := (s.glv gl).hang.bolt
  let s1 := s.modGlv gl fun g =>
    { g.restart with state := 1, wait := .none, progressAt := s.hearth.time, hang := { g.hang with frozen := false, bolt := none } }
  let s2 := if (s1.glv gl).kind = .tick then s1.modTick gl.e fun t => { t with void := true } else s1
  let s3 := s2.engineWake gl.e
  match b with
  | some x => s3.requeue gl x
  | none => s3

/-- HANG_RESUME: the manager writes ACTION = 1. -/
def execHangResume (by_ : Writer) (gl : GloveRef) (s : State) : Out :=
  .next (if s.fabricOn then
    s.asManager by_ fun s => if s.hangOpen gl then (s.setAction gl 1).hangResume gl else s
  else s)

/-- HANG_ABORT: the manager writes ACTION = 2. -/
def execHangAbort (by_ : Writer) (gl : GloveRef) (s : State) : Out :=
  .next (if s.fabricOn then
    s.asManager by_ fun s => if s.hangOpen gl then (s.setAction gl 2).hangAbort gl else s
  else s)

/-- CELLAR_SLOT_FREE: the manager writes 1 to bits of USED. -/
def execCellarSlotFree (by_ : Writer) (w : WingIx) (mask : Word) (s : State) : Out :=
  .next (if s.fabricOn then
    s.asManager by_ fun s => s.modWing w fun x => { x with cellarUsed := x.cellarUsed &&& ~~~mask }
  else s)

end Sys2Proof.Machine
end

