-- ==== Sys2Proof/Machine/Power.lean ====
section
/-!
DEFINITION. Power states of engines, wings and the device (R295-R303), the governor (R306, R307), thermal sensing (R308-R310), the
hearth watchdog (R312), and the commands of the resets (R301, R311-R314, R366, R368).
-/
namespace Sys2Proof.Machine

/-! ### Fields of ENG_e_PWR and WING_w_PWR (R317) -/

def Engine.deepest (x : Engine) : Nat := fld x.pwr 1 0
def Engine.saveOnSleep (x : Engine) : Bool := bitAt x.pwr 2
def Engine.drainOnSleep (x : Engine) : Bool := bitAt x.pwr 3
def Engine.napUs (x : Engine) : Nat := fld x.pwr 31 16
def Engine.sleepUs (x : Engine) : Nat := fld x.pwr 47 32
def Wing.standbyEn (w : Wing) : Bool := bitAt w.pwr 0

/-! ### DOZE and NAP (R295) -/

/-- Whether a glove neither issues, nor runs a row step, nor waits for memory. -/
def Glove.quiet (g : Glove) : Bool :=
  !g.swapping && !g.hang.freezing && (g.hang.frozen || (g.inflight.isEmpty && (g.kind == .none || match g.wait with
    | .bolt _ _ _ _ _ _ => true
    | _ => false)))

/-- ENGINE_DOZE_ENTRY, after DOZE_EC quiet cycles; HOLD and TICK of a wake entry keep the engine out (R305). -/
def State.doze (s : State) (e : EngIx) : State :=
  let x := s.eng e
  if x.pwrState == 0 && !x.waking && decide (1 ≤ x.deepest) && x.gloves.toList.all Glove.quiet && decide (x.holdUntil ≤ s.now) && !x.tickHold
  then s.modEng e fun y => { y with pwrState := 1 } else s

def execEngineDozeEntry (e : EngIx) (s : State) : Out := .next (if s.alive then s.doze e else s)

/-- What an engine loses at NAP (R295, R315): cupboard slots and B buffers. -/
def Engine.nap (x : Engine) : Engine :=
  { x with pwrState := 2, cupboard := Vector.replicate 64 Slot.empty, gloves := x.gloves.map fun g => { g with bbuf := none } }

/-- ENGINE_NAP_ENTRY, after NAP_US in DOZE, without an armed lease. -/
def State.nap (s : State) (e : EngIx) : State :=
  let x := s.eng e
  if x.pwrState == 1 && !x.waking && decide (2 ≤ x.deepest) && x.napUs != 0 && !x.tick.armed && x.gloves.toList.all Glove.quiet
  then s.modEng e Engine.nap else s

def execEngineNapEntry (e : EngIx) (s : State) : Out := .next (if s.alive then s.nap e else s)

/-! ### SLEEP (R295, R297, R298) -/

/-- Whether contexts are saved at SLEEP: SAVE_ON_SLEEP = 1 and SLEEP_BASE ≠ 0. -/
def State.sleepSaves (s : State) (e : EngIx) : Bool := (s.eng e).saveOnSleep && (s.wing (wingOf e)).sleepBase != 0

/-- Where a glove's context is saved (R297). -/
def State.sleepAddr (s : State) (gl : GloveRef) : Nat :=
  fld (s.wing (wingOf gl.e)).sleepBase 47 0 + (4 * (gl.e.val % 4) + gl.g.val) * saveBytes

/-- Whether a glove lets its engine sleep: nothing runs on it, or it waits at a bolt and its context can be saved. -/
def State.sleepGlove (s : State) (gl : GloveRef) : Bool :=
  let g := s.glv gl
  g.quiet && !g.hang.frozen && g.hang.dump != 1 && g.hang.dump != 2 && (g.kind == .none || s.sleepSaves gl.e)

/-- The gloves of an engine. -/
def glovesOf (e : EngIx) : List GloveRef := (allFin 4).map fun g => ⟨e, g⟩

/-- Whether a glove holds something to save: a resident context or an instance. -/
def State.gloveHolds (s : State) (gl : GloveRef) : Bool := (s.glv gl).kind != .none || (s.holder gl).isSome

/-- The resident context of a glove is discarded (R295, R314). -/
def State.dropContext (s : State) (gl : GloveRef) : State :=
  let t := match s.holder gl with
    | some l => s.modLease l fun x => { x with resident := none }
    | none => s
  t.modGlv gl fun g => { g.clearRegs.empty with pc := 0 }

/-- Save one glove at SLEEP entry; none while its wing cannot take the save. -/
def State.sleepSave (s : State) (gl : GloveRef) : Option State :=
  if !s.gloveHolds gl then some s
  else if !s.sleepSaves gl.e then some (s.dropContext gl)
  else match s.ctxSave gl (s.sleepAddr gl) (s.gloveQos gl) with
    | .stall _ => none
    | .fault c => some ((s.saveErr gl c).dropContext gl)
    | .ok t =>
      let rows := ctxRows (s.glv gl).validTiles.length
      some ((t.modEng gl.e fun x => { x with saved := vset x.saved gl.g true }).modGlv gl fun g =>
        { g with lastSave := BitVec.ofNat 16 rows })

/-- Save the gloves of a list in order. -/
def sleepSaveAll : List GloveRef → State → Option State
  | [], s => some s
  | gl :: l, s => match s.sleepSave gl with
    | some t => sleepSaveAll l t
    | none => none

/-- What a glove loses at SLEEP besides its context (R71, R315): latches, buffers and, with SAVE_ON_SLEEP = 0, PC and TROW. -/
def Glove.powerDown (saves : Bool) (g : Glove) : Glove :=
  { g with
    latchA := none, latchB := none, bbuf := none, ibuf := [], staging := 0
    pc := if saves then g.pc else 0, trow := if saves then g.trow else 0 }

/-- What an engine loses at SLEEP besides its contexts (R315): latches, instruction buffers, the attic, its counters. -/
def State.powerDown (s : State) (e : EngIx) : State :=
  (s.modEng e fun x => { x with
    pwrState := 3, attic := []
    gloves := x.gloves.map (Glove.powerDown x.saveOnSleep) }).clearEngCounters e

/-- Drop n records of a channel (R265). -/
def State.dropRecords (s : State) (c : Fin 17) (n : Nat) : State :=
  (s.modTch c fun t => { t with lost := t.lost + BitVec.ofNat 32 n, loss := t.loss || decide (0 < n) }).hallCnt hallObsDrop n

/-- With DRAIN_ON_SLEEP and DMA_EN, the attic drains first (R298): records that do not fit the ring are dropped and counted. -/
def State.sleepDrain (s : State) (e : EngIx) : State :=
  let c := engChan e
  let t := s.flushChan c
  (t.setAttic c []).dropRecords c (t.attic c).length

/-- ENGINE_SLEEP_ENTRY, after SLEEP_US in NAP. A drain delays it until the meter has written the records. -/
def State.sleep (s : State) (e : EngIx) : State :=
  let x := s.eng e
  let ch := s.obs.tch[e.val]
  if !(x.pwrState == 2 && !x.waking && x.deepest == 3 && x.sleepUs != 0 && !x.tick.armed && (glovesOf e).all s.sleepGlove) then s
  else if x.drainOnSleep && bitAt ch.ctl 3 && !x.attic.isEmpty then s.sleepDrain e
  else if x.drainOnSleep && bitAt ch.ctl 3 && !ch.chunk.isEmpty then s
  else match sleepSaveAll (glovesOf e) s with
    | some t => t.powerDown e
    | none => s

def execEngineSleepEntry (e : EngIx) (s : State) : Out := .next (if s.alive then (s.sleep e).sealSweep else s)

/-! ### Wake (R296, R297, R303) -/

/-- A glove after its restore: the result of a `bwait` that ended meanwhile is written (R85). -/
def Glove.applyWoken (g : Glove) : Glove :=
  match g.woken with
  | some (d, ok) => { (g.setS (sNum d) (if ok then 1 else 0)) with pc := g.pc + 8, woken := none }
  | none => g

/-- Restore one saved glove: none while its wing cannot answer. A glove whose watchdog expired meanwhile freezes. -/
def State.wakeRestore (s : State) (gl : GloveRef) : Option State :=
  let clear (s : State) : State := s.modEng gl.e fun x => { x with saved := vset x.saved gl.g false }
  if !(s.eng gl.e).saved[gl.g.val] then some s
  else if !s.gloveHolds gl then some (clear s)
  else match s.ctxLoad gl (s.sleepAddr gl) (s.gloveQos gl) with
    | .stall _ => none
    | .fault c => some (clear ((s.saveErr gl c).dropContext gl))
    | .ok (rows, t) =>
      let u := (clear t).modGlv gl fun g => { g.applyWoken with lastRestore := BitVec.ofNat 16 rows }
      some (if (u.glv gl).hang.freezing then u.freezeGlove gl else u)

/-- Restore the gloves of a list in order. -/
def wakeAll : List GloveRef → State → Option State
  | [], s => some s
  | gl :: l, s => match s.wakeRestore gl with
    | some t => wakeAll l t
    | none => none

/-- ENGINE_WAKE_DONE: RUN, then the saved gloves in ascending order. The wing is awake by then (R303). -/
def State.wakeDone (s : State) (e : EngIx) : State :=
  if !((s.eng e).waking && (s.wing (wingOf e)).pwrState == 0) then s
  else match wakeAll (glovesOf e) s with
    | some t => t.modEng e fun x => { x with pwrState := 0, waking := false }
    | none => s

def execEngineWakeDone (e : EngIx) (s : State) : Out := .next (if s.alive then s.wakeDone e else s)

/-! ### Wing STANDBY (R299, R315) -/

/-- The engines of a wing. -/
def wingEngines (w : WingIx) : List EngIx := (allFin 16).filter fun e => wingOf e == w

/-- Whether an access waits for a wing. -/
def State.heldAt (s : State) (w : WingIx) : Bool := s.hall.held.any fun h => (decodeAddr s.hall.remap h.range.1).wing == some w

/-- WING_STANDBY_ENTRY: all four engines sleep; the combining buffer is written back and emptied, the counters are cleared. -/
def State.wingStandby (s : State) (w : WingIx) : State :=
  let x := s.wing w
  if x.standbyEn && x.pwrState == 0 && !x.training && !s.heldAt w
      && (wingEngines w).all (fun e => (s.eng e).pwrState == 3 && !(s.eng e).waking)
  then ((s.cleanWing w).modWing w fun x => { x with pwrState := 1, comb := [] }).clearWingCounters w else s

def execWingStandbyEntry (w : WingIx) (s : State) : Out := .next (if s.alive then s.wingStandby w else s)

/-- WING_WAKE_DONE: the wing is ACTIVE, its stack out of self-refresh. -/
def State.wingWakeDone (s : State) (w : WingIx) : State :=
  if (s.wing w).pwrState = 2 then s.modWing w fun x => { x with pwrState := 0, selfRefresh := false } else s

/-! ### Device states (R300, R301) -/

/-- A write of TARGET that reaches the hearth: the device is not in OFF_AO. -/
def State.devWrite (s : State) (by_ : Writer) (f : State → State) : State :=
  if s.alive then s.asManager by_ f else s

/-- TARGET = 0: the device returns to ACTIVE. -/
def State.devActive (s : State) : State := (s.modHearth fun h => { h with devTarget := 0, refused := false }).deviceWake

/-- DEV_PWR_ACTIVE. -/
def execDevPwrActive (by_ : Writer) (s : State) : Out := .next (s.devWrite by_ State.devActive)

/-- A request is refused while any lease is armed, and ignored while the device goes to OFF_AO. -/
def State.devRequest (s : State) (target : BitVec 2) (f : State → State) : State :=
  let s1 := s.modHearth fun h => { h with devTarget := target, refused := decide (0 < s.armedCount) }
  if 0 < s.armedCount ∨ (s.hearth.devState = 1 ∧ s.hearth.toward = 2) then s1
  else f (s1.modHearth fun h => { h with devState := 1, toward := target })

/-- TARGET = 1. -/
def State.devStandby (s : State) : State := s.devRequest 1 id

/-- DEV_PWR_STANDBY. -/
def execDevPwrStandby (by_ : Writer) (s : State) : Out := .next (s.devWrite by_ State.devStandby)

/-- The harts are put in reset. -/
def Cores.stopped (c : Cores) : Cores :=
  { c with run := 0, harts := c.harts.map fun _ => Hart.reset true, dir := [], dirPend := [], dirHeld := [], owing := [], victim := []
           cached := Vector.replicate 4 [], l1i := Vector.replicate 4 [], l1d := Vector.replicate 4 [], dirty := Vector.replicate 4 [] }

/-- TARGET = 2: every tenant is evicted, the cores go into reset. The manual gives no cause code for this eviction: a free value
(log 21). -/
def State.devOff (s : State) : State :=
  s.devRequest 2 fun s => let r := s.draw; ((r.2.evictAll (r.1.toNat % 2 ^ 32)).loseCaches).modCores Cores.stopped

/-- DEV_PWR_OFF_AO. -/
def execDevPwrOffAo (by_ : Writer) (s : State) : Out := .next (s.devWrite by_ State.devOff)

/-- The conditions of device STANDBY, which hold at once. -/
def State.standbyReady (s : State) : Bool :=
  s.wings.toList.all (fun w => w.pwrState == 1) && s.cores.harts.toList.all (fun h => h.wfi || h.inReset)
    && s.ten.streams.toList.all (fun st => !(st.isOpen && st.cmds.any Cmd.started)) && s.ten.mbs.toList.all (fun m => !m.busy)

/-- The caches of every core are written back and emptied (R300). -/
def State.flushCaches (s : State) : State :=
  let back := s.cores.dirty.toList.flatMap fun d => d.map (·.1)
  (s.dropLines fun _ => true).detRewrite (back.flatMap fun l => (List.range 64).map (l + ·))

/-- DEVICE_STANDBY_REACHED. -/
def execDeviceStandbyReached (s : State) : Out :=
  .next (if s.alive && s.hearth.devState == 1 && s.hearth.toward == 1 && s.standbyReady
    then s.flushCaches.modHearth fun h => { h with devState := 2 } else s)

/-- OFF_AO_REACHED: the evictions are over; every domain but the hearth is gated. -/
def execOffAoReached (s : State) : Out :=
  .next (if s.alive && s.hearth.devState == 1 && s.hearth.toward == 2 && s.ten.tenants.all (fun t => !t.isOpen)
    then s.powerOff.modHearth fun h => { h with devState := 3, toward := 0 } else s)

/-- DEVICE_ACTIVE_REACHED: after the wake latency; from OFF_AO, once no stack trains any more. -/
def execDeviceActiveReached (s : State) : Out :=
  .next (if s.alive && s.hearth.devState == 1 && s.hearth.toward == 0 && s.wings.toList.all (fun w => !w.training)
    then s.modHearth fun h => { h with devState := 0 } else s)

/-! ### The governor (R306) -/

/-- PLIMIT in force, W. -/
def Hearth.plimit (h : Hearth) : Nat := max 10 (min 75 (fld h.govCtl 6 0))

/-- MAXSTEP. -/
def Hearth.maxStep (h : Hearth) : BitVec 2 := BitVec.ofNat 2 (fld h.govCtl 9 8)

/-- The budget B in units of 0.01 W. -/
def State.budget (s : State) : Int := (100 * s.hearth.plimit : Nat) - (350 * s.armedCount : Nat)

/-- The governor's step after a window of power p, with the count of low windows: a higher code is a lower frequency. -/
def Hearth.govern (h : Hearth) (p b : Int) : Hearth :=
  if b < p then { h with step := if h.step = 3 then 3 else h.step + 1, lowWindows := 0, overPower := h.step == 3 }
  else if p ≤ b - 200 then
    if h.lowWindows + 1 < 10 then { h with lowWindows := h.lowWindows + 1, overPower := false }
    else { h with lowWindows := 0, overPower := false, step := if h.maxStep.ult h.step then h.step - 1 else h.step }
  else { h with lowWindows := 0, overPower := false }

/-- GOVERNOR_WINDOW: OVER and its black-box entry when the power is above the budget at 0.4 GHz. MAXSTEP bounds the step. -/
def State.governor (s : State) (power : BitVec 16) : State :=
  let h := s.hearth.govern power.toNat s.budget
  let h1 := { h with power := power, step := if h.step.ult h.maxStep then h.maxStep else h.step }
  let t := ({ s with hearth := h1 }).setSteps
  if h1.overPower then t.report { code := 0x4C, scope := 5 } else t

def execGovernorWindow (power : BitVec 16) (s : State) : Out := .next (if s.alive then s.governor power else s)

/-! ### Thermal sensing (R308-R310) -/

/-- TWARN and TEMERG in force. -/
def Hearth.twarn (h : Hearth) : Int := max 60 (min 110 (fld h.thermCtl 7 0))
def Hearth.temerg (h : Hearth) : Int := max (h.twarn + 1) (min 112 (fld h.thermCtl 15 8))

/-- The hottest of some signed temperatures. -/
def hottest : List (BitVec 8) → BitVec 8
  | [] => 0x80
  | x :: l => let m := hottest l; if m.slt x then x else m

/-- The hottest sensor of each die. -/
def dieMax (t : TempSample) : Vector (BitVec 8) 5 := t.dies.map fun d => hottest d.toList

/-- The temperatures of a sample (R38, R308). -/
def State.takeTemps (s : State) (t : TempSample) : State :=
  let d := dieMax t
  let s1 := s.modHearth fun h => { h with dieTemps := d, tj := hottest d.toList }
  { s1 with wings := s1.wings.mapFinIdx fun i w hi => { w with temp := t.stackTemps[i], hot := decide (85 < (t.stackTemps[i]).toInt) } }

/-- WARN: a level, signalled when it begins. -/
def State.warnCheck (s : State) : State :=
  let on := decide (s.hearth.twarn ≤ s.hearth.tj.toInt)
  let t := s.modHearth fun h => { h with warn := on }
  if on && !s.hearth.warn then t.report { code := 0x49, scope := 5 } else t

/-- EMERG sets at TEMERG; `coolSince` is when TJ last fell below TEMERG - 5. -/
def State.emergCheck (s : State) : State :=
  let h := s.hearth
  let tj := h.tj.toInt
  let cool := if tj < h.temerg - 5 then some (h.coolSince.getD s.now) else none
  let t := s.modHearth fun h => { h with coolSince := cool, emerg := h.emerg || decide (h.temerg ≤ tj) }
  if !h.emerg && t.hearth.emerg then t.setSteps.report { code := 0x4A, scope := 5 } else t

/-- The trip at 115 degrees: every domain but the hearth is gated. -/
def State.tripCheck (s : State) : State :=
  if s.hearth.gated || decide (s.hearth.tj.toInt < 115) then s
  else ((s.powerOff.modHearth fun h => { h with gated := true, tripped := true, last := 7 })).report { code := 0x4B, scope := 5 }

/-- EMERG_CLEAR: TJ has stayed below TEMERG - 5 for 1 ms; a black-box entry marks the exit (R309). -/
def State.emergClear (s : State) : State :=
  match s.hearth.coolSince with
  | some c =>
    if s.hearth.emerg then
      (((s.advanceTo (c + 1000000)).modHearth fun h => { h with emerg := false }).setSteps).routeB { code := 0x4A, scope := 5 }
    else s
  | none => s

def execEmergClear (s : State) : Out := .next (if s.hearth.por then s else s.emergClear)

/-- THERM_N is low during an emergency and after a trip (R309, R310); POR releases it (R370). -/
def Hearth.thermN (h : Hearth) : Bool := h.por || !(h.emerg || h.gated)

/-! ### The hearth watchdog (R312) -/

/-- HWDT_MS in ns, at least 1 ms. -/
def Hearth.hwdtNs (h : Hearth) : Nat := max 1 (fld h.rstCtl 31 16) * 1000000

/-- KICK starts or restarts the period while HWDT_EN = 1. -/
def State.kick (s : State) : State :=
  s.modHearth fun h => { h with
    rstCtl := h.rstCtl ||| 4, hwdt := if bitAt h.rstCtl 1 then some (h.time.toNat + h.hwdtNs) else h.hwdt }

/-- HWDT_KICK. -/
def execHwdtKick (by_ : Writer) (s : State) : Out := .next (if s.fabricOn then s.asManager by_ State.kick else s)

/-- HWDT_EXPIRY: once, with the effects of WARM; in the hc of a WARM of the manager there is that one reset (R312). -/
def State.hwdtExpire (s : State) : State :=
  match s.hearth.hwdt with
  | some d =>
    let t := (s.advanceTo d).modHearth fun h => { h with hwdt := none }
    if t.hearth.warmAt = some t.now then t
    else
      let u := t.report { code := 0x4D, scope := 5 }
      if u.alive then u.warmReset 5 else u
  | none => s

def execHwdtExpiry (s : State) : Out := .next (if s.hearth.por then s else s.hwdtExpire)

/-! ### POR and PIN (R301, R311, R366, R368) -/

/-- POWER_ON_RESET. -/
def execPowerOnReset (s : State) : Out := .next s.porBegin

/-- HEARTH_UNDERVOLTAGE: a POR. -/
def execHearthUndervoltage (s : State) : Out := .next s.porBegin

/-- POR_END. -/
def execPorEnd (s : State) : Out := .next s.porEnd

/-- RESET_N_LOW: a PIN reset; in OFF_AO it wakes the device. While PWR_GOOD is low LAST stays 3 (R368). -/
def State.resetLow (s : State) : State :=
  let t := s.modHearth fun h => { h with resetN := false }
  if t.hearth.por then t
  else if t.hearth.devState = 3 then t.deviceWake
  else t.pinBegin (if t.hearth.pwrGood then 2 else 3)

def execResetNLow (s : State) : Out := .next s.resetLow

/-- RESET_N_HIGH. -/
def execResetNHigh (s : State) : Out := .next (s.modHearth fun h => { h with resetN := true }).pinEnd

/-- PWR_GOOD_LOW: outside OFF_AO it acts as RESET_N. -/
def State.pwrLow (s : State) : State :=
  let t := s.modHearth fun h => { h with pwrGood := false }
  if t.hearth.por || t.hearth.devState == 3 then t else t.pinBegin 3

def execPwrGoodLow (s : State) : Out := .next s.pwrLow

/-- PWR_GOOD_HIGH: ends the reset, or completes a wake from OFF_AO. -/
def execPwrGoodHigh (s : State) : Out := .next (s.modHearth fun h => { h with pwrGood := true }).pinEnd

/-- HBM contents survive only while VDD_HBM and VPP_HBM, rails 6 and 7, stay in range (R363, R367). -/
def hbmRail (r : Fin 10) : Bool := r == 6 || r == 7

/-- RAIL_UNDERVOLTAGE: a non-hearth rail, while PWR_GOOD is high outside OFF_AO, acts as PWR_GOOD low. -/
def State.railLow (s : State) (r : Fin 10) : State :=
  if s.hearth.por || !s.hearth.pwrGood || s.hearth.devState == 3 || r.val == 0 then s
  else
    let t := (s.modHearth fun h => { h with railStat := h.railStat ||| (1 <<< r.val) }).pinBegin 3
    if hbmRail r then { t with mem := ⟨[], []⟩ } else t

def execRailUndervoltage (r : Fin 10) (s : State) : Out := .next (s.railLow r)

/-! ### WARM and ENGINE (R313, R314) -/

/-- WARM: the manager writes 1 to RST_CTL.WARM. -/
def execWarm (by_ : Writer) (s : State) : Out :=
  .next (if s.fabricOn then
    s.asManager by_ fun s => (s.modHearth fun h => { h with rstCtl := h.rstCtl ||| 1 }).warmReset 4 else s)

/-- A glove of an engine that is reset stops as at an abort (R91, R314); a tick run ends as under R92, without a fault to report. -/
def State.resetGlove (s : State) (gl : GloveRef) : State :=
  let g := s.glv gl
  match g.kind with
  | .none => s
  | .tick =>
    (((s.releaseGlove gl).modGlv gl fun x => { x with kind := .tick, armed := true, pc := 0 }).modTick gl.e fun t =>
      { t with first := true }).tickRunEnd gl.e
  | _ => (s.markAborted g.strm g.cmdIx).abortLaunch g.strm g.cmdIx

/-- A glove after the ENGINE column of R315. A tick lease stays, and stays armed (R314, R229): it still pins the glove, and an armed one
leaves it in tick idle, from which it fires (R217); its tenant is set again at firing. -/
def Glove.engineReset (g : Glove) (armed : Bool) : Glove :=
  { Glove.reset with
    state := if armed then 5 else 0, pinned := g.pinned, lease := g.lease,
    strm := g.strm, align := g.align, prog := g.prog, regionLen := g.regionLen, wdogLimit := g.wdogLimit,
    hang := { HangS.reset with freezes := g.hang.freezes } }

/-- The engine after the ENGINE column of R315. -/
def Engine.afterReset (x : Engine) : Engine :=
  { x with
    gloves := x.gloves.mapFinIdx fun i g _ => g.engineReset (x.tick.armed && i == 3)
    issuePtr := 0, unitPtr := Vector.replicate 7 0, cupboard := Vector.replicate 64 Slot.empty, banks := Engine.reset.banks,
    keeps := Vector.replicate 7 none, work := Vector.replicate 5 0,
    saved := Vector.replicate 4 false, attic := []
    tick := { x.tick with lastNs := 0, maxNs := 0, first := true } }

/-- Dumps of an engine's gloves are abandoned (R286). -/
def Obs.forget (e : EngIx) (o : Obs) : Obs :=
  { o with dumpQueue := o.dumpQueue.filter fun gl => gl.e != e
           dumping := match o.dumping with
             | some gl => if gl.e = e then none else some gl
             | none => none }

/-- The lease of a resident context loses it. -/
def State.dropResident (s : State) (gl : GloveRef) : State :=
  match s.holder gl with
  | some l => s.modLease l fun x => { x with resident := none }
  | none => s

/-- ENGINE reset (R314): the work is aborted, resident contexts are discarded, the engine's state is cleared. -/
def State.resetEngine (s : State) (e : EngIx) : State :=
  let s1 := (glovesOf e).foldl State.resetGlove s
  let s2 := (glovesOf e).foldl State.dropResident s1
  ((s2.modEng e Engine.afterReset).modObs (Obs.forget e)).clearEngCounters e
/-- ENGINE_RESET: the manager writes 1 to RESET. -/
def execEngineReset (by_ : Writer) (e : EngIx) (s : State) : Out :=
  .next (if s.fabricOn then
    s.asManager by_ fun s =>
      ((s.modEng e fun x => { x with pwr := x.pwr ||| 0x20000000000000 }).resetEngine e).leaseSweep else s)

end Sys2Proof.Machine
end

