-- ==== Sys2Proof/Machine/Platform.lean ====
section
/-!
DEFINITION. The core platform: PLIC and ACLINT (R244-R246), core control (R259-R261), the UART (R336) and the flash registers (R333).
-/
namespace Sys2Proof.Machine

/-! ### PLIC (R244, R246) -/

/-- The UART's condition (R336): RX not empty, or TX below 16 bytes, where enabled. -/
def Cores.uartCond (c : Cores) : Bool :=
  (bitAt c.uartCtl 16 && !c.uartRx.isEmpty) || (bitAt c.uartCtl 17 && decide (c.uartTx.length < 16))

/-- The condition of a PLIC source (R246). -/
def State.plicCond (s : State) (n : Nat) : Bool :=
  match n with
  | 1 => s.cores.mailboxIrq
  | 2 => s.hearth.mgrSel == 3 && !s.flt.evq.isEmpty
  | 3 => s.cores.faultIrq
  | 4 => s.hearth.warn || s.hearth.emerg
  | 5 => s.cores.uartCond
  | 6 => s.cores.sampIrq || s.wings.toList.any fun w => w.watchPend != 0
  | 7 => s.hearth.mgrSel == 3 && s.engines.toList.any fun e => e.gloves.toList.any fun g => g.hang.frozen
  | _ => decide (32 ≤ n) && decide (n < 160) && bitAt s.cores.strmIrq (n - 32)

/-- Whether a source is pending: its condition holds and no claim of it is open. -/
def State.plicPending (s : State) (n : Nat) : Bool := s.plicCond n && !bitAt s.cores.plicClaimed n

/-- The priority of a source, and whether a context enables it. -/
def Cores.prio (c : Cores) (n : Nat) : Nat := ((c.plicPrio[n]?).getD 0).toNat
def Cores.enabled (c : Cores) (ctx : Fin 8) (n : Nat) : Bool := bitAt c.plicEn[ctx.val] n

/-- The source that a claim returns: the highest priority, the lowest number among equals; 0 for none. -/
def State.plicBest (s : State) (ctx : Fin 8) : Nat :=
  (List.range 160).foldl (fun b n =>
    if n != 0 && s.plicPending n && s.cores.enabled ctx n && decide ((if b = 0 then 0 else s.cores.prio b) < s.cores.prio n) then n else b) 0

/-- Whether a context's interrupt is raised: its best source lies above the threshold. -/
def State.plicIrq (s : State) (ctx : Fin 8) : Bool :=
  let b := s.plicBest ctx
  b != 0 && decide ((s.cores.plicThr[ctx.val]).toNat < s.cores.prio b)

/-- A claim opens; the condition of an event source ends with it (log 22). -/
def Cores.claim (c : Cores) (n : Nat) : Cores :=
  { c with
    plicClaimed := c.plicClaimed ||| (1 <<< n)
    faultIrq := c.faultIrq && n != 3
    sampIrq := c.sampIrq && n != 6
    strmIrq := if 32 ≤ n then c.strmIrq &&& ~~~((1 : BitVec 128) <<< (n - 32)) else c.strmIrq }

/-- A claim by a context: the number goes to the reader. -/
def State.plicClaim (s : State) (ctx : Fin 8) : State :=
  let n := s.plicBest ctx
  { (if n = 0 then s else s.modCores fun c => c.claim n) with out := toBytes 4 n }

/-- PLIC_CLAIM. -/
def execPlicClaim (ctx : Fin 8) (s : State) : Out := .next (if s.fabricOn then s.plicClaim ctx else s)

/-- A completion: ignored for a source that the context does not enable. -/
def State.plicComplete (s : State) (ctx : Fin 8) (n : Nat) : State :=
  if n < 160 ∧ s.cores.enabled ctx n then s.modCores fun c => { c with plicClaimed := c.plicClaimed &&& ~~~((1 : BitVec 160) <<< n) }
  else s

/-- PLIC_COMPLETE. -/
def execPlicComplete (ctx : Fin 8) (src : Nat) (s : State) : Out := .next (if s.fabricOn then s.plicComplete ctx src else s)

/-- A pending source of a hart in WFI returns the device from STANDBY (R300). -/
def State.plicWake (s : State) : State :=
  if (s.hearth.devState = 2 ∨ (s.hearth.devState = 1 ∧ s.hearth.toward = 1)) ∧
      (allFin 4).any (fun h => (s.hart h).wfi && !(s.hart h).inReset &&
        (s.plicIrq ⟨2 * h.val, by omega⟩ || s.plicIrq ⟨2 * h.val + 1, by omega⟩)) = true
  then s.deviceWake else s

/-- THERMAL_SAMPLE (R308-R310). A PIN reset that waits for TJ below 95 degrees goes on. -/
def execThermalSample (t : TempSample) (s : State) : Out :=
  .next (if s.hearth.por then s else (s.takeTemps t).warnCheck.emergCheck.tripCheck.pinEnd.plicWake)

/-! ### The 32-bit registers of the PLIC -/

/-- The context of an offset. -/
def ctxNo (n : Nat) : Fin 8 := ⟨n % 8, by omega⟩

/-- A 32-bit PLIC register at an offset of its block. -/
def State.plicRead (s : State) (o : Nat) : Nat :=
  if o < 640 then s.cores.prio (o / 4)
  else if 0x1000 ≤ o ∧ o < 0x1014 then
    digits 1 (fun i => b2n (s.plicPending (8 * (o - 0x1000) + i))) 0 32
  else if 0x2000 ≤ o ∧ o < 0x2400 then
    if (o - 0x2000) % 0x80 < 20 then fld (s.cores.plicEn[(ctxNo ((o - 0x2000) / 0x80)).val]) (8 * ((o - 0x2000) % 0x80) + 31) (8 * ((o - 0x2000) % 0x80))
    else 0
  else if 0x200000 ≤ o ∧ o < 0x208000 then
    let c := ctxNo ((o - 0x200000) / 0x1000)
    if o % 0x1000 = 0 then (s.cores.plicThr[c.val]).toNat else if o % 0x1000 = 4 then s.plicBest c else 0
  else 0

/-- A write of a 32-bit PLIC register. Source 0 does not exist. -/
def State.plicWrite (s : State) (o v : Nat) : State :=
  if o < 640 then
    if h : o / 4 < 160 ∧ o / 4 ≠ 0 then s.modCores fun c => { c with plicPrio := vset c.plicPrio ⟨o / 4, h.1⟩ (BitVec.ofNat 3 v) } else s
  else if 0x2000 ≤ o ∧ o < 0x2400 then
    if (o - 0x2000) % 0x80 < 20 then
      s.modCores fun c => { c with plicEn := vmod c.plicEn (ctxNo ((o - 0x2000) / 0x80)) fun b =>
        (setFld b (8 * ((o - 0x2000) % 0x80)) 32 v) &&& ~~~1 }
    else s
  else if 0x200000 ≤ o ∧ o < 0x208000 then
    let c := ctxNo ((o - 0x200000) / 0x1000)
    if o % 0x1000 = 0 then s.modCores fun x => { x with plicThr := vset x.plicThr c (BitVec.ofNat 3 v) }
    else if o % 0x1000 = 4 then s.plicComplete c v else s
  else s

/-! ### ACLINT (R244, R245) -/

/-- mtime (R245). -/
def State.mtime (s : State) : Nat := s.now / 40

/-- The hart of an offset. -/
def hartNo (n : Nat) : HartIx := ⟨n % 4, by omega⟩

/-- A hart that waits in the boot ROM jumps to BOOT_ENTRY once its msip is set (R247). -/
def State.msipJump (s : State) (h : HartIx) : State :=
  let x := s.hart h
  if x.inRom && x.wfi && !x.inReset && h != 0 then
    s.modHart h fun y => { y with pc := s.cores.bootEntry, inRom := false, wfi := false } else s

/-- msip as written. -/
def State.setMsip (s : State) (h : HartIx) (v : Bool) : State :=
  let t := s.modHart h fun x => { x with msip := v }
  if v then t.msipJump h else t

/-- HART_MSIP_START: the msip of a waiting hart is set. -/
def execHartMsipStart (h : HartIx) (s : State) : Out := .next (if s.fabricOn then s.setMsip h true else s)

/-- A 64-bit word of the ACLINT at an offset of its block. -/
def State.aclintRead (s : State) (o : Nat) : Word :=
  if o < 0x10 then at_ (b2n (s.hart (hartNo (o / 4))).msip) 0 ||| at_ (b2n (s.hart (hartNo (o / 4 + 1))).msip) 32
  else if 0x10000 ≤ o ∧ o < 0x10020 then (s.hart (hartNo ((o - 0x10000) / 8))).mtimecmp
  else if o = 0x17FF8 then at_ s.mtime 0
  else 0

/-- Bits of a word that a write replaces, by its byte enables. -/
def mrg (old v mask : Word) : Word := (old &&& ~~~mask) ||| (v &&& mask)

/-- A write of an ACLINT word: mtime ignores it; SETSSIP sets the pending bit. -/
def State.aclintWrite (s : State) (o : Nat) (mask v : Word) : State :=
  if o < 0x10 then
    let lo := if bitAt mask 0 then s.setMsip (hartNo (o / 4)) (bitAt v 0) else s
    if bitAt mask 32 then lo.setMsip (hartNo (o / 4 + 1)) (bitAt v 32) else lo
  else if 0x10000 ≤ o ∧ o < 0x10020 then s.modHart (hartNo ((o - 0x10000) / 8)) fun x => { x with mtimecmp := mrg x.mtimecmp v mask }
  else if 0x20000 ≤ o ∧ o < 0x20010 then
    let lo := if bitAt (v &&& mask) 0 then s.modHart (hartNo ((o - 0x20000) / 4)) fun x => { x with ssip := true } else s
    if bitAt (v &&& mask) 32 then lo.modHart (hartNo ((o - 0x20000) / 4 + 1)) fun x => { x with ssip := true } else lo
  else s

/-- MTIMER_INTERRUPT: mtime reaches the mtimecmp of a hart, whose timer interrupt is then pending. -/
def State.mtimerReach (s : State) (h : HartIx) : State := s.advanceTo (40 * (s.hart h).mtimecmp.toNat)

/-- Whether a hart's timer interrupt is pending. -/
def State.mtip (s : State) (h : HartIx) : Bool := decide ((s.hart h).mtimecmp.toNat ≤ s.mtime)

/-- MTIMER_INTERRUPT: nothing more happens to a hart whose comparator lies beyond the timebase. -/
def execMtimerInterrupt (h : HartIx) (s : State) : Out :=
  .next (if s.fabricOn && decide (40 * (s.hart h).mtimecmp.toNat < 2 ^ 64) then s.mtimerReach h else s)

/-! ### Core control (R259-R261) -/

/-- A hart under CORE reset: one in reset stays there; under BOOT_SRC 0b00 and 0b01 the others start in the boot ROM, where harts 1-3
wait in WFI and hart 0 waits for LOAD_GO under 0b01; otherwise RUN releases it at BOOT_ENTRY. -/
def State.bootHart (s : State) (h : HartIx) : State :=
  if (s.hart h).inReset then s.modHart h fun _ => Hart.reset true
  else if s.hearth.bootSrc = 0 ∨ s.hearth.bootSrc = 1 then
    let t := s.modHart h fun _ => { Hart.reset false with wfi := h != 0 || (s.hearth.mgrSel == 3 && s.hearth.bootSrc == 1) }
    if h = 0 then t.modCores fun c => { c with bootWait := s.hearth.bootSrc == 1 && s.hearth.mgrSel != 3, bootSram := false } else t
  else if bitAt s.cores.run h.val then s.modHart h fun _ => { Hart.reset false with pc := s.cores.bootEntry, inRom := false }
  else s.modHart h fun _ => Hart.reset true

/-- A hart released by RUN starts at BOOT_ENTRY without authentication (R260); under BOOT_SRC 0b11 it stays in reset. -/
def State.runHart (s : State) (h : HartIx) : State :=
  if s.hearth.bootSrc = 3 then s
  else s.modHart h fun _ => { Hart.reset false with pc := s.cores.bootEntry, inRom := false }

/-- Whether a writer may name a hart in RUN and CORE_RESET: the manager, or M-mode of another hart. -/
def State.mayNameHart (s : State) (w : Writer) (h : HartIx) : Bool :=
  s.isManager w || match w with
    | .hart g => g != h && (s.hart g).priv == 3 && s.acts (.hart g)
    | .port _ => false

/-- One bit of RUN. A hart that it puts in reset loses its caches, without writeback as at a CORE reset (R259, R260). -/
def State.runBit (mask : BitVec 4) (s : State) (h : HartIx) : State :=
  let on := bitAt mask h.val
  if bitAt s.cores.run h.val = on then s
  else
    let t := s.modCores fun c => { c with run := setFld c.run h.val 1 (b2n on) }
    if on then t.runHart h else (t.loseCore h).modHart h fun _ => Hart.reset true

/-- A writer that may change some hart of core control. -/
def State.coreWriter (s : State) (w : Writer) : Bool := (allFin 4).any fun h => s.mayNameHart w h

/-- A write of RUN: the bits of the harts that the writer may name. -/
def State.writeRun (s : State) (w : Writer) (mask : BitVec 4) : State :=
  if s.coreWriter w then ((allFin 4).filter (s.mayNameHart w)).foldl (State.runBit mask) s else s.refuseWrite w

/-- CORE_RUN. -/
def execCoreRun (by_ : Writer) (mask : BitVec 4) (s : State) : Out := .next (if s.fabricOn then s.writeRun by_ mask else s)

/-- The UART as CORE clears it (R336). -/
def Cores.uartCleared (c : Cores) : Cores :=
  { c with uartTx := [], uartRx := [], uartOverrun := false, uartCtl := c.uartCtl &&& 0xFFFF }

/-- CORE reset of some harts (R259): the caches are invalidated without writeback, the harts start again, firmware's
tenants are evicted. -/
def State.resetCores (s : State) (mask : BitVec 4) : State :=
  if mask = 0 then s
  else
    let s1 := s.loseCaches.modCores fun c => { c.uartCleared with coreReset := mask, dirPend := [], dirHeld := [] }
    let s2 := ((allFin 4).filter fun h => bitAt mask h.val).foldl State.bootHart s1
    s2.evictPort 4 6

/-- A write of CORE_RESET: only the harts that the writer may name. -/
def State.writeCoreReset (s : State) (w : Writer) (mask : BitVec 4) : State :=
  if s.coreWriter w then
    s.resetCores (((allFin 4).filter fun h => bitAt mask h.val && s.mayNameHart w h).foldl (fun b h => b ||| (1 <<< h.val)) 0)
  else s.refuseWrite w

/-- CORE_RESET. -/
def execCoreReset (by_ : Writer) (mask : BitVec 4) (s : State) : Out := .next (if s.fabricOn then s.writeCoreReset by_ mask else s)

/-- LOAD_GO (R247, R260): hart 0 authenticates the image in Hall SRAM, from its wait in the boot ROM or from reset; the bit starts
nothing in a hart that is past both. -/
def State.startLoad (s : State) : State :=
  let s0 := s.modCores fun c => { c with loadGo := true }
  if s.hearth.bootSrc = 3 ∨ (!(s.hart 0).inReset && !s.cores.bootWait) then s0
  else
    let s1 := s0.modCores fun c => { c with bootWait := false, bootSram := true, bootCode := 0 }
    if (s.hart 0).inReset then
      (allFin 4).foldl (fun t h => if (t.hart h).inReset then t.modHart h fun _ => { Hart.reset false with wfi := h != 0 } else t) s1
    else s1

/-- LOAD_GO: the manager only. -/
def execLoadGo (by_ : Writer) (s : State) : Out := .next (if s.fabricOn then s.asManager by_ State.startLoad else s)

/-! ### UART (R336) -/

/-- A byte written to UART_DATA. The first 64 bytes of `uartTx` stand in the FIFO; a write that finds it full waits for a place behind them,
since the part discards no transaction (R10; log 23). -/
def Cores.uartPush (c : Cores) (b : Byte) : Cores := { c with uartTx := c.uartTx ++ [b] }

/-- Whether a writer reaches the UART and flash registers: the manager or a hart. -/
def State.reachesPlatform (s : State) : Writer → Bool
  | .hart h => s.acts (.hart h)
  | w => s.isManager w

/-- UART_TX_PUSH. -/
def execUartTxPush (by_ : Writer) (b : Byte) (s : State) : Out :=
  .next (if !s.fabricOn then s else if s.reachesPlatform by_ then s.modCores fun c => c.uartPush b else s.refuseWrite by_)

/-- A read of UART_DATA by a reader with access pops the head. -/
def State.uartPop (s : State) : State :=
  { (s.modCores fun c => { c with uartRx := c.uartRx.drop 1 }) with out := toBytes 8 ((s.cores.uartRx.head?).getD 0).toNat }

/-- UART_RX_POP; another reader sees the head and leaves it (R324). -/
def execUartRxPop (by_ : Writer) (s : State) : Out :=
  .next (if !s.fabricOn then s
    else if s.reachesPlatform by_ then s.uartPop
    else { s with out := toBytes 8 ((s.cores.uartRx.head?).getD 0).toNat })

/-- A byte arrives on UART_RX. -/
def Cores.uartRecv (c : Cores) (b : Byte) : Cores :=
  if c.uartRx.length < 64 then { c with uartRx := c.uartRx ++ [b] } else { c with uartOverrun := true }

/-- UART_RX_BYTE. -/
def execUartRxByte (b : Byte) (s : State) : Out := .next (if s.fabricOn then s.modCores fun c => c.uartRecv b else s)

/-- A byte leaves on UART_TX. -/
def Cores.uartSend (c : Cores) : Cores :=
  match c.uartTx with
  | b :: l => { c with uartTx := l, uartSent := c.uartSent ++ [b] }
  | [] => c

/-- UART_TX_BYTE. -/
def execUartTxByte (s : State) : Out := .next (if s.fabricOn then s.modCores Cores.uartSend else s)

/-! ### Flash (R333) -/

/-- Whether the boot ROM is reading the flash. -/
def State.bootReads (s : State) : Bool :=
  s.hearth.bootSrc == 0 && !s.cores.bootSram && (s.hart 0).inRom && !(s.hart 0).inReset && !(s.hart 0).wfi

/-- GO starts the command that the registers hold. -/
def State.flashStart (s : State) : State :=
  if s.cores.flashBusy || s.bootReads then s
  else s.modCores fun c => { c with flashBusy := true, flashCmd := c.flashCmd ||| 0x4000000 }

/-- Whether a writer may issue flash commands: the manager, or firmware in M-mode. -/
def State.flashWriter (s : State) : Writer → Bool
  | .hart h => s.acts (.hart h) && (s.isManager (.hart h) || (s.hart h).priv == 3)
  | w => s.isManager w

/-- FLASH_GO. -/
def execFlashGo (by_ : Writer) (s : State) : Out :=
  .next (if !s.fabricOn then s else if s.flashWriter by_ then s.flashStart else s.refuseWrite by_)

/-- A flash command ends: a read leaves LEN bytes in DATA. -/
def Cores.flashEnd (c : Cores) (data : List Byte) : Cores :=
  let n := min 256 (fld c.flashCmd 25 17)
  { c with
    flashBusy := false
    flashData := if bitAt c.flashCmd 16 then c.flashData
      else c.flashData.mapFinIdx fun i b _ => if i < n then (data[i]?).getD b else b }

/-- FLASH_COMMAND_DONE, with the bytes that the flash has sent. -/
def execFlashCommandDone (data : List Byte) (s : State) : Out :=
  .next (if s.fabricOn && s.cores.flashBusy then s.modCores fun c => c.flashEnd data else s)

end Sys2Proof.Machine
end

