-- ==== Sys2Proof/Machine/PortCore.lean ====
section
/-!
DEFINITION. Host ports (R319-R321, R327-R331): configuration space, MSI-X, link states, PORT resets, and the commands that act on a
port's link. What R320 leaves to the PCI Express specification follows that specification's layout (log 24).
-/
namespace Sys2Proof.Machine

/-- The mailbox number of a port (R181). -/
def portMb (p : PortIx) : MbIx := ⟨p.val, by omega⟩

/-- Whether a tick lease of one of a port's tenants is armed. -/
def State.portArmed (s : State) (p : PortIx) (e : EngIx) : Bool :=
  s.tickArmed e && (s.tenant (s.lease (s.eng e).tick.lease).tenant).port == portMb p

/-- L1_HELD (R328). -/
def State.l1Held (s : State) (p : PortIx) : Bool := (allFin 16).any (s.portArmed p)

/-! ### Configuration space (R320) -/

/-- The dwords of configuration space whose value is fixed: the tables of R320. -/
def cfgFixed (p off : Nat) : Option (BitVec 32) :=
  match off with
  | 0x00 => some 0x16001F9C
  | 0x08 => some 0x120000A1
  | 0x0C => some 0
  | 0x2C => some 0x16001F9C
  | 0x34 => some 0x40
  | 0x40 => some 0x00035001
  | 0x50 => some 0x0002B010
  | 0x54 => some 0x10008021
  | 0x5C => some 0x00400844
  | 0x74 => some 0x00000813
  | 0x7C => some 0x0000001E
  | 0xB4 => some (BitVec.ofNat 32 (0x0A010000 + 0x100000 * p))
  | 0xB8 => some (BitVec.ofNat 32 (0x0A018000 + 0x100000 * p))
  | 0x100 => some 0x14820001
  | 0x148 => some 0x15810003
  | 0x14C => some ((Config.fuseWord 0x100).truncate 32)
  | 0x150 => some (BitVec.ofNat 32 (fld (Config.fuseWord 0x100) 47 32))
  | 0x158 => some 0x17810019
  | 0x178 => some 0x1A010026
  | 0x1A0 => some 0x1E010027
  | 0x1E0 => some 0x1E810018
  | 0x1E8 => some 0x0001001E
  | 0x1EC => some 0x00210A1F
  | _ => none

/-- The dwords that the host can write, with their writable bits and reset values; the other bits read as in the reset value. -/
def cfgRw (off : Nat) : Option (BitVec 32 × BitVec 32) :=
  match off with
  | 0x04 => some (0x00000146, 0x00100000)
  | 0x10 => some (0xE0000000, 0x00000004)
  | 0x14 => some (0xFFFFFFFF, 0)
  | 0x18 => some (0xC0000000, 0x0000000C)
  | 0x1C => some (0xFFFFFFFF, 0)
  | 0x20 => some (0, 0x0000000C)
  | 0x24 => some (0xFFFFFFE0, 0)
  | 0x3C => some (0x000000FF, 0)
  | 0x58 => some (0x000079FF, 0x00002810)
  | 0x60 => some (0x000003CB, 0)
  | 0x78 => some (0x0000041F, 0)
  | 0x80 => some (0x0000000F, 0x00000004)
  | 0xB0 => some (0xC0000000, 0x007F0011)
  | 0x108 => some (0x01DFF030, 0)
  | 0x10C => some (0x01DFF030, 0x00462030)
  | 0x114 => some (0x0000F1C1, 0x00002000)
  | 0x1E4 => some (0x1FFF1FFF, 0)
  | 0x1F0 => some (0xE3FFFF0F, 0)
  | 0x1F4 => some (0x000000FB, 0)
  | _ => none

/-- The dwords of AER that a PORT reset keeps (R330). -/
def cfgSticky (off : Nat) : Bool := off == 0x108 || off == 0x10C || off == 0x114

/-- Whether an offset lies inside a capability, where the PCI Express specification gives the fields that R320 does not. -/
def cfgInCap (off : Nat) : Bool := (decide (0x40 ≤ off) && decide (off < 0xC0)) || (decide (0x100 ≤ off) && decide (off < 0x1F8))

/-- Store a writable dword. -/
def HostPort.cfgStore (p : HostPort) (off : Nat) (v : BitVec 32) : HostPort :=
  { p with cfg := (off, v) :: p.cfg.filter fun c => c.1 != off }

/-- Link Status with Link Control (0x60). -/
def HostPort.linkCtl (p : HostPort) : BitVec 32 :=
  p.cfgStored 0x60 0 ||| BitVec.ofNat 32 (2 ^ 16 * p.speed.toNat + 2 ^ 20 * p.width.toNat)

/-- A dword of configuration space at an offset. -/
def State.cfgRead (s : State) (p : PortIx) (off : Nat) : BitVec 32 :=
  let x := s.port p
  if off = 0x44 then (if x.d3hot then 0xB else 0x8)
  else if off = 0x60 then x.linkCtl
  else if off = 0x104 then x.aerStat
  else if off = 0x118 then x.aerFirst.zeroExtend 32
  else if 0x11C ≤ off ∧ off < 0x12C then (if x.aerLogs = 0 then 0 else Config.cfgHeader p.val off x.aerLogs)
  else match cfgFixed p.val off, cfgRw off with
    | some v, _ => v
    | none, some (_, r) => x.cfgStored off r
    | none, none => if cfgInCap off then Config.cfgOpen p.val off else 0

/-- Bits of a dword that byte enables select. -/
def enMask (en : BitVec 4) : BitVec 32 :=
  BitVec.ofNat 32 (digits 8 (fun i => if bitAt en i then 0xFF else 0) 0 4)

/-! ### MSI-X (R327) -/

/-- A pending vector that is no longer held back is sent once. -/
def HostPort.flushVec (p : HostPort) (v : Fin 128) : HostPort :=
  if p.msixOn && !p.msix[v.val].mask && bitAt p.pba v.val
  then { p.sendVector v with pba := p.pba &&& ~~~((1 : BitVec 128) <<< v.val) } else p

/-- Every pending vector that is no longer held back. -/
def HostPort.flushVecs (p : HostPort) : HostPort := (allFin 128).foldl HostPort.flushVec p

/-- A 64-bit word of the table: address, then data with the mask bit. -/
def HostPort.msixRead (p : HostPort) (o : Nat) : Word :=
  let e := p.msix[(toFin 128 (by omega) (o / 16)).val]
  if o % 16 = 0 then e.addr else e.data.zeroExtend 64 ||| at_ (b2n e.mask) 32

/-- A write of a table word. -/
def HostPort.msixWrite (p : HostPort) (o : Nat) (mask v : Word) : HostPort :=
  let i : Fin 128 := toFin 128 (by omega) (o / 16)
  let w := mrg (p.msixRead o) v mask
  let f (e : MsixEnt) : MsixEnt :=
    if o % 16 = 0 then { e with addr := w &&& ~~~3 } else { e with data := w.truncate 32, mask := bitAt w 32 }
  ({ p with msix := vmod p.msix i f }).flushVec i

/-- MSIX_UNMASK: the host clears the mask bit of a vector. -/
def HostPort.unmask (p : HostPort) (v : Fin 128) : HostPort :=
  ({ p with msix := vmod p.msix v fun e => { e with mask := false } }).flushVec v

/-! ### AER (R320, R325) -/

/-- Bits of the uncorrectable error status. -/
def aerPoisoned : Fin 32 := 12
def aerTimeout : Fin 32 := 14
def aerAbort : Fin 32 := 15
def aerMalformed : Fin 32 := 18
def aerUr : Fin 32 := 20

/-- An error is logged: its status bit, and the first-error pointer and the header log when none was logged before. -/
def HostPort.aerLog (p : HostPort) (b : Fin 32) : HostPort :=
  { p with
    aerFirst := if p.aerStat = 0 then BitVec.ofNat 5 b.val else p.aerFirst
    aerLogs := if p.aerStat = 0 then p.aerLogs + 1 else p.aerLogs
    aerStat := p.aerStat ||| (1 <<< b.val) }

/-! ### PORT reset (R330) -/

/-- What a PORT reset leaves of a port: the sticky AER fields, PORT_ERR, what has already left, and, after FLR, the link. -/
def HostPort.portReset (linkGone : Bool) (p : HostPort) : HostPort :=
  { p with
    speed := if linkGone then 0 else p.speed, width := if linkGone then 0 else p.width
    lstate := if linkGone then 0 else p.lstate
    l1Idle := 64, evt := 0, d3hot := false, cfg := p.cfg.filter fun c => cfgSticky c.1
    msix := Vector.replicate 128 ⟨0, 0, true⟩, pba := 0, lane := [], egress := [], crs := false }

/-- Queued outbound TLPs are dropped and counted (R206, R330). -/
def State.dropQueued (s : State) (p : PortIx) : State :=
  let n := (s.port p).lane.length + (s.port p).egress.length
  let t := s.modPort p fun x => { x with lane := [], egress := [] }
  t.modTen fun x => { x with portDiscard := vmod x.portDiscard (portMb p) (· + BitVec.ofNat 32 n) }

/-- Whether an outstanding response comes from host memory of a port. -/
def State.fromHost (s : State) (p : PortIx) (gl : GloveRef) (y : Resp) : Bool :=
  (s.tenant (s.glv gl).tenant).port == portMb p && y.reqs.any fun q => !q.write && s.hostRoom (s.glv gl).tenant q.addr 1 .r

/-- The responses that a glove waits for from a port become error responses; `one` leaves all but the oldest. -/
def State.failHost (s : State) (p : PortIx) (one : Bool) (gl : GloveRef) : State :=
  let bad (r : Rec) : Rec := { r with resp := r.resp.map fun y => if s.fromHost p gl y then { y with err := fcHost } else y }
  let first (r : Rec) : Rec :=
    match r.resp.findIdx? (s.fromHost p gl) with
    | some i => { r with resp := r.resp.mapIdx fun j y => if j = i then { y with err := fcHost } else y }
    | none => r
  s.modGlv gl fun g =>
    if one then
      match g.inflight.findIdx? fun r => r.resp.any (s.fromHost p gl) with
      | some k => { g with inflight := g.inflight.mapIdx fun j r => if j = k then first r else r }
      | none => g
    else { g with inflight := g.inflight.map bad }

/-- Host reads that are outstanding when a link is lost end with error responses (log 25). -/
def State.failReads (s : State) (p : PortIx) : State := allGloves.foldl (fun t gl => t.failHost p false gl) s

/-- Inbound reads of a port that still wait have no requester once its link is lost. -/
def State.dropHeldReads (s : State) (p : PortIx) : State :=
  s.modHall fun h => { h with held := h.held.filter fun x => match x with
    | .read q _ _ _ => q != p
    | _ => true }

/-- The link of a port goes down. -/
def HostPort.unlink (p : HostPort) : HostPort := { p with speed := 0, width := 0, lstate := 0 }

/-- PORT reset of port p with the cause code of R205; FLR leaves the link trained. -/
def State.portReset (s : State) (p : PortIx) (cause : Nat) (linkGone : Bool) : State :=
  let s0 := if linkGone then ((s.failReads p).dropHeldReads p).modPort p HostPort.unlink else s
  let s1 := (s0.dropQueued p).evictPort (portMb p) cause
  ((s1.dropQueued p).modPort p (HostPort.portReset linkGone)).rebound (portMb p)

/-- PERST_ASSERT. While another reset holds the part only the level is taken; its cause acts when that reset ends (R331), which
leaves nothing of a port to reset. -/
def execPerstAssert (p : PortIx) (s : State) : Out :=
  let was := (s.port p).perst
  let t := s.modPort p fun x => { x with perst := true }
  .next (if s.alive && !was then t.portReset p 1 true else t)

/-- PERST_DEASSERT: training begins; in OFF_AO the device wakes (R301). -/
def execPerstDeassert (p : PortIx) (s : State) : Out :=
  let was := (s.port p).perst
  let t := s.modPort p fun x => { x with perst := false }
  .next (if was && s.hearth.devState == 3 && !s.hearth.por then t.deviceWake else t)

/-- Whether a port has a link. -/
def State.linked (s : State) (p : PortIx) : Bool := s.alive && (s.port p).lstate != 0

/-- PCIE_LINK_LOSS. -/
def execPcieLinkLoss (p : PortIx) (s : State) : Out :=
  .next (if s.linked p then (s.modPort p fun x => { x with linkDowns := x.linkDowns + 1 }).portReset p 2 true else s)

/-- HOT_RESET. -/
def execHotReset (p : PortIx) (s : State) : Out := .next (if s.linked p then s.portReset p 3 true else s)

/-- LINK_DISABLE. -/
def execLinkDisable (p : PortIx) (s : State) : Out := .next (if s.linked p then s.portReset p 3 true else s)

/-- The effect of FLR. -/
def State.flr (s : State) (p : PortIx) : State := s.portReset p 3 false

/-- FLR. -/
def execFlr (p : PortIx) (s : State) : Out := .next (if s.linked p then s.flr p else s)

/-! ### Power states of a function and its link (R328, R329) -/

/-- D3hot: the armed leases of the port's tenants are disarmed, the manager is signalled. -/
def State.d3hot (s : State) (p : PortIx) : State :=
  let s1 := s.modPort p fun x => { x with d3hot := true }
  (((allFin 16).filter (s1.portArmed p)).foldl State.disarmQuiet s1).mgrVector

/-- D3HOT_ENTRY. -/
def execD3hotEntry (p : PortIx) (s : State) : Out := .next (if s.linked p && !(s.port p).d3hot then s.d3hot p else s)

/-- D0_RETURN. -/
def execD0Return (p : PortIx) (s : State) : Out :=
  .next (if s.linked p then s.modPort p fun x => { x with d3hot := false } else s)

/-- The L1 substate that the L1 PM Substates capability selects: L1.2, L1.1 or L1. -/
def HostPort.l1State (p : HostPort) : BitVec 3 :=
  let c := p.cfgStored 0x1F0 0
  if bitAt c 2 then 4 else if bitAt c 3 then 3 else 2

/-- ASPM_L1_ENTRY: after L1_IDLE µs without traffic, with ASPM L1 enabled and no armed lease. -/
def execAspmL1Entry (p : PortIx) (s : State) : Out :=
  let x := s.port p
  .next (if s.linked p && x.lstate == 1 && bitAt (x.cfgStored 0x60 0) 1 && !s.l1Held p && !x.d3hot && x.lane.isEmpty && x.egress.isEmpty
    then s.modPort p fun y => { y with lstate := y.l1State } else s)

/-- ASPM_L1_EXIT. -/
def execAspmL1Exit (p : PortIx) (s : State) : Out := .next (if s.linked p then s.modPort p HostPort.toL0 else s)

/-- CLKREQ_N of a port is released while the port is held in reset and in L1.1 and L1.2, low otherwise (R370); while L1_HELD is 1 the port
needs its reference clock (R328). -/
def State.clkreqN (s : State) (p : PortIx) : Bool := !s.alive || (((s.port p).lstate == 3 || (s.port p).lstate == 4) && !s.l1Held p)

/-- The latency in ns that both LTR fields report: 0 while L1_HELD is 1 (R328), else a value that no rule states. -/
def State.ltrNs (s : State) (p : PortIx) : Nat := if s.l1Held p then 0 else Config.ltr p.val

/-- Rates and widths of a link that is up (R319). -/
def linkOk (speed : BitVec 4) (width : BitVec 3) : Bool :=
  decide (1 ≤ speed.toNat) && decide (speed.toNat ≤ 4) && (width == 1 || width == 2 || width == 4)

/-- PORT_LINK_CHANGE: the link is up at a rate and width; TICK_BOUND of the port's armed leases follows (R227). -/
def execPortLinkChange (p : PortIx) (speed : BitVec 4) (width : BitVec 3) (s : State) : Out :=
  .next (if s.alive && !(s.port p).perst && linkOk speed width
    then (s.modPort p fun x => { x with speed := speed, width := width, lstate := 1 }).rebound (portMb p) else s)

/-- COMPLETION_TIMEOUT: an outbound read ends with an error response to its master (R326). -/
def execCompletionTimeout (p : PortIx) (gl : Option GloveRef) (s : State) : Out :=
  .next (if s.linked p then
    let t := s.modPort p fun x => { x.aerLog aerTimeout with cplTimeouts := x.cplTimeouts + 1 }
    match gl with
    | some g => t.failHost p true g
    | none => t
  else s)

/-- MSIX_UNMASK. -/
def execMsixUnmask (p : PortIx) (v : Fin 128) (s : State) : Out :=
  .next (if s.fabricOn then s.modPort p fun x => x.unmask v else s)

/-! ### Configuration requests (R303, R320) -/

/-- A write of a dword of configuration space. -/
def State.cfgWrite (s : State) (p : PortIx) (off : Nat) (v : BitVec 32) (en : BitVec 4) : State :=
  let m := enMask en
  if off = 0x44 then
    if !bitAt en 0 then s
    else match fld v 1 0 with
      | 0 => s.modPort p fun x => { x with d3hot := false }
      | 3 => if (s.port p).d3hot then s else s.d3hot p
      | _ => s
  else if off = 0x104 then
    s.modPort p fun x => { x with aerStat := x.aerStat &&& ~~~(v &&& m) }
  else match cfgRw off with
    | some (rw, r) =>
      let t := s.modPort p fun x =>
        let old := x.cfgStored off r
        (x.cfgStore off ((old &&& ~~~(rw &&& m)) ||| (v &&& rw &&& m))).flushVecs
      if off = 0x58 ∧ bitAt en 1 ∧ bitAt v 15 then t.flr p else t
    | none => s

/-- A TLP arrives on a port: its link is in L0, and a device in STANDBY returns to ACTIVE (R300). -/
def State.inboundTlp (s : State) (p : PortIx) : State :=
  let t := s.modPort p HostPort.toL0
  if s.hearth.devState = 2 ∨ (s.hearth.devState = 1 ∧ s.hearth.toward = 1) then t.deviceWake else t

/-- CONFIGURATION_REQUEST: before ACTIVE it is answered with Configuration Request Retry Status. -/
def execConfigurationRequest (p : PortIx) (off : Nat) (write : Option (BitVec 32 × BitVec 4)) (s : State) : Out :=
  .next (if !s.linked p then s
    else
      let t := s.inboundTlp p
      let o := off % 4096 / 4 * 4
      if s.hearth.devState ≠ 0 then t.modPort p fun x => { x with crs := true }
      else
        let u := t.modPort p fun x => { x with crs := false }
        match write with
        | none => u.modPort p fun x => { x with cfgOut := x.cfgOut ++ [u.cfgRead p o] }
        | some (v, en) => u.cfgWrite p o v en)

end Sys2Proof.Machine
end

