-- ==== Sys2Proof/Machine/RegRead.lean ====
section
/-!
DEFINITION. What the registers of R359 read: the tables of R32, R51, R71, R94, R207, R211, R212, R229, R261, R276, R290, R304, R317,
R327, R332, R333, R336, R340, R354, R357, R360, R361 and R379, packed into 64-bit words. Reserved bits and addresses without a
register read zero (R4).
-/
namespace Sys2Proof.Machine

/-- The k-th element of a vector that a register number names. -/
def vget {α : Type} {n : Nat} (v : Vector α n) (k : Nat) (f : α → Word) : Word :=
  match v[k]? with
  | some x => f x
  | none => 0

/-! ### Hall global registers (0x4000_0000) -/

/-- HALL_ID0 and HALL_ID1 (R360). -/
def hallId0 : Word := 0x1F9C1600104445A1
def hallId1 : Word := 0x44100810

/-- HALL_REMAP (R15, R32). -/
def Hall.remapReg (h : Hall) : Word := at_ (b2n h.remapSel) 0 ||| at_ (b2n h.remapNew.isNone) 1

/-- HALL_SUMMARY (R361). -/
def State.summary (s : State) : Word :=
  let qos := s.hall.arbMode != 0 || s.wings.toList.any fun w => w.arbMode != 0
  at_ s.hearth.mgrSel.toNat 0 ||| at_ s.hearth.bootSrc.toNat 2 ||| (s.hall.remapReg <<< 4) ||| at_ (b2n qos) 6
    ||| at_ s.armedCount 7 ||| at_ s.hearth.devState.toNat 12 ||| at_ (b2n s.hearth.emerg) 14 ||| at_ s.cores.run.toNat 15
    ||| at_ (b2n (bitAt s.obs.censusCtl 4)) 19

/-- The dump queue without gloves that are no longer frozen. -/
def State.liveDumps (s : State) : List GloveRef := s.obs.dumpQueue.filter fun gl => (s.glv gl).hang.frozen && (s.glv gl).hang.dump == 1

/-- Hall global registers at an offset of 0x4000_0000. -/
def State.hallRead (s : State) (o : Nat) : Word :=
  match o with
  | 0x00 => hallId0
  | 0x08 => hallId1
  | 0x10 => s.summary
  | 0x100 => s.hall.remapReg
  | 0x108 => s.hall.arbMode
  | 0x110 => at_ s.trkUsed 0
  | 0x3000 => s.obs.censusCtl
  | 0x3008 => at_ s.ten.tableGen.toNat 0 ||| at_ s.liveDumps.length 32
  | 0x4000 => (s.flt.evq.head?).getD 0
  | 0x4008 => s.flt.sumLo
  | 0x4010 => s.flt.sumHi
  | 0x4018 => s.flt.errRoute.zeroExtend 64
  | 0x4020 => s.hall.eccWord
  | 0x4028 => s.hall.ueAddr
  | _ =>
    if 0x200 ≤ o ∧ o < 0x258 then vget s.hall.prio ((o - 0x200) / 8) id
    else if 0x3100 ≤ o ∧ o < 0x3140 then
      vget s.wings ((o - 0x3100) / 16) fun w => if o % 16 = 0 then w.cellar else w.cellarUsed
    else 0

/-! ### Tenancy (0x4100_0000, R207) -/

/-- TEN_t. -/
def Tenant.reg (t : Tenant) : Word :=
  at_ (b2n t.isOpen) 0 ||| at_ t.port.val 1 ||| at_ t.share.toNat 4 ||| at_ (b2n t.evicting) 12 ||| at_ t.roomViol.toNat 16
    ||| at_ t.openSeq.toNat 32

/-- ROOM_t_k, word 0 and word 1. -/
def Room.word0 (r : Room) : Word := at_ r.perm.toNat 0 ||| at_ (b2n r.valid) 5 ||| at_ r.base.toNat 12
def Room.word1 (r : Room) : Word := at_ 0xFFF 0 ||| at_ r.limit.toNat 12 ||| at_ r.guest.toNat 48 ||| at_ (b2n r.guestEn) 54

/-- STRM_s, word 0. -/
def Stream.word0 (st : Stream) : Word :=
  at_ st.tenant.val 0 ||| at_ (b2n st.isOpen) 6 ||| at_ st.cls.toNat 7 ||| at_ st.qos.toNat 9 ||| at_ (b2n st.align) 13
    ||| at_ (b2n st.abort) 14 ||| at_ (b2n st.loc) 15 ||| at_ st.logSize.toNat 16 ||| at_ st.vector.toNat 20
    ||| at_ st.stateCode 27 ||| at_ (b2n st.doorbellBad) 30 ||| at_ st.head.toNat 32

/-- A word of STRM_s. -/
def Stream.reg (st : Stream) (k : Nat) : Word :=
  match k with
  | 0 => st.word0
  | 1 => st.ringBase
  | 2 => st.complBase
  | 3 => st.relayNext
  | _ => 0

/-- LEASE_n, word 0. -/
def Lease.reg (l : Lease) : Word :=
  at_ l.kind.toNat 0 ||| at_ (b2n l.valid) 2 ||| at_ l.tenant.val 3 ||| at_ l.engine.val 9 ||| at_ l.firstPage.toNat 13
    ||| at_ l.pages.toNat 20 ||| at_ (b2n l.spilled) 25 ||| at_ l.slot.toNat 26

/-- BOLT_b. -/
def Bolt.reg (b : Bolt) : Word :=
  at_ b.count.toNat 0 ||| at_ (b2n b.ovf) 32 ||| at_ b.owner.val 33 ||| at_ (b2n b.alloc) 39 ||| at_ b.fifo.length 40

/-- A word of MB_p. -/
def Mailbox.reg (m : Mailbox) (o : Nat) : Word :=
  if o < 0x40 then vget m.req (o / 8) id
  else if o = 0x40 then m.go
  else if o = 0x48 then at_ (b2n m.busy) 0 ||| at_ (b2n m.collide) 1 ||| at_ m.doneSeq.toNat 32
  else if 0x80 ≤ o ∧ o < 0xC0 then vget m.rsp ((o - 0x80) / 8) id
  else 0

/-- Tenancy registers at an offset of 0x4100_0000. -/
def State.tenRead (s : State) (o : Nat) : Word :=
  if o = 0 then s.ten.schedCtl
  else if 0x100 ≤ o ∧ o < 0x120 then vget s.ten.save ((o - 0x100) / 8) id
  else if 0x1000 ≤ o ∧ o < 0x1028 then vget s.ten.quota ((o - 0x1000) / 8) id
  else if 0x1040 ≤ o ∧ o < 0x1068 then
    let p := (o - 0x1040) / 8
    vget s.ten.portViol p (fun v => at_ v.toNat 0) ||| vget s.ten.portDiscard p fun d => at_ d.toNat 16
  else if o = 0x1080 then s.ten.pend.zeroExtend 64
  else if 0x1088 ≤ o ∧ o < 0x10B0 then vget s.ten.decide ((o - 0x1088) / 8) fun b => at_ (b2n b) 0
  else if 0x10000 ≤ o ∧ o < 0x10800 then (if o % 0x20 = 0 then vget s.ten.tenants ((o - 0x10000) / 0x20) Tenant.reg else 0)
  else if 0x20000 ≤ o ∧ o < 0x24000 then
    vget s.ten.tenants ((o - 0x20000) / 0x100) fun t =>
      vget t.rooms (o % 0x100 / 16) fun r => if o % 16 = 0 then r.word0 else r.word1
  else if 0x40000 ≤ o ∧ o < 0x48000 then vget s.ten.streams ((o - 0x40000) / 0x40) fun st => st.reg (o % 0x40 / 8)
  else if 0x80000 ≤ o ∧ o < 0x82000 then
    vget s.ten.leases ((o - 0x80000) / 16) fun l => if o % 16 = 0 then l.reg else l.emask.zeroExtend 64
  else if 0x100000 ≤ o ∧ o < 0x300000 then
    vget s.ten.streams ((o - 0x100000) / 0x1000) fun st =>
      if o % 0x1000 = 0 then st.tailReg.zeroExtend 64 else if o % 0x1000 = 8 then st.ctl.zeroExtend 64 else 0
  else if 0x400000 ≤ o ∧ o < 0x408000 then vget s.ten.bolts ((o - 0x400000) / 8) Bolt.reg
  else if 0x500000 ≤ o ∧ o < 0x505000 then vget s.ten.mbs ((o - 0x500000) / 0x1000) fun m => m.reg (o % 0x1000)
  else 0

/-! ### WING_w (0x4200_0000) -/

/-- HBM_STAT (R51). -/
def Wing.hbmStat (w : Wing) : Word :=
  at_ (b2n w.trained) 0 ||| at_ (b2n w.selfRefresh) 1 ||| at_ (b2n w.trainFail) 2 ||| at_ (b2n w.hot) 3 ||| at_ w.temp.toNat 8

/-- A word of DET_k. -/
def DetWin.reg (d : DetWin) (o : Nat) : Word :=
  match o with
  | 0 => d.base
  | 8 => d.limit
  | 0x10 => d.shadow
  | _ => d.ctl ||| at_ (b2n d.initDone) 4

/-- A word of a ring: BASE and LOG2SIZE, WRITE, READ (R276). -/
def Ring.reg (r : Ring) (o : Nat) : Word :=
  match o with
  | 8 => r.cfg
  | 0x10 => r.write.zeroExtend 64
  | 0x18 => r.read.zeroExtend 64
  | _ => 0

/-- A word of WP_i. -/
def Watch.reg (p : Watch) (o : Nat) : Word :=
  match o with
  | 0 => p.base
  | 8 => p.limit
  | 0x10 => p.ctl
  | _ => p.hits.zeroExtend 64

/-- LINK_STAT (R353, R357). -/
def State.linkStat (s : State) (w : WingIx) : Word :=
  let l := (s.wing w).links
  at_ (b2n l[0].down) 0 ||| at_ (b2n l[1].down) 1 ||| at_ (b2n l[2].down) 2 ||| at_ (b2n (l[3].down || s.hall.toWing[w.val].down)) 3

/-- Registers of a wing at an offset of its block. -/
def State.wingRead (s : State) (w : WingIx) (o : Nat) : Word :=
  let x := s.wing w
  match o with
  | 0x100 => x.arbMode
  | 0x1000 => x.pinLo
  | 0x1008 => x.pinHi
  | 0x1010 => x.hbmStat
  | 0x1018 => x.eccCnt
  | 0x1020 => x.ueAddr
  | 0x1028 => x.scrub
  | 0x1200 => s.linkStat w
  | 0x2000 => at_ (b2n x.dig) 0 ||| at_ x.watchPend.toNat 16
  | 0x4000 => x.pwr ||| at_ x.pwrState.toNat 32
  | 0x4008 => x.sleepBase
  | _ =>
    if 0x200 ≤ o ∧ o < 0x238 then vget x.prio ((o - 0x200) / 8) id
    else if 0x1100 ≤ o ∧ o < 0x1180 then vget x.det ((o - 0x1100) / 32) fun d => d.reg (o % 32)
    else if 0x2008 ≤ o ∧ o < 0x2020 then x.digRing.reg (o - 0x2000)
    else if 0x2100 ≤ o ∧ o < 0x2300 then vget x.wp ((o - 0x2100) / 32) fun p => p.reg (o % 32)
    else if 0x3000 ≤ o ∧ o < 0x3060 then vget x.counters ((o - 0x3000) / 8) fun c => c.zeroExtend 64
    else 0

/-! ### Engine e (0x4400_0000) -/

/-- GSTAT (R71). -/
def Glove.gstat (g : Glove) : Word :=
  at_ g.state.toNat 0 ||| at_ (b2n g.pinned) 3 ||| at_ (b2n g.armed) 4 ||| at_ (min 4 g.inflight.length) 5 ||| at_ g.trow.toNat 8
    ||| at_ g.tvalid.toNat 16 ||| at_ g.avalid.toNat 32 ||| at_ g.tenant.val 36 ||| at_ (min 64 g.ids) 42

/-- SWAP (R71). -/
def Glove.swapReg (g : Glove) : Word := at_ g.lastSave.toNat 0 ||| at_ g.lastRestore.toNat 16 ||| at_ g.swaps.toNat 32

/-- IDLE of a glove's watchdog, in µs (R280, R290). -/
def State.idleUs (s : State) (gl : GloveRef) : Nat :=
  if s.idleRuns gl then min (2 ^ 20 - 1) ((s.now - (s.glv gl).progressAt.toNat) / 1000) else 0

/-- HANG (R290). -/
def HangS.reg (h : HangS) : Word :=
  at_ (b2n h.frozen) 0 ||| at_ h.dump.toNat 1 ||| at_ (b2n h.noSlot) 3 ||| at_ h.slot.toNat 4 ||| at_ h.action.toNat 10
    ||| at_ h.freezes.toNat 32

/-- A register of a glove at an offset of its 64-byte group. -/
def State.gloveReg (s : State) (gl : GloveRef) (o : Nat) : Word :=
  let g := s.glv gl
  match o with
  | 0x00 => g.gstat
  | 0x08 => g.pc.zeroExtend 64
  | 0x10 => g.swapReg
  | 0x18 => g.gfault
  | 0x20 => at_ g.wdogLimit.toNat 0 ||| at_ (s.idleUs gl) 20
  | 0x28 => g.hang.reg
  | _ => 0

/-- TICK_STAT, TICK_CNT, TICK_BOUND and TICK_LAT (R229). With no lease armed nothing is bound, and TICK_STAT reads zero (log 30). -/
def TickS.reg (t : TickS) (o : Nat) : Word :=
  match o with
  | 0x00 => if t.armed then at_ 1 0 ||| at_ t.pin.val 1 ||| at_ (b2n t.spilled) 3 ||| at_ (b2n t.sealEn) 4 ||| at_ (b2n t.skip) 5
      ||| at_ t.chains.toNat 6 ||| at_ t.expect.toNat 32 else 0
  | 0x08 => at_ t.overruns.toNat 0 ||| at_ t.staleCnt.toNat 16 ||| at_ t.skips.toNat 32 ||| at_ t.faults.toNat 44
      ||| at_ t.voids.toNat 52
  | 0x10 => t.bound.zeroExtend 64
  | 0x18 => at_ t.lastNs.toNat 0 ||| at_ t.maxNs.toNat 32
  | _ => 0

/-- ENG_e_PWR (R317). -/
def Engine.pwrReg (x : Engine) : Word :=
  x.pwr ||| at_ (if x.waking then 4 else x.pwrState.toNat) 48 ||| at_ x.step.toNat 51

/-- Registers of an engine at an offset of its block. -/
def State.engRead (s : State) (e : EngIx) (o : Nat) : Word :=
  let x := s.eng e
  if 0x1000 ≤ o ∧ o < 0x1100 then s.gloveReg ⟨e, ⟨o / 0x40 % 4, by omega⟩⟩ (o % 0x40)
  else if 0x2000 ≤ o ∧ o < 0x2020 then x.tick.reg (o - 0x2000)
  else if 0x3000 ≤ o ∧ o < 0x30A8 then vget x.counters ((o - 0x3000) / 8) fun c => c.zeroExtend 64
  else if o = 0x4000 then x.pwrReg else 0

/-! ### Hearth (0x4800_0000) -/

/-- A word of TPIN_n (R211). -/
def TPin.reg (p : TPin) (o : Nat) : Word :=
  match o with
  | 0x00 => p.ctl
  | 0x08 => at_ (min 16 p.fifo.length) 0 ||| at_ (b2n p.ovf) 5 ||| at_ (b2n p.fast) 6 ||| at_ p.lost.toNat 16 ||| at_ p.edges.toNat 32
  | 0x10 => p.last
  | _ => p.interval.zeroExtend 64

/-- A word of a black-box entry (R354). -/
def BBEnt.reg (b : BBEnt) (o : Nat) : Word :=
  match o with
  | 0x00 => b.time
  | 0x08 => at_ b.seq.toNat 0 ||| at_ b.code.toNat 32 ||| at_ b.scope.toNat 40 ||| at_ b.unit.toNat 48 ||| at_ b.tenant.toNat 56
  | 0x10 => at_ b.count.toNat 0 ||| at_ b.cause.toNat 16
  | _ => b.info

/-- A word of a wake entry (R304). -/
def WakeEnt.reg (w : WakeEnt) (o : Nat) : Word :=
  match o with
  | 0x00 => w.due
  | 0x08 => w.ctl
  | 0x10 => w.period
  | _ => 0

/-- Registers of the hearth at an offset of 0x4800_0000. -/
def State.hearthRead (s : State) (o : Nat) : Word :=
  let h := s.hearth
  match o with
  | 0x00 => h.time
  | 0x08 => at_ h.last.toNat 0 ||| at_ (b2n h.tripped) 4 ||| at_ h.warms.toNat 32
  | 0x10 => at_ h.devTarget.toNat 0 ||| at_ h.devState.toNat 2 ||| at_ (b2n h.refused) 4
      ||| at_ (if h.devState = 1 then h.toward.toNat else 0) 5
  | 0x18 => h.rstCtl
  | 0x20 => h.govCtl
  | 0x28 => at_ h.power.toNat 0 ||| at_ h.step.toNat 16 ||| at_ s.armedCount 18 ||| at_ (b2n h.overPower) 23
  | 0x30 => h.thermCtl
  | 0x38 => at_ h.tj.toNat 0 ||| at_ (b2n h.warn) 8 ||| at_ (b2n h.emerg) 9
  | 0x40 => at_ h.bbHead.toNat 0 ||| at_ h.bbSeq.toNat 32
  | 0x48 => h.railStat.zeroExtend 64
  | 0x280 => h.syncCtl
  | _ =>
    if 0x200 ≤ o ∧ o < 0x280 then vget h.tpin ((o - 0x200) / 32) fun p => p.reg (o % 32)
    else if 0x800 ≤ o ∧ o < 0x1000 then vget h.bb ((o - 0x800) / 32) fun b => b.reg (o % 32)
    else if 0x1000 ≤ o ∧ o < 0x1800 then vget h.wake ((o - 0x1000) / 32) fun w => w.reg (o % 32)
    else 0

/-! ### Observation (0x4900_0000, R276) -/

/-- Registers of the observation block at an offset of 0x4900_0000. -/
def State.obsRead (s : State) (o : Nat) : Word :=
  if o = 0 then s.obs.ctl
  else if o = 8 then at_ s.obs.tokens 0
  else if 0x100 ≤ o ∧ o < 0x540 then
    let c : Fin 17 := toFin 17 (by omega) ((o - 0x100) / 0x40)
    let t := s.obs.tch[c.val]
    match o % 0x40 with
    | 0x00 => t.ctl
    | 0x20 => at_ t.lost.toNat 0 ||| at_ (s.attic c).length 32
    | k => if k < 0x20 then t.ring.reg k else 0
  else if 0x800 ≤ o ∧ o < 0xC00 then
    vget s.obs.samp ((o - 0x800) / 0x100) fun x =>
      let k := o % 0x100
      if k = 0 then x.period.zeroExtend 64
      else if k < 0x20 then x.ring.reg k
      else if k < 0x90 then vget x.sel ((k - 0x20) / 8) id else 0
  else if 0x2000 ≤ o ∧ o < 0x2038 then vget s.obs.counters ((o - 0x2000) / 8) fun c => c.zeroExtend 64
  else 0

/-! ### Host port p (0x4A00_0000, R332) -/

/-- PORT_LINK. -/
def State.portLinkReg (s : State) (p : PortIx) : Word :=
  let x := s.port p
  let st := if x.d3hot && x.lstate != 0 then 6 else x.lstate.toNat
  at_ x.speed.toNat 0 ||| at_ x.width.toNat 4 ||| at_ st 7 ||| at_ (b2n (s.l1Held p)) 10 ||| at_ (b2n x.perst) 11

/-- The page of a port at an offset. -/
def State.portRead (s : State) (p : PortIx) (o : Nat) : Word :=
  let x := s.port p
  match o with
  | 0x00 => s.portLinkReg p
  | 0x08 => x.l1Idle.zeroExtend 64
  | 0x10 => at_ x.linkDowns.toNat 0 ||| at_ x.cplTimeouts.toNat 16 ||| at_ x.inboundRej.toNat 32
  | 0x18 => x.evt.zeroExtend 64
  | _ =>
    if 0x8000 ≤ o ∧ o < 0x9000 then
      (s.cfgRead p (o - 0x8000)).zeroExtend 64 ||| ((s.cfgRead p (o - 0x8000 + 4)).zeroExtend 64 <<< 32)
    else if 0x10000 ≤ o ∧ o < 0x10800 then x.msixRead (o - 0x10000)
    else if o = 0x18000 then x.pba.truncate 64
    else if o = 0x18008 then (x.pba >>> 64).truncate 64
    else 0

/-! ### Core control, UART, flash, fuses -/

/-- Core control at an offset of 0x4B80_0000 (R261). -/
def State.coreRead (s : State) (o : Nat) : Word :=
  let c := s.cores
  match o with
  | 0x00 => at_ c.run.toNat 0 ||| at_ (b2n c.loadGo) 4 ||| at_ c.coreReset.toNat 5
  | 0x08 => c.bootEntry
  | 0x10 => at_ c.bootCode.toNat 0 ||| at_ (b2n c.bootCopy) 8 ||| at_ s.hearth.bootSrc.toNat 9 ||| at_ c.bootSvn.toNat 32
  | 0x18 => c.win
  | _ => 0

/-- UART at an offset of 0x4B90_0000 (R336). -/
def Cores.uartRead (c : Cores) (o : Nat) : Word :=
  match o with
  | 0x00 => ((c.uartRx.head?).getD 0).zeroExtend 64
  | 0x08 => c.uartCtl
  | 0x10 => at_ c.uartRx.length 0 ||| at_ (min 64 c.uartTx.length) 8 ||| at_ (b2n c.uartOverrun) 15
  | _ => 0

/-- Flash at an offset of 0x4BA0_0000 (R333). -/
def Cores.flashRead (c : Cores) (o : Nat) : Word :=
  match o with
  | 0x00 => c.flashCmd ||| at_ (b2n c.flashBusy) 27
  | 0x08 => c.flashAddr.zeroExtend 64
  | _ =>
    if 0x100 ≤ o ∧ o < 0x200 then BitVec.ofNat 64 (ofBytes ((c.flashData.toList.drop (o - 0x100)).take 8)) else 0

/-- Fuses and identity at an offset of 0x4C00_0000 (R340). -/
def fuseRead (o : Nat) : Word :=
  if o < 0x50 then keep (Config.fuseWord o) (if o % 16 = 0 then 0xFF1FFFFFFFFFFFFF else 0xFFFF)
  else match o with
    | 0x100 => keep (Config.fuseWord o) 0xFFFFFFFFFFFF
    | 0x108 => keep (Config.fuseWord o) 0xFFFF ||| 0xA10000
    | 0x200 | 0x208 | 0x210 | 0x218 => Config.fuseWord o
    | 0x220 => keep (Config.fuseWord o) 0x1FFFF
    | _ => 0

/-- PLIC: two 32-bit registers in a word. -/
def State.plicWord (s : State) (o : Nat) : Word := at_ (s.plicRead o) 0 ||| at_ (s.plicRead (o + 4)) 32

/-! ### Every register -/

/-- The register block that an address lies in (R359). -/
inductive Blk
  | hall (o : Nat)
  | ten (o : Nat)
  | wing (w : WingIx) (o : Nat)
  | eng (e : EngIx) (o : Nat)
  | hearth (o : Nat)
  | obs (o : Nat)
  | port (p : PortIx) (o : Nat)
  | plic (o : Nat)
  | aclint (o : Nat)
  | core (o : Nat)
  | uart (o : Nat)
  | flash (o : Nat)
  | fuse (o : Nat)
  | none
  deriving DecidableEq, Repr

/-- The block and offset of a register address. -/
def blkOf (a : Nat) : Blk :=
  if !(decide (0x40000000 ≤ a) && decide (a < 0x4D000000) && regDecoded a) then .none
  else if a < 0x41000000 then .hall (a - 0x40000000)
  else if a < 0x42000000 then .ten (a - 0x41000000)
  else if a < 0x44000000 then .wing (wingNo (a / 0x100000 % 16)) (a % 0x100000)
  else if a < 0x48000000 then .eng ⟨a / 0x100000 % 16, by omega⟩ (a % 0x100000)
  else if a < 0x49000000 then .hearth (a - 0x48000000)
  else if a < 0x4A000000 then .obs (a - 0x49000000)
  else if a < 0x4B000000 then .port (wingNo (a / 0x100000 % 16)) (a % 0x100000)
  else if a < 0x4B400000 then .plic (a - 0x4B000000)
  else if a < 0x4B800000 then .aclint (a - 0x4B400000)
  else if a < 0x4B900000 then .core (a - 0x4B800000)
  else if a < 0x4BA00000 then .uart (a - 0x4B900000)
  else if a < 0x4C000000 then .flash (a - 0x4BA00000)
  else .fuse (a - 0x4C000000)

/-- The word that a register address holds; zero where none lies. -/
def State.regRead (s : State) (a : Nat) : Word :=
  match blkOf (a / 8 * 8) with
  | .hall o => s.hallRead o
  | .ten o => s.tenRead o
  | .wing w o => s.wingRead w o
  | .eng e o => s.engRead e o
  | .hearth o => s.hearthRead o
  | .obs o => s.obsRead o
  | .port p o => s.portRead p o
  | .plic o => s.plicWord o
  | .aclint o => s.aclintRead o
  | .core o => s.coreRead o
  | .uart o => s.cores.uartRead o
  | .flash o => s.cores.flashRead o
  | .fuse o => fuseRead o
  | .none => 0

end Sys2Proof.Machine
end

