-- ==== Sys2Proof/Machine/RegWrite.lean ====
section
/-!
DEFINITION. Writes of registers (R4, R180, R195, R324, R359, R387) and the reads that change state (R3, R13): REGISTER_WRITE and
MGR_EVQ_READ. A write carries the bits that its byte enables select.
-/
namespace Sys2Proof.Machine

/-- The RW bits `m` of a register take the written value. -/
def wr (m old mask v : Word) : Word := (old &&& ~~~(m &&& mask)) ||| (v &&& m &&& mask)

/-- Bits of W1C that a write clears. -/
def w1c {n : Nat} (old : BitVec n) (mask v : Word) (lo : Nat) : BitVec n := old &&& ~~~(((v &&& mask) >>> lo).setWidth n)

/-- Whether a write of 1 reaches a bit. -/
def hit (mask v : Word) (i : Nat) : Bool := bitAt (v &&& mask) i

/-! ### Writes of the manager, by block: none where no writable register lies -/

/-- Hall global registers. -/
def State.hallWrite (s : State) (o : Nat) (mask v : Word) : Option State :=
  match o with
  | 0x100 => some (if bitAt mask 0 then s.remapWrite v else s)
  | 0x108 => some (s.modHall fun h => { h with arbMode := wr 0x7FF h.arbMode mask v })
  | 0x3000 => some (s.modObs fun x => { x with censusCtl := wr 0x1F x.censusCtl mask v })
  | 0x4000 | 0x4020 => some s
  | 0x4008 => some (s.modFlt fun f => { f with sumLo := w1c f.sumLo mask v 0 })
  | 0x4010 => some (s.modFlt fun f => { f with sumHi := w1c f.sumHi mask v 0 })
  | 0x4018 => some (s.modFlt fun f => { f with errRoute := (wr 0x1F (f.errRoute.zeroExtend 64) mask v).truncate 5 })
  | 0x4028 => some (s.modHall fun h => { h with ueAddr := h.ueAddr &&& ~~~(v &&& mask &&& 0x8000000000000000) })
  | _ =>
    if 0x200 ≤ o ∧ o < 0x258 then
      some (s.modHall fun h => { h with prio := vmod h.prio (toFin 11 (by omega) ((o - 0x200) / 8)) fun x => wr 0xFFFFFFFFFFFF x mask v })
    else if 0x3100 ≤ o ∧ o < 0x3140 then
      some (s.modWing (wingNo ((o - 0x3100) / 16)) fun w =>
        if o % 16 = 0 then { w with cellar := wr 0x7FFFFFFFFFFFFF w.cellar mask v } else { w with cellarUsed := w1c w.cellarUsed mask v 0 })
    else none

/-- Tenancy registers that the manager writes (R207). -/
def State.tenWrite (s : State) (o : Nat) (mask v : Word) : Option State :=
  if o = 0 then some (s.modTen fun t => { t with schedCtl := wr 0xFFFFFFFFFF t.schedCtl mask v })
  else if 0x100 ≤ o ∧ o < 0x120 then
    some (s.modTen fun t => { t with save := vmod t.save (wingNo ((o - 0x100) / 8)) fun x => wr 0x7FFFFFFFFFFFFF x mask v })
  else if 0x1000 ≤ o ∧ o < 0x1028 then
    some (s.modTen fun t => { t with quota := vmod t.quota (toFin 5 (by omega) ((o - 0x1000) / 8)) fun x => wr 0xFFFFFFFFFFFFFFF x mask v })
  else if 0x1088 ≤ o ∧ o < 0x10B0 then
    some (if bitAt mask 0 then s.decideMb (toFin 5 (by omega) ((o - 0x1088) / 8)) (bitAt v 0) else s)
  else none

/-- A word of DET_k (R46, R47, R51): while EN is 1, BASE, LIMIT, SHADOW and TYPE do not change. -/
def DetWin.write (d : DetWin) (o : Nat) (mask v : Word) : DetWin :=
  let en := bitAt d.ctl 0
  let adr (x : Word) : Word := if en then x else wr 0xFFFFFFFFFFFF x mask v
  match o with
  | 0 => { d with base := adr d.base }
  | 8 => { d with limit := adr d.limit }
  | 0x10 => { d with shadow := adr d.shadow }
  | _ => { d with ctl := wr (if en then 0x9 else 0xF) d.ctl mask v }

/-- A word of WP_i. -/
def Watch.write (p : Watch) (o : Nat) (mask v : Word) : Watch :=
  match o with
  | 0 => { p with base := wr 0xFFFFFFFFFFFF p.base mask v }
  | 8 => { p with limit := wr 0xFFFFFFFFFFFF p.limit mask v }
  | 0x10 => { p with ctl := wr 0xFFFFFFFF p.ctl mask v }
  | _ => p

/-- A word of a ring (R276). -/
def Ring.regWrite (r : Ring) (o : Nat) (mask v : Word) : Ring :=
  match o with
  | 8 => { r with cfg := wr 0x1FFFFFFFFFFFFF r.cfg mask v }
  | 0x18 => { r with read := (wr 0xFFFFFFFF (r.read.zeroExtend 64) mask v).truncate 32 }
  | _ => r

/-- Registers of a wing. -/
def State.wingWrite (s : State) (w : WingIx) (o : Nat) (mask v : Word) : Option State :=
  let f (g : Wing → Wing) : Option State := some (s.modWing w g)
  match o with
  | 0x100 => f fun x => { x with arbMode := wr 0x7F x.arbMode mask v }
  | 0x1018 => some s
  | 0x1020 => f fun x => { x with ueAddr := x.ueAddr &&& ~~~(v &&& mask &&& 0x8000000000000000) }
  | 0x1028 => f fun x => { x with scrub := wr 0xFFFF x.scrub mask v }
  | 0x2000 => f fun x => { x with dig := if bitAt mask 0 then bitAt v 0 else x.dig, watchPend := w1c x.watchPend mask v 16 }
  | 0x4000 => f fun x => { x with pwr := wr 0xFFFF0001 x.pwr mask v }
  | 0x4008 => f fun x => { x with sleepBase := wr 0xFFFFFFFFFFFF x.sleepBase mask v }
  | _ =>
    if 0x200 ≤ o ∧ o < 0x238 then
      f fun x => { x with prio := vmod x.prio (toFin 7 (by omega) ((o - 0x200) / 8)) fun p => wr 0xFFFFFF p mask v }
    else if 0x1100 ≤ o ∧ o < 0x1180 then
      let k := wingNo ((o - 0x1100) / 32)
      let t := s.modWing w fun x => { x with det := vmod x.det k fun d => d.write (o % 32) mask v }
      some (if o % 32 = 0x18 ∧ hit mask v 3 then t.detInit w k else t)
    else if 0x2008 ≤ o ∧ o < 0x2020 then f fun x => { x with digRing := x.digRing.regWrite (o - 0x2000) mask v }
    else if 0x2100 ≤ o ∧ o < 0x2300 then
      f fun x => { x with wp := vmod x.wp (toFin 16 (by omega) ((o - 0x2100) / 32)) fun p => p.write (o % 32) mask v }
    else none

/-- ACTION of HANG (R286). -/
def State.writeAction (s : State) (gl : GloveRef) (mask v : Word) : State :=
  match fld (v &&& mask) 11 10 with
  | 1 => if s.hangOpen gl then (s.setAction gl 1).hangResume gl else s
  | 2 => if s.hangOpen gl then (s.setAction gl 2).hangAbort gl else s
  | _ => s

/-- ENG_e_PWR: an engine that lies deeper than DEEPEST allows wakes; RESET resets it. -/
def State.writeEngPwr (s : State) (e : EngIx) (mask v : Word) : State :=
  let t := s.modEng e fun x => { x with pwr := wr 0x20FFFFFFFFFF0F x.pwr mask v }
  let u := if (t.eng e).deepest < (t.eng e).pwrState.toNat then t.engineWake e else t
  if hit mask v 53 then (u.resetEngine e).leaseSweep else u

/-- Registers of an engine. -/
def State.engWrite (s : State) (e : EngIx) (o : Nat) (mask v : Word) : Option State :=
  let gl : GloveRef := ⟨e, ⟨o / 0x40 % 4, by omega⟩⟩
  if 0x1000 ≤ o ∧ o < 0x1100 then
    match o % 0x40 with
    | 0x20 => some (s.modGlv gl fun g =>
        { g with wdogLimit := (wr 0xFFFFF (g.wdogLimit.zeroExtend 64) mask v).truncate 20 })
    | 0x28 => some (s.writeAction gl mask v)
    | _ => none
  else if o = 0x4000 then some (s.writeEngPwr e mask v) else none

/-- RST_CTL (R312, R313, R317): a KICK, then a WARM. -/
def State.writeRst (s : State) (mask v : Word) : State :=
  let t := s.modHearth fun h => { h with rstCtl := wr 0xFFFF0007 h.rstCtl mask v }
  let u := if hit mask v 2 then t.kick else t
  if hit mask v 0 then u.warmReset 4 else u

/-- TARGET of DEV_PWR (R300, R301); 3 names no state. -/
def State.writeTarget (s : State) (mask v : Word) : State :=
  if !(bitAt mask 0 && bitAt mask 1) then s
  else match fld v 1 0 with
    | 0 => s.devActive
    | 1 => s.devStandby
    | 2 => s.devOff
    | _ => s.modHearth fun h => { h with devTarget := 3 }

/-- A word of a wake entry: the manager's entries only (R304). -/
def WakeEnt.write (w : WakeEnt) (o : Nat) (mask v : Word) : WakeEnt :=
  match o with
  | 0x00 => { w with due := wr 0xFFFFFFFFFFFFFFFF w.due mask v }
  | 0x08 => { w with ctl := wr 0xFFFFFFFFFF w.ctl mask v }
  | 0x10 => { w with period := wr 0xFFFFFFFFFFFFFFFF w.period mask v }
  | _ => w

/-- SYNC_OUT_CTL (R212): a change of MODE ends a pulse that runs (log 51). -/
def State.writeSync (s : State) (mask v : Word) : State :=
  s.modHearth fun h =>
    let c := wr 0xFFFFFFFFFF h.syncCtl mask v
    { h with syncCtl := c, syncUntil := if fld c 1 0 = fld h.syncCtl 1 0 then h.syncUntil else 0 }

/-- TPIN_n_CTL (R211): PERIOD settles at once which leases have a wake entry (R223). -/
def State.writePinCtl (s : State) (n : Fin 4) (mask v : Word) : State :=
  (s.armedOn n).foldl (State.fixWake s) (s.modPin n fun p => { p with ctl := wr 0xFFFFFFFFFF3F p.ctl mask v })

/-- Registers of the hearth. -/
def State.hearthWrite (s : State) (o : Nat) (mask v : Word) : Option State :=
  let f (g : Hearth → Hearth) : Option State := some (s.modHearth g)
  match o with
  | 0x08 => f fun h => { h with tripped := h.tripped && !hit mask v 4 }
  | 0x10 => some (s.writeTarget mask v)
  | 0x18 => some (s.writeRst mask v)
  | 0x20 => f fun h => { h with govCtl := wr 0x37F h.govCtl mask v }
  | 0x30 => f fun h => { h with thermCtl := wr 0xFFFF h.thermCtl mask v }
  | 0x48 => f fun h => { h with railStat := w1c h.railStat mask v 0 }
  | 0x280 => some (s.writeSync mask v)
  | _ =>
    if 0x200 ≤ o ∧ o < 0x280 then
      let n := wingNo ((o - 0x200) / 32)
      match o % 32 with
      | 0x00 => some (s.writePinCtl n mask v)
      | 0x08 => some (s.modPin n fun p => { p with ovf := p.ovf && !hit mask v 5, fast := p.fast && !hit mask v 6 })
      | _ => none
    else if 0x1000 ≤ o ∧ o < 0x1600 then
      f fun h => { h with wake := vmod h.wake (toFin 64 (by omega) ((o - 0x1000) / 32)) fun w => w.write (o % 32) mask v }
    else none

/-- A write of PERIOD starts a sampler ring's count again (R271). -/
def Samp.writePeriod (x : Samp) (now : Nat) (mask v : Word) : Samp :=
  { x with period := (wr 0xFFFF (x.period.zeroExtend 64) mask v).truncate 16, seq := 0, lastDue := now }

/-- Registers of the observation block. -/
def State.obsWrite (s : State) (o : Nat) (mask v : Word) : Option State :=
  if o = 0 then
    let t := s.modObs fun x => { x with ctl := wr 0x71F x.ctl mask v }
    some (if hit mask v 9 then t.clearCounters else t)
  else if 0x100 ≤ o ∧ o < 0x540 then
    let c : Fin 17 := toFin 17 (by omega) ((o - 0x100) / 0x40)
    let k := o % 0x40
    if k = 0 then
      let t := s.modTch c fun x => { x with ctl := wr 0x1FFF x.ctl mask v }
      some (if hit mask v 5 then t.flushChan c else t)
    else if k < 0x20 then some (s.modTch c fun x => { x with ring := x.ring.regWrite k mask v }) else none
  else if 0x800 ≤ o ∧ o < 0xC00 then
    let i := wingNo ((o - 0x800) / 0x100)
    let k := o % 0x100
    let f (g : Samp → Samp) : Option State := some (s.modObs fun x => { x with samp := vmod x.samp i g })
    if k = 0 then (if fld mask 15 0 = 0 then some s else f fun x => x.writePeriod s.now mask v)
    else if k < 0x20 then f fun x => { x with ring := x.ring.regWrite k mask v }
    else if k < 0x90 then f fun x => { x with sel := vmod x.sel (toFin 14 (by omega) ((k - 0x20) / 8)) fun w => wr 0x8FFF w mask v }
    else none
  else none

/-- The page of a port (R327, R332, R357): its port and the manager write it. -/
def State.portWrite (s : State) (p : PortIx) (o : Nat) (mask v : Word) : Option State :=
  match o with
  | 0x08 => some (s.modPort p fun x => { x with l1Idle := (wr 0xFFFF (x.l1Idle.zeroExtend 64) mask v).truncate 16 })
  | 0x18 => some (s.modPort p fun x => { x with evt := w1c x.evt mask v 0 })
  | _ => if 0x10000 ≤ o ∧ o < 0x10800 then some (s.modPort p fun x => x.msixWrite (o - 0x10000) mask v) else none

/-- CORE_CTL (R261): RUN and CORE_RESET by those that may name a hart, LOAD_GO by the manager. -/
def State.writeCoreCtl (s : State) (w : Writer) (mask v : Word) : State :=
  if !s.coreWriter w then s.refuseWrite w
  else
    let m (lo : Nat) : BitVec 4 := BitVec.ofNat 4 (fld mask (lo + 3) lo)
    let b (lo : Nat) : BitVec 4 := BitVec.ofNat 4 (fld v (lo + 3) lo)
    let s1 := s.writeRun w ((s.cores.run &&& ~~~(m 0)) ||| (b 0 &&& m 0))
    let s2 := s1.writeCoreReset w (b 5 &&& m 5)
    let s3 := s2.modCores fun c => { c with coreReset := (c.coreReset &&& ~~~(m 5)) ||| (b 5 &&& m 5) }
    if s.isManager w then
      if hit mask v 4 then s3.startLoad
      else if bitAt mask 4 then s3.modCores fun c => { c with loadGo := false } else s3
    else if hit mask v 4 then s3.refuseWrite w else s3

/-- Core control: CORE_CTL, and the registers of the manager (R261). -/
def State.coreWrite (s : State) (w : Writer) (o : Nat) (mask v : Word) : State :=
  match o with
  | 0x00 => s.writeCoreCtl w mask v
  | 0x08 => s.asManager w fun s => s.modCores fun c => { c with bootEntry := wr 0xFFFFFFFFFFFF c.bootEntry mask v }
  | 0x18 => s.asManager w fun s => s.modCores fun c => { c with win := wr 0xFFFFFF000 c.win mask v }
  | _ => s

/-- UART (R336). -/
def Cores.uartWrite (c : Cores) (o : Nat) (mask v : Word) : Cores :=
  match o with
  | 0x00 => if bitAt mask 0 then c.uartPush (v.truncate 8) else c
  | 0x08 => { c with uartCtl := wr 0x3FFFF c.uartCtl mask v }
  | 0x10 => { c with uartOverrun := c.uartOverrun && !hit mask v 15 }
  | _ => c

/-- Flash (R333): GO starts a command; while BUSY it is ignored. -/
def State.flashWrite (s : State) (o : Nat) (mask v : Word) : State :=
  match o with
  | 0x00 =>
    let t := s.modCores fun c => { c with flashCmd := wr 0x7FFFFFF c.flashCmd mask v }
    if hit mask v 26 then t.flashStart else t
  | 0x08 => s.modCores fun c => { c with flashAddr := (wr 0xFFFFFFFF (c.flashAddr.zeroExtend 64) mask v).truncate 32 }
  | _ =>
    if 0x100 ≤ o ∧ o < 0x200 then
      s.modCores fun c => { c with flashData := c.flashData.mapFinIdx fun i b _ =>
        let j := 8 * (i - (o - 0x100))
        if o - 0x100 ≤ i ∧ i < o - 0xF8 ∧ bitAt mask j then BitVec.ofNat 8 (fld v (j + 7) j) else b }
    else s

/-! ### Who may write -/

/-- What the manager's write of its own registers comes to: none where no writable register lies. -/
def State.mgrWrite (s : State) (b : Blk) (mask v : Word) : Option State :=
  match b with
  | .hall o => s.hallWrite o mask v
  | .ten o => s.tenWrite o mask v
  | .wing w o => s.wingWrite w o mask v
  | .eng e o => s.engWrite e o mask v
  | .hearth o => s.hearthWrite o mask v
  | .obs o => s.obsWrite o mask v
  | .port p o => s.portWrite p o mask v
  | _ => none

/-- A write of a doorbell page (R195, R196). -/
def State.doorWrite (s : State) (w : Writer) (n : StrmIx) (o : Nat) (mask v : Word) : State :=
  match o with
  | 0 => s.atDoorbell w n fun s =>
      s.doorbell n ((wr 0xFFFFFFFF ((s.stream n).tailReg.zeroExtend 64) mask v).truncate 32)
  | 8 => s.atDoorbell w n fun s =>
      let t := s.modStream n fun st => { st with ctl := (wr 7 (st.ctl.zeroExtend 64) mask v).truncate 3 }
      let t1 := if hit mask v 1 then t.ctlAbort n else t
      let t2 := if hit mask v 0 then t1.resume n else t1
      if hit mask v 2 then t2.pause n else t2
  | _ => s.atDoorbell w n id

/-- A write of a mailbox page (R181). -/
def State.mbWrite (s : State) (m : MbIx) (o : Nat) (mask v : Word) : State :=
  if o < 0x40 then s.modMb m fun x => { x with req := vmod x.req (toFin 8 (by omega) (o / 8)) fun y => mrg y v mask }
  else if o = 0x40 then s.writeGo m (mrg (s.mbox m).go v mask)
  else if o = 0x48 then s.modMb m fun x => { x with collide := x.collide && !hit mask v 1 }
  else s

/-- The stream of a doorbell page. -/
def doorOf (o : Nat) : StrmIx := toFin 512 (by omega) ((o - 0x100000) / 0x1000)

/-- Whether a writable register of a mailbox page lies at an offset (R181). -/
def mbLies (o : Nat) : Bool := decide (o < 0x40) || o == 0x40 || o == 0x48

/-- Whether a register of the flash block lies at an offset (R333). -/
def flashLies (o : Nat) : Bool := o == 0 || o == 8 || (decide (0x100 ≤ o) && decide (o < 0x200))

/-- A write by a master that may not write a register: discarded, counted and signalled (R180). A port meets this wherever it writes outside
its own pages (R324); a hart only where a register lies that the manager could write, since elsewhere R4 ignores the write (log 56). -/
def State.refuseAt (s : State) (w : Writer) (lies : Bool) : State :=
  match w with
  | .port _ => s.refuseWrite w
  | .hart _ => if lies then s.refuseWrite w else s

/-- A write of a register block by a writer. -/
def State.blkWrite (s : State) (w : Writer) (b : Blk) (mask v : Word) : State :=
  let mgr := s.isManager w
  match b with
  | .none => s
  | .ten o =>
    if 0x100000 ≤ o ∧ o < 0x300000 then
      if o % 0x1000 = 0 ∨ o % 0x1000 = 8 then s.doorWrite w (doorOf o) (o % 0x1000) mask v
      else s.atDoorbell w (doorOf o) id
    else if 0x500000 ≤ o ∧ o < 0x505000 then
      let m : MbIx := toFin 5 (by omega) ((o - 0x500000) / 0x1000)
      if mgr || writerMb w == m then s.mbWrite m (o % 0x1000) mask v else s.refuseAt w (mbLies (o % 0x1000))
    else if mgr then (s.tenWrite o mask v).getD s else s.refuseAt w (s.tenWrite o mask v).isSome
  | .port p o =>
    if mgr || w == .port p then (s.portWrite p o mask v).getD s else s.refuseAt w (s.portWrite p o mask v).isSome
  | .core o =>
    match w with
    | .hart _ => s.coreWrite w o mask v
    | .port _ => if mgr then s.coreWrite w o mask v else s.refuseWrite w
  | .plic o =>
    if s.reachesPlatform w then
      let lo := if bitAt mask 0 then s.plicWrite o (fld v 31 0) else s
      if bitAt mask 32 then lo.plicWrite (o + 4) (fld v 63 32) else lo
    else s.refuseWrite w
  | .aclint o => if s.reachesPlatform w then s.aclintWrite o mask v else s.refuseWrite w
  | .uart o => if s.reachesPlatform w then s.modCores fun c => c.uartWrite o mask v else s.refuseWrite w
  | .flash o => if s.flashWriter w then s.flashWrite o mask v else s.refuseAt w (flashLies o)
  | .fuse _ => if mgr then s else s.refuseAt w false
  | b => if mgr then (s.mgrWrite b mask v).getD s else s.refuseAt w (s.mgrWrite b mask v).isSome

/-- A write of the register word that holds an address. A hart that is held in reset or waits writes nothing (R260). -/
def State.regWrite (s : State) (w : Writer) (a : Nat) (mask v : Word) : State :=
  if s.acts w then s.blkWrite w (blkOf (a / 8 * 8)) mask v else s

/-! ### Reads that change state -/

/-- A read of MGR_EVQ by the manager removes the oldest entry; vector 1 is sent again while entries remain (R348). -/
def State.evqPop (s : State) : State :=
  let t : State := { s with out := toBytes 8 ((s.flt.evq.head?).getD 0).toNat }
  match s.flt.evq with
  | [] => t
  | _ :: rest =>
    let u := t.modFlt fun f => { f with evq := rest }
    if rest.isEmpty then u else u.mgrVector

/-- MGR_EVQ_READ: the read of a port without the manager role is a census read, which removes nothing (R13, R324). -/
def execMgrEvqRead (by_ : Writer) (s : State) : Out :=
  .next (if !s.fabricOn then s
    else if s.isManager by_ then s.evqPop else { s with out := toBytes 8 ((s.flt.evq.head?).getD 0).toNat })

/-- What a read of n bytes at an address leaves behind it in the register word at k, which it touches: a claim register of the PLIC is the
upper half of its word. -/
def State.wordEffect (s : State) (w : Writer) (a n k : Nat) : State :=
  match blkOf k with
  | .hall o =>
    if !s.isManager w then s
    else if o = 0x4000 then s.evqPop
    else if o = 0x4020 then s.hallEccRead else s
  | .wing x o => if s.isManager w && o == 0x1018 then s.eccCntRead x else s
  | .uart o => if s.reachesPlatform w && o == 0 then s.uartPop else s
  | .plic o =>
    if s.reachesPlatform w && decide (0x200000 ≤ o) && decide (o < 0x208000) && o % 0x1000 == 0 && decide (k + 4 < a + n)
      then s.plicClaim (ctxNo ((o - 0x200000) / 0x1000)) else s
  | _ => s

/-- What a read of n bytes by the manager or a hart leaves behind it: each register word that it touches takes its effect once. -/
def State.readEffect (s : State) (w : Writer) (a n : Nat) : State :=
  if n = 0 then s
  else (List.range ((a + n - 1) / 8 - a / 8 + 1)).foldl (fun t i => t.wordEffect w a n ((a / 8 + i) * 8)) s

end Sys2Proof.Machine
end

