-- ==== Sys2Proof/Machine/Census.lean ====
section
/-!
DEFINITION. Reads of registers and census space as their reader sees them (R13, R189, R208, R287, R318, R324), and the dump of a
frozen glove (R284, R285). Where R287 names what a page holds without the place of each item, the items are those of the state and
their places are open (log 26).
-/
namespace Sys2Proof.Machine

/-! ### What a reader may see (R189) -/

/-- Whether a tenant's words are hidden from a reader: a port that is neither the manager's nor the tenant's. -/
def State.hides (s : State) (w : Writer) (t : TenIx) : Bool :=
  match w with
  | .hart _ => false
  | .port p => !s.isManager w && (s.tenant t).isOpen && (s.tenant t).port != portMb p

/-- The tenant whose context a glove holds. -/
def State.gloveTenant (s : State) (gl : GloveRef) : Option TenIx :=
  let g := s.glv gl
  if g.kind != .none || g.state != 0 || g.pinned || (s.holder gl).isSome then some g.tenant else none

/-- Whether a word of some tenant, or of none, is hidden. -/
def State.hidesOpt (s : State) (w : Writer) (t : Option TenIx) : Bool :=
  match t with
  | some t => s.hides w t
  | none => false

/-- The tenant of a tick lease of an engine. -/
def State.tickTenant (s : State) (e : EngIx) : Option TenIx :=
  let l := s.lease (s.eng e).tick.lease
  if l.valid && l.kind == 2 && l.engine == e then some l.tenant else none

/-- Whether the reader is a port without the manager role that does not own a mailbox. -/
def State.hidesMb (s : State) (w : Writer) (m : Nat) : Bool := !s.isManager w && match w with
  | .port p => p.val != m
  | .hart _ => false

/-- Whether the register word at an address is hidden from a reader. -/
def State.hidesReg (s : State) (w : Writer) (a : Nat) : Bool :=
  match blkOf (a / 8 * 8) with
  | .ten o =>
    if 0x10000 ≤ o ∧ o < 0x10800 then s.hides w (toFin 64 (by omega) ((o - 0x10000) / 0x20))
    else if 0x20000 ≤ o ∧ o < 0x24000 then s.hides w (toFin 64 (by omega) ((o - 0x20000) / 0x100))
    else if 0x40000 ≤ o ∧ o < 0x48000 then
      let st := s.stream (toFin 512 (by omega) ((o - 0x40000) / 0x40))
      st.isOpen && s.hides w st.tenant
    else if 0x80000 ≤ o ∧ o < 0x82000 then
      let l := s.lease (toFin 512 (by omega) ((o - 0x80000) / 16))
      l.valid && s.hides w l.tenant
    else if 0x100000 ≤ o ∧ o < 0x300000 then
      let st := s.stream (doorOf o)
      st.isOpen && s.hides w st.tenant
    else if 0x400000 ≤ o ∧ o < 0x408000 then
      let b := s.bolt (toFin 4096 (by omega) ((o - 0x400000) / 8))
      b.alloc && s.hides w b.owner
    else if 0x500000 ≤ o ∧ o < 0x505000 then s.hidesMb w ((o - 0x500000) / 0x1000)
    else false
  | .eng e o =>
    if 0x1000 ≤ o ∧ o < 0x1100 then s.hidesOpt w (s.gloveTenant ⟨e, ⟨o / 0x40 % 4, by omega⟩⟩)
    else if 0x2000 ≤ o ∧ o < 0x2020 then s.hidesOpt w (s.tickTenant e)
    else false
  | _ => false

/-- A register word as its reader sees it. -/
def State.viewReg (s : State) (w : Writer) (a : Nat) : Word := if s.hidesReg w a then 0 else s.regRead a

/-- Whether memory at a line is hidden from a reader: a line that the rooms of another port's tenant cover and those of its own tenants do
not (log 26). -/
def State.hidesLine (s : State) (w : Writer) (a : Nat) : Bool :=
  (allFin 64).any (fun t => (s.tenant t).isOpen && s.hides w t && s.roomOk t a 1 .r)
    && !(allFin 64).any (fun t => (s.tenant t).isOpen && !s.hides w t && s.roomOk t a 1 .r)

/-! ### Census pages (R287): items at open places -/

/-- A byte of an area of a page: which of the area's items lies where is open; an item that is absent reads zero. -/
def itemByte (area : Nat) (l : List (List Nat)) (o : Nat) : Byte :=
  let x := Config.censusPlace area o
  BitVec.ofNat 8 (((l[x.1]?.getD [])[x.2.1]?.getD 0) >>> (8 * x.2.2))

/-- Some items, or zeros in their stead. -/
def withheld (hidden : Bool) (l : List Nat) : List Nat := if hidden then [] else l

/-- The bytes of a list as a number, the first the lowest. -/
def asNum (l : List Byte) : Nat := ofBytes l

/-- A latch: valid, register code, row, and the row's bytes. -/
def Latch.items (l : Option Latch) : List Nat :=
  match l with
  | some x => [1, x.reg.toNat, x.row.val, x.data.toNat]
  | none => [0]

/-- A response of a row in progress: its row, its data, how many of its transactions are outstanding. -/
def Resp.items (p : Resp) : List Nat := [p.row, p.data.toNat, p.ids]

/-- What a spatial instruction has in progress (R178): the next row step of how many, the returned data, the FRB fields that it read at
issue, the level chosen by `suniq`. -/
def Glove.spatialItems (g : Glove) : List (List Nat) :=
  match g.inflight with
  | r :: _ => [[r.row, r.rows], (r.resp.map Resp.items).flatten, g.spatialRows, r.ds.map (·.toNat), [r.aux]]
  | [] => []

/-- Byte o of a register's image; a released register reads zero. -/
def Tile.byte (t : Tile) (o : Nat) : Byte :=
  if !t.valid then 0
  else match t.rows[o / 256]? with
    | some r => lane r (o % 256)
    | none => 0

/-- The row-written bits: T0-T15, then A0-A3. -/
def Glove.writtenWord (g : Glove) (k : Nat) : Word :=
  if k < 16 then vget g.tile k (·.written) else vget g.acc (k - 16) (·.written)

/-- A byte of the page of a glove of an engine. -/
def Engine.glovePage (x : Engine) (g : Glove) (o : Nat) : Byte :=
  if o < 0x700 then (g.header[o]?).getD 0
  else if o < 0x800 then
    itemByte 1 [[x.issuePtr.val], x.unitPtr.toList.map (·.val), [b2n g.align], [g.launchWord.toNat]] (o - 0x700)
  else if o < 0x1000 then itemByte 2 [Latch.items g.latchA, Latch.items g.latchB] (o - 0x800)
  else if o < 0x10A0 then BitVec.ofNat 8 ((g.writtenWord ((o - 0x1000) / 8)).toNat >>> (8 * (o % 8)))
  else if o < 0x1100 then 0
  else if o < 0x1200 then
    itemByte 3 [match g.bbuf with
      | some b => [1, b.reg.toNat]
      | none => [0]] (o - 0x1100)
  else if o < 0x1400 then itemByte 4 (g.inflight.map fun r => r.scales.map (·.toNat)) (o - 0x1200)
  else if o < 0x1500 then lane g.staging (o - 0x1400)
  else if o < 0x1800 then 0
  else if o < 0x3000 then itemByte 5 g.spatialItems (o - 0x1800)
  else if o < 0x4000 then itemByte 6 [g.ibuf.map (·.off.toNat)] (o - 0x3000)
  else if o < 0x5000 then itemByte 7 [g.ibuf.map (·.data.toNat)] (o - 0x4000)
  else if o < 0x10000 then 0
  else if o < 0x14000 then
    match g.bbuf with
    | some b => lane ((b.rows[(o - 0x10000) / 256]?).getD 0) (o % 256)
    | none => 0
  else if o < 0x24000 then
    match g.acc[(o - 0x14000) / 0x4000]? with
    | some t => t.byte ((o - 0x14000) % 0x4000)
    | none => 0
  else if o < 0x40000 then 0
  else match g.tile[(o - 0x40000) / 0x4000]? with
    | some t => t.byte (o % 0x4000)
    | none => 0

/-- A cupboard slot (R117): VALID, KIND, key, tenant, compile number, age, lock count and pool. -/
def Slot.items (x : Slot) (k : Nat) : List Nat :=
  [b2n x.valid, x.kind.toNat, x.key.toNat, x.tenant.val, x.num.toNat, x.age, x.lock, b2n (decide (56 ≤ k))]

/-- Byte o of an attic of n records: the record with write index i stands at place i; where none stands the byte is open. -/
def Tch.atticByte (t : Tch) (l : List (BitVec 128)) (n a o now : Nat) : Byte :=
  match l[(o / 16 + n + l.length - t.index) % n]? with
  | some r => BitVec.ofNat 8 (r.toNat >>> (8 * (o % 16)))
  | none => Config.atticOpen a now

/-- A byte of an engine's page as its reader sees it. -/
def State.enginePage (s : State) (w : Writer) (e : EngIx) (a o : Nat) : Byte :=
  let x := s.eng e
  let hid (g : GlvIx) : Bool := s.hidesOpt w (s.gloveTenant ⟨e, g⟩)
  let slots (f : Slot → Nat → List Nat) : List (List Nat) := x.cupboard.toList.mapIdx fun k y => withheld (s.hides w y.tenant) (f y k)
  let t := s.obs.tch[(engChan e).val]
  if o < 0x400 then itemByte 8 (slots Slot.items ++ [[x.compileCnt.toNat]]) o
  else if o < 0x10000 then
    itemByte 9 [[t.index], (allFin 4).map (fun g => if hid g then 0 else (x.gloves[g.val]).combiner.length),
      x.banks.toList.map fun b => (b.holder.map (·.val + 1)).getD 0] (o - 0x400)
  else if o < 0x20000 then itemByte 10 (slots fun y _ => y.route) (o - 0x10000)
  else if o < 0x2C000 then
    match x.banks[(o - 0x20000) / 0x4000]? with
    | some b => if (b.holder.map hid).getD false then 0 else lane ((b.rows[o % 0x4000 / 256]?).getD 0) (o % 256)
    | none => 0
  else if o < 0x30000 then
    itemByte 11 ((allFin 4).map fun g => withheld (hid g)
      ((x.gloves[g.val]).staging.toNat :: ((x.gloves[g.val]).combiner.map fun c => [c.addr, c.value.toNat]).flatten)) (o - 0x2C000)
  else t.atticByte x.attic 4096 a (o - 0x30000) s.now

/-- A request that waits at a port or waits for its response: master, address, order, and its wait in fc. -/
def reqItems (now : Nat) (r : Req) : List Nat := [r.master.val, r.addr, r.order, reqWaitFc r now]

/-- The waiting requests and the pointers of some ports. -/
def State.portItems (s : State) (f : PortId → Bool) : List (List Nat) :=
  ((s.hall.ports.filter fun p => f p.port).map fun p => p.ptr.val :: (p.waiting.map fun r => reqItems s.now r).flatten)

/-- A link direction: state, credits in use, retries. -/
def Link.items (l : Link) : List Nat := [b2n l.down, l.reqUsed, l.rspUsed, l.fails, l.retries]

/-- The first address of a line of a wing's combining buffer. -/
def combAddr (w : WingIx) (c : CombLine) : Nat := 0x1000000000 + w.val * 2 ^ 34 + 64 * c.line

/-- The items of a wing's page. -/
def State.wingItems (s : State) (r : Writer) (w : WingIx) : List (List Nat) :=
  let x := s.wing w
  [x.comb.map (fun c => 2 * c.line + b2n c.dirty),
    x.comb.map (fun c => if s.hidesLine r (combAddr w c) then 0 else asNum (s.physBytes (combAddr w c) 64)),
    (x.det.toList.map fun d => (d.sums.map fun y => [y.addr, asNum ((List.range 40).map y.byte)]).flatten).flatten,
    (s.hall.held.filter fun h => (decodeAddr s.hall.remap h.range.1).wing == some w).map (fun h => if s.hidesLine r h.range.1 then 0 else h.range.1),
    x.presence] ++ x.links.toList.map Link.items
    ++ s.portItems fun p => match p with
      | .wing v _ _ => v == w
      | .hall _ => false

/-- The state of a line in the directory. -/
def DirSt.num : DirSt → Nat
  | .shared m => m.toNat
  | .owned c => 16 + c.val

/-- A pending slot of the directory. -/
def DirPend.num (p : DirPend) : Nat := 8 * p.line + 2 * p.core.val + b2n p.own

/-- The items of the Hall's page, but for its attic. -/
def State.hallItems (s : State) : List (List Nat) :=
  [(s.hall.txns.map fun t => reqItems s.now t.req).flatten, (s.cores.dir.map fun d => [d.1, d.2.num]).flatten, s.cores.dirPend.map DirPend.num,
    [s.cores.dirPtr.val], (s.obs.samp.toList.map fun x => (x.pend.map (·.toNat)).getD 0),
    (s.wings.toList.map fun x => x.digPend.map (·.toNat)).flatten, [s.obs.remainder], [(s.obs.tch[16]).index], s.obs.attic.map (·.toNat)]
    ++ s.hall.toWing.toList.map Link.items ++ s.portItems fun p => match p with
      | .wing _ _ _ => false
      | .hall _ => true

/-- Whether what belongs to an engine's tick lease is hidden from a reader. -/
def State.hidesTick (s : State) (w : Writer) (e : EngIx) : Bool := s.hidesOpt w (s.tickTenant e)

/-- The items of the hearth's page (R230, R318). -/
def State.hearthItems (s : State) (w : Writer) : List (List Nat) :=
  let h := s.hearth
  (h.tpin.toList.map fun p => (p.fifo.map fun x =>
      [x.ts.toNat, b2n x.fast, ((allFin 16).filter fun e => x.served.contains e).foldl (fun m e => m + 2 ^ e.val) 0]).flatten)
    ++ (allFin 64).map (fun i => withheld (if i.val < 48 then false else s.hidesTick w ⟨i.val % 16, by omega⟩)
      [(h.wake[i.val]).due.toNat, (h.wake[i.val]).ctl.toNat, (h.wake[i.val]).period.toNat])
    ++ s.ports.toList.map (fun p => (p.lane.map fun t =>
      withheld ((t.eng.map (s.hidesTick w)).getD false) [t.addr, asNum t.data]).flatten)
    ++ h.bb.toList.map (fun b => [0, 8, 16, 24].map fun o => (b.reg o).toNat)

/-- The place of a command in its life. -/
def CmdPhase.num : CmdPhase → Nat
  | .fetched => 0
  | .started => 1
  | .running => 2
  | .done => 3

/-- A command of a stream. -/
def Cmd.items (c : Cmd) : List Nat := [c.index.toNat, c.phase.num, c.record.toNat]

/-- The items of a stream's page (R208): fetch pointer, started commands, the window of eight. -/
def Stream.items (st : Stream) : List (List Nat) :=
  [[st.fetchIx.toNat], ((st.cmds.filter fun c => c.phase != .fetched).map Cmd.items).flatten, ((st.cmds.take 8).map Cmd.items).flatten]

/-- A waiter of a bolt's FIFO. -/
def BWaiter.items (x : BWaiter) : List Nat := [wakerOf x.who, x.n.toNat]

/-- The items of the scheduler's page (R208): V_t at the scheduler and at every share port, tenant pointers, ready queues, bolt FIFOs. -/
def State.schedItems (s : State) (w : Writer) : List (List Nat) :=
  let ten (v : Vector Nat 65) : List Nat := v.toList.mapIdx fun i x => if s.hides w (toFin 64 (by omega) i) && decide (i < 64) then 0 else x
  [ten s.ten.vt, [s.ten.tptr.val], s.ten.strmPtr.toList.mapIdx (fun i n => if s.hides w (toFin 64 (by omega) i) then 0 else n.val),
    (s.readyList.map fun x => if s.hides w (s.stream x.1).tenant then [0, 0] else [x.1.val, x.2.index.toNat]).flatten]
    ++ s.ten.bolts.toList.map (fun b => withheld (b.alloc && s.hides w b.owner) (b.fifo.map BWaiter.items).flatten)
    ++ (s.hall.ports.map fun p => p.tptr.val :: ten p.vt)

/-- The items of a hart's page: PC, x1-x31, f0-f31 and CSRs, and the tags and states of its caches (R287). -/
def State.hartItems (s : State) (h : HartIx) : List (List Nat) :=
  let x := s.hart h
  [[x.pc.toNat], (x.x.toList.drop 1).map (·.toNat), x.f.toList.map (·.toNat), (x.csrs.map fun c => [c.1, c.2.toNat]).flatten,
    s.cores.l1i[h.val], s.cores.l1d[h.val], s.cores.cached[h.val], (s.cores.dirty[h.val]).map (·.1)]

/-- Whether an engine sleeps: its pages read zero (R318). -/
def State.asleep (s : State) (e : EngIx) : Bool := (s.eng e).pwrState == 3

/-- A byte of a census page as its reader sees it. -/
def State.pageByte (s : State) (w : Writer) (a : Nat) : Byte :=
  if a < 0x5D000000 then 0
  else if a < 0x5F000000 then
    let k := (a - 0x5D000000) / 0x80000
    let gl : GloveRef := ⟨⟨k / 4 % 16, by omega⟩, ⟨k % 4, by omega⟩⟩
    if s.asleep gl.e || s.hidesOpt w (s.gloveTenant gl) then 0 else (s.eng gl.e).glovePage (s.glv gl) (a % 0x80000)
  else if a < 0x5F400000 then
    let e : EngIx := ⟨(a - 0x5F000000) / 0x40000 % 16, by omega⟩
    if s.asleep e then 0 else s.enginePage w e a (a % 0x40000)
  else if a < 0x5F800000 then let v := wingNo (a / 0x100000); itemByte 13 (s.wingItems w v) (a % 0x100000)
  else if a < 0x5FA00000 then itemByte 14 s.hallItems (a - 0x5F800000)
  else if a < 0x5FA10000 then itemByte 15 (s.hearthItems w) (a - 0x5FA00000)
  else if a < 0x5FB00000 then 0
  else if a < 0x5FB80000 then
    let st := s.stream (toFin 512 (by omega) ((a - 0x5FB00000) / 0x400))
    if st.isOpen && s.hides w st.tenant then 0 else itemByte 16 st.items (a % 0x400)
  else if a < 0x5FC00000 then 0
  else if a < 0x5FD00000 then itemByte 17 (s.schedItems w) (a - 0x5FC00000)
  else if a < 0x5FE00000 then itemByte 18 (s.hartItems (wingNo ((a - 0x5FD00000) / 0x40000))) (a % 0x40000)
  else 0

/-! ### A read by a master -/

/-- A byte at a register or census address. -/
def State.viewByte (s : State) (w : Writer) (a : Nat) : Byte :=
  let b (r : Nat) : Byte := BitVec.ofNat 8 ((s.viewReg w r).toNat >>> (8 * (r % 8)))
  if a < 0x50000000 then b a
  else if a < 0x5D000000 then b (a - 0x10000000)
  else s.pageByte w a

/-- The bytes of a read at a register or census address. -/
def State.viewBytes (s : State) (w : Writer) (a n : Nat) : List Byte := (List.range n).map fun i => s.viewByte w (a + i)

/-! ### Dumps (R284, R285) -/

/-- SLOTS of a wing's cellar, and the lowest slot that is free. -/
def Wing.cellarFree (w : Wing) : Option (BitVec 6) :=
  ((List.range (min 64 (fld w.cellar 54 48))).find? fun k => !bitAt w.cellarUsed k).map (BitVec.ofNat 6)

/-- The address of a slot of a wing's cellar. -/
def Wing.slotAddr (w : Wing) (k : BitVec 6) : Nat := fld w.cellar 47 0 + 0x100000 * k.toNat

/-- A dump that is skipped: NO_SLOT, and HANG again. -/
def State.skipDump (s : State) (gl : GloveRef) : State :=
  (s.modGlv gl fun g => { g with hang := { g.hang with dump := 0, noSlot := true } }).hangEvent gl

/-- A dump begins in a slot. -/
def State.beginDump (s : State) (gl : GloveRef) (k : BitVec 6) : State :=
  let t := s.modWing (wingOf gl.e) fun w => { w with cellarUsed := w.cellarUsed ||| (1 <<< k.toNat) }
  (t.modGlv gl fun g => { g with hang := { g.hang with dump := 2, slot := k } }).modObs fun o => { o with dumping := some gl }

/-- DUMP_START: the census engine serves one frozen glove at a time. -/
def State.dumpStart (s : State) : State :=
  if s.obs.dumping.isSome then s
  else match s.liveDumps with
    | [] => s.modObs fun o => { o with dumpQueue := [] }
    | gl :: rest =>
      let t := s.modObs fun o => { o with dumpQueue := rest }
      if !bitAt s.obs.censusCtl 4 then t.skipDump gl
      else match (s.wing (wingOf gl.e)).cellarFree with
        | some k => t.beginDump gl k
        | none => t.skipDump gl

def execDumpStart (s : State) : Out := .next (if s.fabricOn then s.dumpStart else s)

/-- The header fields of a dump from offset 0x08 on. -/
def State.dumpHeader (s : State) (gl : GloveRef) : List Byte :=
  let g := s.glv gl
  let r (o : Nat) : List Byte := toBytes 8 (s.gloveReg gl o).toNat
  let t (o : Nat) : List Byte := toBytes 8 ((s.eng gl.e).tick.reg o).toNat
  let wait := match g.hang.bolt with
    | some x => toBytes 8 (s.bolt x.1).reg.toNat ++ toBytes 8 (x.1.val + 0x1000)
    | none => toBytes 8 0 ++ toBytes 8 0
  toBytes 8 g.hang.frozenAt.toNat ++ toBytes 8 g.hang.lastProgress.toNat ++ toBytes 1 g.tenant.val
    ++ toBytes 1 (b2n (g.kind == .tick)) ++ toBytes 2 g.strm.val ++ toBytes 4 g.cmdIx.toNat
    ++ r 0x00 ++ r 0x08 ++ r 0x18 ++ r 0x20 ++ t 0x00 ++ t 0x08 ++ wait ++ toBytes 8 s.hearth.time.toNat ++ List.replicate 152 0

/-- The MAGIC word, with the widths of a program header's first word (R73). -/
def dumpMagic (gl : GloveRef) : List Byte := toBytes 4 0x504D5544 ++ toBytes 2 1 ++ toBytes 1 gl.e.val ++ toBytes 1 gl.g.val

/-- The census engine sees every page. -/
def censusEye : Writer := .hart 0

/-- The parts of a dump in the order in which they are written: slot offset and bytes. -/
def State.dumpParts (s : State) (gl : GloveRef) : List (Nat × List Byte) :=
  [(0x40000, s.viewBytes censusEye (0x5F000000 + gl.e.val * 0x40000) 0x40000),
    (0x80000, s.viewBytes censusEye (0x5D000000 + (4 * gl.e.val + gl.g.val) * 0x80000) 0x80000),
    (0x1000, s.viewBytes censusEye (0x5FB00000 + (s.glv gl).strm.val * 0x400) 0x400),
    (8, s.dumpHeader gl), (0, dumpMagic gl)]

/-- The source of the census engine's writes: QoS DUMP_QOS (R284, R290). -/
def State.dumpSrc (s : State) : AccSrc := ⟨7, none, true, false, fld s.obs.censusCtl 3 0, 71⟩

/-- The dump is over: DUMP reads done, HANG is raised again. -/
def State.endDump (s : State) (gl : GloveRef) : State :=
  ((s.modObs fun o => { o with dumping := none }).modGlv gl fun g => { g with hang := { g.hang with dump := 3 } }).hangEvent gl

/-- DUMP_COMPLETE: every part is in memory; a slot that answers with errors takes none. -/
def State.dumpComplete (s : State) : State :=
  match s.obs.dumping with
  | none => s
  | some gl =>
    if !((s.glv gl).hang.frozen && (s.glv gl).hang.dump == 2) then s.modObs fun o => { o with dumping := none }
    else
      let a := (s.wing (wingOf gl.e)).slotAddr (s.glv gl).hang.slot
      match s.ready none a with
      | .stall => s
      | .busErr => s.endDump gl
      | .ok =>
        if s.heldLine (s.keysOf a 0x100000) then s
        else ((s.dumpParts gl).foldl (fun t p => t.accWrite s.dumpSrc (a + p.1) p.2) s).endDump gl

def execDumpComplete (s : State) : Out := .next (if s.fabricOn then s.dumpComplete.sealSweep else s)

end Sys2Proof.Machine
end

