-- ==== Sys2Proof/Machine/HostPort.lean ====
section
/-!
DEFINITION. Inbound reads and writes of a host port (R186, R188, R300, R323-R325, R329), once their turn has come: Machine/Held.lean says
which of them wait.
-/
namespace Sys2Proof.Machine

/-! ### BARs (R323) -/

/-- Size of a BAR, and the address that its offset 0 maps to. -/
def barSize (b : Fin 3) : Nat := if b = 0 then 0x20000000 else if b = 1 then 0x40000000 else 0x2000000000
def barBase (b : Fin 3) : Nat := if b = 0 then 0x40000000 else if b = 1 then 0 else 0x1000000000

/-- Whether an access lies in the register and census range, where rooms do not govern (R186, R324). -/
def inRegs (a : Nat) : Bool := decide (0x40000000 ≤ a) && decide (a < 0x60000000)

/-! ### Refusals (R188, R325) -/

/-- A request that cannot be served: logged in AER and counted. -/
def State.inboundErr (s : State) (p : PortIx) (b : Fin 32) : State :=
  s.modPort p fun x => { x.aerLog b with inboundRej := x.inboundRej + 1 }

/-- A completion goes to the host. -/
def State.complete (s : State) (p : PortIx) (status : BitVec 3) (data : List Byte) (poisoned : Bool) : State :=
  s.modPort p fun x => { x with cpls := x.cpls ++ [⟨status, data, poisoned⟩] }

/-- Unsupported Request, Completer Abort. -/
def cplUr : BitVec 3 := 1
def cplCa : BitVec 3 := 4

/-- A room violation of an inbound access (R188). -/
def State.roomInbound (s : State) (p : PortIx) : State :=
  (s.modTen fun x => { x with tenants := x.tenants.map fun t =>
    if t.isOpen && t.port == portMb p then { t with roomViol := t.roomViol + 1 } else t }).report
    { code := 0x46, scope := 2, unit := p.val }

/-- The open tenant of a port whose rooms admit the whole access. -/
def State.inboundTenant (s : State) (p : PortIx) (a n : Nat) (q : Perm) : Option TenIx :=
  (allFin 64).find? fun t => (s.tenant t).isOpen && (s.tenant t).port == portMb p && s.roomOk t a n q

/-- The source of a port's accesses at a wing: its Hall link. -/
def hostSrc (t : TenIx) (p : PortIx) : AccSrc := ⟨7, some t, false, false, 0, 64 + p.val⟩

/-- Whether the whole of an access is decoded, and whether any of it may only be read (R12, R13). -/
def State.mapped (s : State) (a n : Nat) : Bool := (spots a n).all fun x => decodeAddr s.hall.remap x != .none
def State.readOnly (s : State) (a n : Nat) : Bool := (spots a n).any fun x =>
  match decodeAddr s.hall.remap x with
  | .rom _ | .census _ => true
  | _ => false

/-- What the targets of a memory access answer: a drain of REMAP comes before any decode (R16). -/
def State.inboundReady (s : State) (a n : Nat) : Ready :=
  let l := (spots a n).map (s.ready none)
  if l.contains .busErr then .busErr else if l.contains .stall then .stall else .ok

/-- The targets of an access that must wait are woken. -/
def State.wakeTargets (s : State) (a n : Nat) : State := (spots a n).foldl State.touchWake s

/-! ### Reads -/

/-- A read of registers or census space, with what reading it does (R13, R324). -/
def State.readRegs (w : Writer) (a n : Nat) (s : State) : List Byte × State :=
  (s.viewBytes w a n, if 0x50000000 ≤ a then s else { (s.readEffect w a n) with out := s.out })

/-- A read of registers or census space by a port. -/
def State.regsIn (s : State) (p : PortIx) (a n : Nat) : State :=
  if s.mapped a n then let r := State.readRegs (.port p) a n s; r.2.complete p 0 r.1 false
  else (s.inboundErr p aerUr).complete p cplUr [] false

/-- A read of memory that has passed its room check. -/
def State.readMem (s : State) (p : PortIx) (t : TenIx) (a n : Nat) : State :=
  if !s.mapped a n then (s.inboundErr p aerUr).complete p cplUr [] false
  else if s.inboundReady a n = .busErr then (s.inboundErr p aerAbort).complete p cplCa [] false
  else let r := s.accRead (hostSrc t p) a n; r.2.2.complete p 0 r.1 r.2.1

/-- Whether a port takes memory requests now: a device in STANDBY only wakes, a function in D3hot refuses them. -/
def State.takesMem (s : State) (p : PortIx) : Bool := s.fabricOn && !(s.port p).d3hot

/-! ### Writes -/

/-- The bytes of a list that fall into the word at an address, as a value and a mask. -/
def wordPart (a base : Nat) (bs : List Byte) : Word × Word :=
  let at8 (i : Nat) : Option Byte := if base + i < a then none else bs[base + i - a]?
  (BitVec.ofNat 64 (digits 8 (fun i => ((at8 i).getD 0).toNat) 0 8),
    BitVec.ofNat 64 (digits 8 (fun i => if (at8 i).isSome then 0xFF else 0) 0 8))

/-- The words that n bytes from an address on touch. -/
def wordsOf (a n : Nat) : List Nat :=
  if n = 0 then [] else (List.range ((a + n - 1) / 8 - a / 8 + 1)).map fun k => 8 * (a / 8 + k)

/-- A write of registers, word by word in ascending order. -/
def State.writeRegs (s : State) (w : Writer) (a : Nat) (bs : List Byte) : State :=
  (wordsOf a bs.length).foldl (fun t x => let v := wordPart a x bs; t.regWrite w x v.2 v.1) s

/-- A write of registers by a port. A poisoned one is discarded. -/
def State.regsOut (s : State) (p : PortIx) (a : Nat) (bs : List Byte) (poisoned : Bool) : State :=
  if !s.mapped a bs.length || s.readOnly a bs.length then s.inboundErr p aerUr
  else if poisoned then s.inboundErr p aerPoisoned
  else s.writeRegs (.port p) a bs

/-- A write of memory that has passed its room check. A poisoned write is written and marked poisoned. -/
def State.writeMem (s : State) (p : PortIx) (t : TenIx) (a : Nat) (bs : List Byte) (poisoned : Bool) : State :=
  if !s.mapped a bs.length || s.readOnly a bs.length then s.inboundErr p aerUr
  else if s.inboundReady a bs.length = .busErr then s.inboundErr p aerAbort
  else
    let u := (s.accWrite (hostSrc t p) a bs poisoned).sealSweep
    if poisoned then u.inboundErr p aerPoisoned else u

end Sys2Proof.Machine
end

