-- ==== Sys2Proof/Machine/Held.lean ====
section
/-!
DEFINITION. Accesses that wait (R16, R27, R40, R41, R45, R47): an access that arrives while its target cannot take it is held and served
once the target can, the posted writes of one host port in arrival order. The commands that bring such accesses, and those that make a
target ready.
-/
namespace Sys2Proof.Machine

/-! ### Which accesses wait -/

/-- Whether an earlier posted write of a port still waits (R27). -/
def State.writeAhead (s : State) (p : PortIx) : Bool := s.hall.held.any fun h => match h with
  | .write q _ _ _ _ => q == p
  | _ => false

/-- Whether the targets of a memory access keep it waiting: they are not ready, or an earlier access to one of its lines waits. -/
def State.memWaits (s : State) (a n : Nat) : Bool := s.inboundReady a n == .stall || s.heldLine (s.keysOf a n)

/-- Whether an access has to wait, given the accesses that waited before it. -/
def State.mustWait (s : State) : HeldAcc → Bool
  | .read _ none _ _ => false
  | .read _ (some _) a n => s.memWaits a n
  | .write p none _ _ _ => s.writeAhead p
  | .write p (some _) a bs _ => s.writeAhead p || s.memWaits a bs.length
  | .acc x =>
    let r := HeldAcc.range (.acc x)
    s.remapHolds r.1 || s.accReady r.1 == .stall || s.heldLine (s.keysOf r.1 r.2) || match x.kind with
      | .update _ _ _ => (s.keysOf r.1 r.2).any s.detHeld
      | _ => false

/-- An access whose turn has come. -/
def State.serve (s : State) : HeldAcc → State
  | .read p none a n => s.regsIn p a n
  | .read p (some t) a n => s.readMem p t a n
  | .write p none a bs poisoned => s.regsOut p a bs poisoned
  | .write p (some t) a bs poisoned => s.writeMem p t a bs poisoned
  | .acc x => (s.accServe x).sealSweep

/-- An access is held behind the others. -/
def State.hold (s : State) (h : HeldAcc) : State := s.modHall fun x => { x with held := x.held ++ [h] }

/-- An access is served now or held; one that waits for a sleeping wing wakes it (R299). -/
def State.take (s : State) (h : HeldAcc) : State :=
  if s.mustWait h then (s.hold h).wakeTargets h.range.1 h.range.2 else s.serve h

/-- The accesses that wait are looked at again, oldest first: each is served that need not wait any more. -/
def State.serveHeld (s : State) : State :=
  s.hall.held.foldl (fun t h => if t.mustWait h then t.hold h else t.serve h) (s.modHall fun x => { x with held := [] })

/-! ### Inbound requests of a host port -/

/-- An inbound read. -/
def State.inboundRead (s : State) (p : PortIx) (a n : Nat) : State :=
  if inRegs a then s.take (.read p none a n)
  else match s.inboundTenant p a n .r with
    | none => ((s.roomInbound p).inboundErr p aerAbort).complete p cplCa [] false
    | some t => s.take (.read p (some t) a n)

/-- HOST_INBOUND_READ. -/
def execHostInboundRead (p : PortIx) (bar : Fin 3) (off len : Nat) (s : State) : Out :=
  .next (if !s.linked p then s
    else
      let t := s.inboundTlp p
      if !t.fabricOn then t
      else if !t.takesMem p || decide (barSize bar < off + len) then (t.inboundErr p aerUr).complete p cplUr [] false
      else t.inboundRead p (barBase bar + off) len)

/-- An inbound write. -/
def State.inboundWrite (s : State) (p : PortIx) (a : Nat) (bs : List Byte) (poisoned : Bool) : State :=
  if 256 < bs.length then s.inboundErr p aerMalformed
  else if inRegs a then s.take (.write p none a bs poisoned)
  else match s.inboundTenant p a bs.length .w with
    | none => (s.roomInbound p).inboundErr p aerAbort
    | some t => s.take (.write p (some t) a bs poisoned)

/-- HOST_INBOUND_WRITE. -/
def execHostInboundWrite (p : PortIx) (bar : Fin 3) (off : Nat) (data : List Byte) (poisoned : Bool) (s : State) : Out :=
  .next (if !s.linked p then s
    else
      let t := s.inboundTlp p
      if !t.fabricOn then t
      else if !t.takesMem p || decide (barSize bar < off + data.length) then t.inboundErr p aerUr
      else t.inboundWrite p (barBase bar + off) data poisoned)

/-! ### Accesses at an accumulate unit -/

/-- ACC_UNIT_ACCESS: an access at a pantry or a stack reaches the unit of its wing. -/
def execAccUnitAccess (a : AccAccess) (s : State) : Out := .next (if s.fabricOn then s.take (.acc a) else s)

/-! ### Events after which a target takes what waits -/

/-- DET_INIT_DONE: held updates proceed. -/
def execDetInitDone (w : WingIx) (k : Fin 4) (s : State) : Out := .next (if s.fabricOn then (s.detInitDone w k).serveHeld else s)

/-- HBM_TRAINING_END: a stack that fails answers what waits with errors (R41). -/
def execHbmTrainingEnd (w : WingIx) (ok : Bool) (s : State) : Out := .next (if s.alive then (s.trainingEnd w ok).serveHeld else s)

/-- HBM_SELF_REFRESH_EXIT. -/
def execHbmSelfRefreshExit (w : WingIx) (s : State) : Out := .next (if s.alive then (s.refreshExit w).serveHeld else s)

/-- HBM_ZERO_FILL_DONE. -/
def execHbmZeroFillDone (w : WingIx) (s : State) : Out := .next (if s.alive then (s.zeroFillDone w).serveHeld else s)

/-- WING_WAKE_DONE. -/
def execWingWakeDone (w : WingIx) (s : State) : Out := .next (if s.alive then (s.wingWakeDone w).serveHeld else s)

/-- HALL_REMAP_WRITE: a write of the value in force asks for no drain. -/
def execHallRemapWrite (by_ : Writer) (v : Word) (s : State) : Out :=
  .next (if s.fabricOn then (s.asManager by_ fun s => s.remapWrite v).serveHeld else s)

/-- REMAP_DONE: what the drain held is decoded by the new mapping. -/
def execRemapDone (s : State) : Out := .next (if s.fabricOn then s.remapDone.serveHeld else s)

end Sys2Proof.Machine
end

