-- ==== Sys2Proof/Machine/CoreMem.lean ====
section
/-!
DEFINITION. Memory as the harts see it: attributes and rooms (R242, R243), the Hall directory, the victim channel and the presence
filters (R251-R254), poison (R351). Memory contents are what a coherent read returns; a core's dirty lines keep what lies behind them.
-/
namespace Sys2Proof.Machine

/-! ### Attributes and rooms -/

/-- The memory attributes of R242. -/
inductive CAttr
  | cache | rom | plain | io | none
  deriving DecidableEq, Repr

/-- The attribute of an address. -/
def State.coreAttr (s : State) (a : Nat) : CAttr :=
  match decodeAddr s.hall.remap a with
  | .rom _ => .rom
  | .sram _ => .cache
  | .pantry w o => if (s.pinHolder w (o / 65536)).isSome then .plain else .cache
  | .hbm _ _ => if 0x2000000000 ≤ a then .plain else .cache
  | .reg _ | .census _ => .io
  | .none => .none

/-- Whether CORE_WIN holds a byte of Hall SRAM. -/
def State.inCoreWin (s : State) (a : Nat) : Bool :=
  match decodeAddr s.hall.remap a with
  | .sram o => let b := fld s.cores.win 23 12
    decide (b ≤ o / 4096) && decide (o / 4096 < b + fld s.cores.win 35 24)
  | _ => false

/-- The regions that need no room (R243). -/
def State.coreFree (s : State) (a : Nat) : Bool :=
  (match decodeAddr s.hall.remap a with
    | .rom _ => true
    | .census _ => true
    | _ => false)
    || s.inCoreWin a || (decide (0x4B000000 ≤ a) && decide (a < 0x4D000000))

/-- A doorbell page of a stream of firmware, or its mailbox page (R186). -/
def State.corePage (s : State) (a : Nat) : Bool :=
  match blkOf a with
  | .ten o =>
    if 0x100000 ≤ o ∧ o < 0x300000 then
      (s.stream (doorOf o)).isOpen && s.streamPort (doorOf o) == 4
    else decide (0x504000 ≤ o) && decide (o < 0x505000)
  | _ => false

/-- What the code of the boot ROM reaches (R243): itself, the flash registers, core control, and Hall SRAM; it reads no LOAD before it has
an image, so all of Hall SRAM counts (log 62). -/
def State.romReach (s : State) (a : Nat) : Bool :=
  match decodeAddr s.hall.remap a with
  | .rom _ | .sram _ => true
  | .reg _ => match blkOf a with
    | .flash _ | .core _ => true
    | _ => false
  | _ => false

/-- Whether an access of a hart passes its room check: the tenant that acts, if any. -/
def State.coreRoom (s : State) (h : HartIx) (a n : Nat) (q : Perm) : Option (Option TenIx) :=
  let x := s.hart h
  if x.inRom ∧ x.priv = 3 then (if (spots a n).all s.romReach then some none else none)
  else if s.hearth.mgrSel = 3 then some none
  else if (spots a n).all fun y => s.coreFree y || s.corePage y then some none
  else ((allFin 64).find? fun t => (s.tenant t).isOpen && (s.tenant t).port == 4 && s.roomOk t a n q).map some

/-- The source of a hart's accesses at a wing: its Hall link. -/
def coreSrc (t : Option TenIx) : AccSrc := ⟨7, t, false, false, 0, 68⟩

/-! ### Caches and the directory (R242, R251-R253) -/

/-- Lines that an L1 cache and an L2 cache hold (64 KiB and 1 MiB, R242), and entries of the directory. How a cache is divided into sets
and the size of the directory are not stated: each cache loses the line that was used longest ago, and the directory holds what four L2
caches hold (DESIGN CHOICE, log 62). -/
def l1Lines : Nat := 1024
def l2Lines : Nat := 16384
def dirLines : Nat := 65536

/-- A use of a line in a cache of n lines, the last used first; and the line that it makes leave. -/
def lruUse (n : Nat) (l : List Nat) (x : Nat) : List Nat := (x :: l.filter (· != x)).take n
def lruLeaves (n : Nat) (l : List Nat) (x : Nat) : Option Nat := if l.contains x || decide (l.length < n) then none else l.getLast?

/-- The directory's entry of a line. -/
def Cores.entry (c : Cores) (l : Nat) : Option DirSt := (c.dir.find? fun d => d.1 == l).map (·.2)

/-- Set the entry of a line. -/
def Cores.setEntry (c : Cores) (l : Nat) (d : DirSt) : Cores := { c with dir := (l, d) :: c.dir.filter fun x => x.1 != l }

/-- A core no longer holds a line: by inclusion its L1 caches lose it too, and a store that waited for it has to ask again. -/
def Cores.unhold (c : Cores) (h : HartIx) (l : Nat) : Cores :=
  { c with
    cached := vmod c.cached h fun x => x.filter (· != l)
    l1i := vmod c.l1i h fun x => x.filter (· != l)
    l1d := vmod c.l1d h fun x => x.filter (· != l)
    owing := c.owing.filter (· != (h, l)) }

/-- Whether a core holds a line modified. -/
def Cores.isDirty (c : Cores) (h : HartIx) (l : Nat) : Bool := c.dirty[h.val].any fun x => x.1 == l

/-- The 64 addresses of a line. -/
def lineKeys (l : Nat) : List Nat := (List.range 64).map (l + ·)

/-- A line of a core reaches its point of visibility (R28): it is no longer dirty. -/
def State.cleanLine (s : State) (h : HartIx) (l : Nat) : State :=
  if s.cores.isDirty h l then
    let t := s.modCores fun c => { c with dirty := vmod c.dirty h fun x => x.filter fun y => y.1 != l }
    ((t.detRewrite (lineKeys l)).accTouch (coreSrc none) (lineKeys l) 1)
  else s

/-- A line is written back and leaves the directory, every cache and the presence filters (R251, R252). -/
def State.takeLine (s : State) (l : Nat) : State := ((allFin 4).foldl (fun t h => t.cleanLine h l) s).dropLines (· == l)

/-- The sharers of a line without one core. -/
def Cores.dropSharer (c : Cores) (h : HartIx) (l : Nat) : Cores :=
  match c.entry l with
  | some d => match d.without h with
    | some e => c.setEntry l e
    | none => { c with dir := c.dir.filter fun x => x.1 != l }
  | none => c

/-- A core leaves the directory entry of a line; a line that no core holds leaves the presence filter (R252). -/
def State.dropSharer (s : State) (h : HartIx) (l : Nat) : State :=
  let t := s.modCores fun c => c.dropSharer h l
  if (t.cores.entry l).isNone && decide (0x20000000 ≤ l)
  then t.modWing (keyWing l) fun x => { x with presence := x.presence.filter (· != l) } else t

/-- A line leaves a core's L2: modified, it goes by the victim channel; else the core leaves the entry of the line. -/
def State.leaveCore (s : State) (h : HartIx) (l : Nat) : State :=
  let t := s.modCores fun c => c.unhold h l
  if t.cores.isDirty h l then t.modCores fun c => { c with victim := c.victim ++ [(h, l)] } else t.dropSharer h l

/-- A core takes a line into its L2, or uses it there; with the L2 full the line used longest ago leaves it. -/
def State.keepLine (s : State) (h : HartIx) (l : Nat) : State :=
  let x := s.cores.cached[h.val]
  let t := match lruLeaves l2Lines x l with
    | some v => s.leaveCore h v
    | none => s
  t.modCores fun c => { c with cached := vmod c.cached h fun y => lruUse l2Lines y l }

/-- Set the entry of a line; a new entry in a full directory evicts the oldest (R251). -/
def State.setDir (s : State) (l : Nat) (d : DirSt) : State :=
  let t := if (s.cores.entry l).isNone && decide (dirLines ≤ s.cores.dir.length) then
      match s.cores.dir.getLast? with
      | some v => s.takeLine v.1
      | none => s
    else s
  t.modCores fun c => c.setEntry l d

/-- A line enters the presence filter of its wing (R252): 2,048 sets of eight; the line that leaves is invalidated in the cores. -/
def State.present (s : State) (l : Nat) : State :=
  if l < 0x20000000 then s
  else
    let w := keyWing l
    let p := (s.wing w).presence
    if p.contains l then s
    else
      let set := p.filter fun x => x / 64 % 2048 == l / 64 % 2048
      let t := if set.length < 8 then s
        else match set.getLast? with
          | some v => s.takeLine v
          | none => s
      t.modWing w fun x => { x with presence := l :: x.presence }

/-- A line is read from memory for a core. -/
def State.fill (s : State) (t : Option TenIx) (l : Nat) : State := (s.accTouch (coreSrc t) (lineKeys l) 0).present l

/-- Every core but one loses its copy of a line. -/
def Cores.onlyHolder (c : Cores) (h : HartIx) (l : Nat) : Cores :=
  (allFin 4).foldl (fun c k => if k = h then c else c.unhold k l) c

/-- A line passes from its owner to another core, dirty as it is (R253, R254). -/
def State.forward (s : State) (k h : HartIx) (l : Nat) : State :=
  (s.modCores fun c =>
    let d := c.dirty[k.val].filter fun x => x.1 == l
    let d1 := vmod c.dirty k (List.filter fun y => y.1 != l)
    let d2 := vmod d1 h fun x => d ++ x.filter fun y => y.1 != l
    let c1 := { c with dirty := d2, victim := c.victim.filter fun v => v != (k, l) }
    (c1.unhold k l).setEntry l (.owned h)).keepLine h l

/-- A core obtains a line in its L2, to read or for ownership. -/
def State.acquire (s : State) (t : Option TenIx) (h : HartIx) (l : Nat) (own : Bool) : State :=
  match s.cores.entry l with
  | some (.owned k) =>
    if k = h then (s.modCores fun c => { c with victim := c.victim.filter fun v => v != (h, l) }).keepLine h l
    else if own then s.forward k h l
    else
      let u := (s.cleanLine k l).modCores fun c => { c with victim := c.victim.filter fun v => v != (k, l) }
      let m : BitVec 4 := if s.cores.cached[k.val].contains l then 1 <<< k.val else 0
      (u.setDir l (.shared (m ||| (1 <<< h.val)))).keepLine h l
  | some (.shared m) =>
    let s1 := if bitAt m h.val then s else s.fill t l
    let s2 := if own then (s1.modCores fun c => c.onlyHolder h l).setDir l (.owned h) else s1.setDir l (.shared (m ||| (1 <<< h.val)))
    s2.keepLine h l
  | none => ((s.fill t l).setDir l (if own then .owned h else .shared (1 <<< h.val))).keepLine h l

/-- A core is about to change a line that it owns: what lies behind it is kept. -/
def State.markDirty (s : State) (h : HartIx) (l : Nat) : State :=
  if s.cores.isDirty h l then s
  else
    let v := BitVec.ofNat 512 (ofBytes ((lineKeys l).map (cellGet s.mem.cells)))
    s.modCores fun c => { c with dirty := vmod c.dirty h fun x => (l, v) :: x }

/-- A use of a line in an L1 cache: the instruction cache for fetches. -/
def State.useL1 (s : State) (h : HartIx) (l : Nat) (fetch : Bool) : State :=
  s.modCores fun c =>
    if fetch then { c with l1i := vmod c.l1i h fun x => lruUse l1Lines x l } else { c with l1d := vmod c.l1d h fun x => lruUse l1Lines x l }

/-- A core's access to a line that it may cache: a hit of an L1 cache does not reach the L2, and a page-table walk reads through the L2
(R241). -/
def State.readLine (s : State) (t : Option TenIx) (h : HartIx) (l : Nat) (fetch walk : Bool) : State :=
  let l1 := if fetch then s.cores.l1i[h.val] else s.cores.l1d[h.val]
  let u := if l1.contains l && !walk then s else s.acquire t h l false
  if walk then u else u.useL1 h l fetch

/-! ### One access of a hart (R242, R243) -/

/-- The lines of an access: those of the boot ROM by their offset in it. -/
def State.linesAt (s : State) (a n : Nat) : List Nat :=
  match decodeAddr s.hall.remap a with
  | .rom o => linesOf ((List.range n).map (o + ·))
  | _ => linesOf (s.keysOf a n)

/-- Whether any of some lines is poisoned: such a line is not cached (R351). -/
def State.poisonedLine (s : State) (l : Nat) : Bool := s.mem.poison.any fun g => g / 64 * 64 == l

/-- Readiness of every target of an access for the cores; accesses to a line keep their order (R45). -/
def State.coreReady (s : State) (a n : Nat) : Ready := if s.heldLine (s.keysOf a n) then .stall else s.inboundReady a n

/-- Whether a core already has every line of an access. -/
def State.coreHit (s : State) (h : HartIx) (a n : Nat) : Bool := (s.linesAt a n).all fun l => s.cores.cached[h.val].contains l

/-- Whether requests for a line wait at the directory, or at the CPU master port. -/
def Cores.linePends (c : Cores) (l : Nat) : Bool := (c.dirPend ++ c.dirHeld).any fun p => p.line == l

/-- Whether an access needs the directory: a load that misses, a store to a line that the core does not own. -/
def State.needsDir (s : State) (h : HartIx) (a n : Nat) (q : Perm) : Bool := (s.linesAt a n).any fun l =>
  if q = .w then s.cores.entry l != some (.owned h) else !s.cores.cached[h.val].contains l

/-- Whether the directory keeps an access waiting (R253): requests for its line wait already, or the pending slots are full. -/
def State.dirStalls (s : State) (h : HartIx) (a n : Nat) (q : Perm) : Bool :=
  s.needsDir h a n q && ((s.linesAt a n).any s.cores.linePends || decide (64 ≤ s.cores.dirPend.length))

/-- The common checks of an access: a drain of REMAP, attribute, what may only be read (R13), room, target, directory. A refused access
takes an access fault; the answer gives the tenant that acts. -/
def State.coreCheck (s : State) (h : HartIx) (a n : Nat) (q : Perm) : Res (CAttr × Option TenIx) :=
  let k := s.coreAttr a
  let cached := decide (k = .cache) || decide (k = .rom)
  if (spots a n).any s.remapHolds && !(cached && s.coreHit h a n) then .stall
  else if n = 0 ∨ k = .none ∨ !(spots a n).all (fun x => s.coreAttr x == k) then .fault 0
  else if (k = .rom ∧ (q = .w ∨ q = .u)) ∨ (k = .io ∧ q = .x) ∨ (k = .io ∧ (q = .w ∨ q = .u) ∧ s.readOnly a n) then .fault 0
  else match s.coreRoom h a n q with
    | none => .fault 0
    | some t =>
      if k = .io then .ok (k, t)
      else if cached && s.dirStalls h a n q then .stall
      else if k = .rom ∨ (k = .cache ∧ s.coreHit h a n) then .ok (k, t)
      else match s.coreReady a n with
        | .ok => .ok (k, t)
        | .busErr => .fault 0
        | .stall => .stall (decodeAddr s.hall.remap a).wing

/-- The lines of a load or fetch come into the caches; a poisoned one does not (R351). -/
def State.readLines (s : State) (t : Option TenIx) (h : HartIx) (ls : List Nat) (fetch walk : Bool) : State :=
  ls.foldl (fun u l => if u.poisonedLine l then u.accTouch (coreSrc t) (lineKeys l) 0 else u.readLine t h l fetch walk) s

/-- A load, a fetch or a read of a page-table walk: the bytes. -/
def State.coreLoad (s : State) (h : HartIx) (a n : Nat) (q : Perm) (walk : Bool := false) : Res (List Byte × State) :=
  (s.coreCheck h a n q).bind fun k =>
    match k.1 with
    | .io =>
      let r := State.readRegs (.hart h) a n s
      .ok r
    | .plain => if s.poisoned a n then .fault 0 else let r := s.accRead (coreSrc k.2) a n; .ok (r.1, r.2.2)
    | _ =>
      if s.poisoned a n then .fault 0
      else .ok (s.physBytes a n, s.readLines k.2 h (s.linesAt a n) (q == .x) walk)

/-- Other harts' reservations on the lines of a store end. -/
def State.breakResv (s : State) (h : HartIx) (ls : List Nat) : State :=
  s.modCores fun c => { c with harts := c.harts.mapFinIdx fun i x _ =>
    if i = h.val then x else match x.resv with
      | some l => if ls.contains l then { x with resv := none } else x
      | none => x }

/-- A core owns a line of a store and changes it: the store for which the line came is complete (R254). -/
def State.ownLine (t : Option TenIx) (h : HartIx) (s : State) (l : Nat) : State :=
  let u := ((s.acquire t h l true).markDirty h l).useL1 h l false
  u.modCores fun c => { c with owing := c.owing.filter (· != (h, l)) }

/-- A store. A line with poison in it is written past the caches. -/
def State.coreStore (s : State) (h : HartIx) (a : Nat) (bs : List Byte) : Res State :=
  (s.coreCheck h a bs.length .w).bind fun k =>
    let ls := s.linesAt a bs.length
    match k.1 with
    | .io => .ok (s.writeRegs (.hart h) a bs)
    | .cache =>
      if ls.any s.poisonedLine then .ok (((s.accWrite (coreSrc k.2) a bs).breakResv h ls).sealSweep)
      else
        let t := ls.foldl (State.ownLine k.2 h) (s.breakResv h ls)
        .ok { t with mem := { t.mem with cells := putBytes t.hall.remap t.mem.cells a bs } }
    | _ => .ok (((s.accWrite (coreSrc k.2) a bs).breakResv h ls).sealSweep)

/-! ### The commands of the directory -/

/-- The line of a physical address that the cores can cache. -/
def State.cacheLine (s : State) (a : Nat) : Option Nat :=
  match s.coreAttr a with
  | .cache | .rom => (s.linesAt a 1).head?
  | _ => none

/-- A writeback arrives on the victim channel: the core no longer holds the line. -/
def State.writeback (s : State) (h : HartIx) (l : Nat) : State := if s.cores.cached[h.val].contains l then s.leaveCore h l else s

/-- CORE_WRITEBACK. A core in reset issues nothing (R260). -/
def execCoreWriteback (h : HartIx) (line : Nat) (s : State) : Out :=
  .next (if !s.fabricOn || (s.hart h).inReset then s
    else match s.cacheLine line with
      | some l => s.writeback h l
      | none => s)

/-- A writeback of the victim channel reaches its point of visibility. -/
def State.drainVictim (s : State) (v : HartIx × Nat) : State :=
  ((s.cleanLine v.1 v.2).dropSharer v.1 v.2).modCores fun c => { c with victim := c.victim.filter fun x => x != v }

/-- The accepted writebacks of a line reach their point of visibility. -/
def State.drainVictims (s : State) (l : Nat) : State := (s.cores.victim.filter fun v => v.2 == l).foldl State.drainVictim s

/-- The requests of one fc in the order of the directory's pointer. -/
def dirOrder (ptr : HartIx) (reqs : List DirReq) : List DirReq :=
  ((allFin 4).map fun i => reqs.filter fun r => r.core.val == (ptr.val + i.val) % 4).flatten

/-- A request waits in a pending slot; with none free it is held back at the CPU master port. -/
def Cores.pendReq (c : Cores) (l : Nat) (r : DirReq) : Cores :=
  let p : DirPend := ⟨l, r.core, r.own⟩
  if c.dirPend.length < 64 then { c with dirPend := c.dirPend ++ [p] } else { c with dirHeld := c.dirHeld ++ [p] }

/-- A pending slot is freed: the oldest request at the CPU master port takes it. -/
def Cores.freeSlot (c : Cores) (p : DirPend) : Cores :=
  let q := c.dirPend.erase p
  if q.length < 64 then { c with dirPend := q ++ c.dirHeld.take 1, dirHeld := c.dirHeld.drop 1 } else { c with dirPend := q }

/-- Whether memory can give a line now. -/
def State.lineReady (s : State) (l : Nat) : Ready :=
  if s.heldLine (lineKeys l) then .stall
  else if l < 0x20000000 then (if s.hall.remapNew.isSome then .stall else .ok) else s.ready none l

/-- A core receives a line; one that it asked for to store keeps it until that store is complete (R254). -/
def State.grantLine (s : State) (p : DirPend) : State :=
  let t := s.acquire none p.core p.line p.own
  if p.own then t.modCores fun c => { c with owing := (p.core, p.line) :: c.owing.filter (· != (p.core, p.line)) } else t

/-- DIRECTORY_REQUEST (R253): accepted writebacks come first, then the first request is served and the others wait; a line that memory
cannot give yet keeps it waiting too. -/
def State.dirRequest (s : State) (l : Nat) (wbs : List HartIx) (reqs : List DirReq) : State :=
  let on (h : HartIx) : Bool := !(s.hart h).inReset
  let s1 := ((wbs.filter on).foldl (fun t h => t.writeback h l) s).drainVictims l
  match dirOrder s.cores.dirPtr (reqs.filter fun r => on r.core) with
  | [] => s1
  | r :: rest =>
    let s2 := s1.modCores fun c => { c with dirPtr := ⟨(r.core.val + 1) % 4, by omega⟩ }
    let s3 := if s1.cores.linePends l || ((s1.cores.entry l).isNone && s1.lineReady l != .ok)
      then (s2.wakeWing (decodeAddr s.hall.remap l).wing).modCores fun c => c.pendReq l r
      else s2.grantLine ⟨l, r.core, r.own⟩
    rest.foldl (fun t r => t.modCores fun c => c.pendReq l r) s3

def execDirectoryRequest (line : Nat) (writebacks : List HartIx) (reqs : List DirReq) (s : State) : Out :=
  .next (if !s.fabricOn then s
    else match s.cacheLine line with
      | some l => s.dirRequest l writebacks reqs
      | none => s)

/-- The owner of a line, to which a forward goes: it answers once the store for which it received the line is complete (R254). -/
def Cores.owes (c : Cores) (l : Nat) : Bool := c.owing.any fun x => x.2 == l

/-- DIRECTORY_FORWARD (R253): the oldest pending request of a line is served from the previous owner, whose copy is
invalidated; a line in the victim channel is answered from there, and one that no core holds comes from memory once it can give it. -/
def State.dirForward (s : State) (l : Nat) : State :=
  match s.cores.dirPend.find? fun p => p.line == l with
  | none => s
  | some p =>
    if s.cores.owes l then s
    else
      let s1 := s.drainVictims l
      match s1.cores.entry l with
      | some (.owned k) =>
        let s2 := s1.modCores fun c => c.freeSlot p
        if k = p.core then s2.grantLine p else (s2.forward k p.core l).grantLine p
      | some _ => (s1.modCores fun c => c.freeSlot p).grantLine p
      | none => match s1.lineReady l with
        | .ok => (s1.modCores fun c => c.freeSlot p).grantLine p
        | .busErr => s1.modCores fun c => c.freeSlot p
        | .stall => s1.wakeWing (decodeAddr s.hall.remap l).wing

def execDirectoryForward (line : Nat) (s : State) : Out :=
  .next (if !s.fabricOn then s
    else match s.cacheLine line with
      | some l => s.dirForward l
      | none => s)

end Sys2Proof.Machine
end

