-- ==== Sys2Proof/Machine/HartFloat.lean ====
section
/-!
DEFINITION. The arithmetic of the F and D extensions of the harts (R240): IEEE 754 binary32 and binary64 with the five rounding
modes and the five flags, as the RISC-V unprivileged specification gives them (log 27).
-/
namespace Sys2Proof.Machine

/-- A binary format: exponent and fraction bits. -/
structure XFmt where
  ex : Nat
  fr : Nat
  deriving DecidableEq, Repr

def xf32 : XFmt := ⟨8, 23⟩
def xf64 : XFmt := ⟨11, 52⟩

/-- A value: NaN (signalling or quiet), infinity, or ±m · 2^e. -/
inductive XV
  | nan (signalling : Bool)
  | inf (neg : Bool)
  | fin (neg : Bool) (m : Nat) (e : Int)
  deriving DecidableEq, Repr

/-- The exception flags as fflags numbers them. -/
def flNV : Nat := 16
def flDZ : Nat := 8
def flOF : Nat := 4
def flUF : Nat := 2
def flNX : Nat := 1

def XFmt.bias (f : XFmt) : Int := 2 ^ (f.ex - 1) - 1
/-- The exponent of the last place of the subnormals. -/
def XFmt.qmin (f : XFmt) : Int := 1 - f.bias - f.fr
def XFmt.bits (f : XFmt) : Nat := 1 + f.ex + f.fr
def XFmt.top (f : XFmt) : Nat := 2 ^ f.ex - 1
/-- Bits from sign, exponent field and fraction. -/
def XFmt.pack (f : XFmt) (neg : Bool) (ex fr : Nat) : Nat := b2n neg * 2 ^ (f.ex + f.fr) + ex * 2 ^ f.fr + fr
def XFmt.qnan (f : XFmt) : Nat := f.pack false f.top (2 ^ (f.fr - 1))
def XFmt.infBits (f : XFmt) (neg : Bool) : Nat := f.pack neg f.top 0
def XFmt.zero (f : XFmt) (neg : Bool) : Nat := f.pack neg 0 0

/-- The value of some bits. -/
def XFmt.decode (f : XFmt) (v : Nat) : XV :=
  let neg := decide (v / 2 ^ (f.ex + f.fr) % 2 = 1)
  let ex := v / 2 ^ f.fr % 2 ^ f.ex
  let fr := v % 2 ^ f.fr
  if ex = f.top then (if fr = 0 then .inf neg else .nan (decide (fr < 2 ^ (f.fr - 1))))
  else if ex = 0 then .fin neg fr f.qmin
  else .fin neg (2 ^ f.fr + fr) (ex - f.bias - f.fr)

/-- ±m · 2^e in units of 2^q, rounded: the magnitude, and whether it is inexact. Modes: 0 RNE, 1 RTZ, 2 RDN, 3 RUP, 4 RMM. -/
def roundTo (rm : Nat) (neg : Bool) (m : Nat) (e q : Int) : Nat × Bool :=
  if q ≤ e then (m * 2 ^ (e - q).toNat, false)
  else
    let h := 2 ^ (q - e).toNat
    let k := m / h
    let r := m % h
    let up := match rm with
      | 0 => decide (h < 2 * r) || (decide (2 * r = h) && decide (k % 2 = 1))
      | 2 => neg && decide (r ≠ 0)
      | 3 => !neg && decide (r ≠ 0)
      | 4 => decide (h ≤ 2 * r) && decide (r ≠ 0)
      | _ => false
    (k + b2n up, decide (r ≠ 0))

/-- What an overflow gives. -/
def XFmt.overflow (f : XFmt) (rm : Nat) (neg : Bool) : Nat :=
  let big := match rm with
    | 0 | 4 => false
    | 2 => !neg
    | 3 => neg
    | _ => true
  if big then f.pack neg (f.top - 1) (2 ^ f.fr - 1) else f.infBits neg

/-- Round ±m · 2^e to the format: bits and flags. Tininess is detected after rounding. -/
def XFmt.round (f : XFmt) (rm : Nat) (neg : Bool) (m : Nat) (e : Int) : Nat × Nat :=
  if m = 0 then (f.zero neg, 0)
  else
    let msb : Int := e + Nat.log2 m
    let q := max f.qmin (msb - f.fr)
    let r := roundTo rm neg m e q
    let free := (roundTo rm neg m e (msb - f.fr)).1
    let emin := 1 - f.bias
    let tiny := decide (msb < emin) && !(decide (msb = emin - 1) && free == 2 ^ (f.fr + 1))
    let fl := (if r.2 then flNX else 0) + (if r.2 && tiny then flUF else 0)
    let k := if r.1 = 2 ^ (f.fr + 1) then 2 ^ f.fr else r.1
    let q' := if r.1 = 2 ^ (f.fr + 1) then q + 1 else q
    if k < 2 ^ f.fr then (f.pack neg 0 k, fl)
    else
      let ex := q' + f.fr + f.bias
      if (f.top : Int) ≤ ex then (f.overflow rm neg, flOF + flNX)
      else (f.pack neg ex.toNat (k - 2 ^ f.fr), fl)

/-- Whether a value is a signalling NaN, or any NaN. -/
def XV.snan : XV → Bool
  | .nan s => s
  | _ => false
def XV.isNan : XV → Bool
  | .nan _ => true
  | _ => false
def XV.neg : XV → Bool
  | .inf n => n
  | .fin n _ _ => n
  | .nan _ => false
def XV.flip : XV → XV
  | .inf n => .inf (!n)
  | .fin n m e => .fin (!n) m e
  | x => x

/-- NaN results of an operation on some values. -/
def XFmt.nanOf (f : XFmt) (l : List XV) : Nat × Nat := (f.qnan, if l.any XV.snan then flNV else 0)

/-- A finite value as an integer in units of 2^q. -/
def asInt (neg : Bool) (m : Nat) (e q : Int) : Int := (if neg then -1 else 1) * ((m * 2 ^ (e - q).toNat : Nat) : Int)

/-- The sum of two finite values, rounded. -/
def XFmt.addFin (f : XFmt) (rm : Nat) (n1 : Bool) (m1 : Nat) (e1 : Int) (n2 : Bool) (m2 : Nat) (e2 : Int) : Nat × Nat :=
  let q := min e1 e2
  let s := asInt n1 m1 e1 q + asInt n2 m2 e2 q
  if s = 0 then (f.zero (if m1 = 0 ∧ m2 = 0 ∧ n1 = n2 then n1 else rm == 2), 0)
  else f.round rm (decide (s < 0)) s.natAbs q

def XFmt.add (f : XFmt) (rm : Nat) (a b : XV) : Nat × Nat :=
  match a, b with
  | .fin n1 m1 e1, .fin n2 m2 e2 => f.addFin rm n1 m1 e1 n2 m2 e2
  | .inf x, .inf y => if x = y then (f.infBits x, 0) else (f.qnan, flNV)
  | .inf x, .fin _ _ _ => (f.infBits x, 0)
  | .fin _ _ _, .inf y => (f.infBits y, 0)
  | a, b => f.nanOf [a, b]

def XV.isZero : XV → Bool
  | .fin _ m _ => m == 0
  | _ => false
def XV.isInf : XV → Bool
  | .inf _ => true
  | _ => false

/-- a · b + c with one rounding; `plain` says that there is no addend. -/
def XFmt.fma (f : XFmt) (rm : Nat) (plain : Bool) (a b c : XV) : Nat × Nat :=
  let bad := (a.isZero && b.isInf) || (a.isInf && b.isZero)
  if bad then (f.qnan, flNV)
  else if a.isNan || b.isNan || c.isNan then f.nanOf [a, b, c]
  else
    let neg := a.neg != b.neg
    match a, b, c with
    | .fin _ m1 e1, .fin _ m2 e2, .fin n3 m3 e3 =>
      if plain then f.round rm neg (m1 * m2) (e1 + e2) else f.addFin rm neg (m1 * m2) (e1 + e2) n3 m3 e3
    | .fin _ _ _, .fin _ _ _, .inf n => (f.infBits n, 0)
    | _, _, .inf n => if n = neg then (f.infBits n, 0) else (f.qnan, flNV)
    | _, _, _ => (f.infBits neg, 0)

def XFmt.mul (f : XFmt) (rm : Nat) (a b : XV) : Nat × Nat := f.fma rm true a b (.fin false 0 0)

def XFmt.div (f : XFmt) (rm : Nat) (a b : XV) : Nat × Nat :=
  let neg := a.neg != b.neg
  match a, b with
  | .nan _, _ | _, .nan _ => f.nanOf [a, b]
  | .inf _, .inf _ => (f.qnan, flNV)
  | .inf _, .fin _ _ _ => (f.infBits neg, 0)
  | .fin _ _ _, .inf _ => (f.zero neg, 0)
  | .fin _ m1 e1, .fin _ m2 e2 =>
    if m2 = 0 then (if m1 = 0 then (f.qnan, flNV) else (f.infBits neg, flDZ))
    else
      let k := f.fr + 3 + Nat.log2 m2
      let n := m1 * 2 ^ k
      f.round rm neg (2 * (n / m2) + b2n (n % m2 != 0)) (e1 - e2 - k - 1)

/-- The integer square root, bit by bit from bit k - 1 down. -/
def rootBits (n : Nat) : Nat → Nat → Nat
  | 0, r => r
  | k + 1, r => let t := r + 2 ^ k; rootBits n k (if t * t ≤ n then t else r)

def XFmt.sqrt (f : XFmt) (rm : Nat) (a : XV) : Nat × Nat :=
  match a with
  | .nan _ => f.nanOf [a]
  | .inf true => (f.qnan, flNV)
  | .inf false => (f.infBits false, 0)
  | .fin n m e =>
    if m = 0 then (f.zero n, 0)
    else if n then (f.qnan, flNV)
    else
      let t : Nat := 2 * (f.fr + 3) + (e % 2).toNat
      let v := m * 2 ^ t
      let r := rootBits v (Nat.log2 v / 2 + 1) 0
      f.round rm false (2 * r + b2n (r * r != v)) ((e - t) / 2 - 1)

/-- The order of two values that are not NaN; -0 equals +0. -/
def XV.lt (a b : XV) : Bool :=
  match a, b with
  | .inf x, .inf y => x && !y
  | .inf x, _ => x
  | _, .inf y => !y
  | .fin n1 m1 e1, .fin n2 m2 e2 => let q := min e1 e2; decide (asInt n1 m1 e1 q < asInt n2 m2 e2 q)
  | _, _ => false

/-- FEQ (2), FLT (1), FLE (0), by the function field: the bit and the flags. -/
def xcmp (fn : Nat) (a b : XV) : Nat × Nat :=
  if a.isNan || b.isNan then (0, if fn != 2 || a.snan || b.snan then flNV else 0)
  else match fn with
    | 2 => (b2n (!a.lt b && !b.lt a), 0)
    | 1 => (b2n (a.lt b), 0)
    | _ => (b2n (!b.lt a), 0)

/-- FMIN and FMAX on bits: -0 lies below +0; a NaN gives way to a number. -/
def XFmt.minMax (f : XFmt) (isMax : Bool) (x y : Nat) : Nat × Nat :=
  let a := f.decode x
  let b := f.decode y
  let fl := if a.snan || b.snan then flNV else 0
  if a.isNan && b.isNan then (f.qnan, fl)
  else if a.isNan then (y, fl)
  else if b.isNan then (x, fl)
  else
    let less := a.lt b || (!b.lt a && a.neg && !b.neg)
    (if less != isMax then x else y, fl)

/-- FCLASS. -/
def XFmt.classify (f : XFmt) (v : Nat) : Nat :=
  match f.decode v with
  | .nan s => if s then 256 else 512
  | .inf n => if n then 1 else 128
  | .fin n m _ =>
    if m = 0 then (if n then 8 else 16)
    else if m < 2 ^ f.fr then (if n then 4 else 32)
    else if n then 2 else 64

/-- A value to an integer of w bits, signed or not, saturating: the integer and the flags. -/
def toInt (w : Nat) (sgnd : Bool) (rm : Nat) (a : XV) : Int × Nat :=
  let lo : Int := if sgnd then -(2 ^ (w - 1)) else 0
  let hi : Int := if sgnd then 2 ^ (w - 1) - 1 else 2 ^ w - 1
  match a with
  | .nan _ => (hi, flNV)
  | .inf n => (if n then lo else hi, flNV)
  | .fin n m e =>
    let r := roundTo rm n m e 0
    let v : Int := if n then -(r.1 : Int) else r.1
    if v < lo then (lo, flNV) else if hi < v then (hi, flNV) else (v, if r.2 then flNX else 0)

/-- An integer to the format. -/
def XFmt.ofInt (f : XFmt) (rm : Nat) (v : Int) : Nat × Nat := f.round rm (decide (v < 0)) v.natAbs 0

/-- A value of one format in another. -/
def XFmt.convert (f : XFmt) (rm : Nat) (a : XV) : Nat × Nat :=
  match a with
  | .nan s => (f.qnan, if s then flNV else 0)
  | .inf n => (f.infBits n, 0)
  | .fin n m e => f.round rm n m e

end Sys2Proof.Machine
end

