-- ==== Sys2Proof/Machine/HartCsr.lean ====
section
/-!
DEFINITION. Control and status registers of the harts, traps and interrupts (R240, R241, R245, R246): the RISC-V privileged
architecture with M, S and U modes, within the limits that R240 states (log 27).
-/
namespace Sys2Proof.Machine

/-! ### Registers -/

/-- x register i; x0 reads zero. -/
def Hart.getX (h : Hart) (i : Nat) : Word := if i = 0 then 0 else (h.x[i]?).getD 0

/-- Write x register i; writes of x0 have no effect. -/
def Hart.setX (h : Hart) (i : Nat) (v : Word) : Hart :=
  if i = 0 then h else { h with x := vset h.x (toFin 32 (by omega) i) v }

/-! ### mstatus -/

/-- The writable bits of mstatus and of sstatus. -/
def mstatusMask : Word := 0x7E79AA
def sstatusMask : Word := 0xC6122

/-- mstatus as it reads: SXL and UXL are 64-bit, SD follows FS. -/
def Hart.mstatus (h : Hart) : Word :=
  let v := h.csr 0x300
  v ||| 0xA00000000 ||| (if fld v 14 13 = 3 then 0x8000000000000000 else 0)

/-- A write of mstatus bits: a reserved MPP leaves MPP. -/
def Hart.setMstatus (h : Hart) (mask v : Word) : Hart :=
  let old := h.csr 0x300
  let w := (old &&& ~~~(mask &&& mstatusMask)) ||| (v &&& mask &&& mstatusMask)
  h.setCsr 0x300 (if fld w 12 11 = 2 then setFld w 11 2 (fld old 12 11) else w)

/-- FS: whether floating-point state is off, and its mark as changed. -/
def Hart.fpOff (h : Hart) : Bool := fld (h.csr 0x300) 14 13 == 0
def Hart.fpDirty (h : Hart) : Hart := h.setCsr 0x300 (h.csr 0x300 ||| 0x6000)

/-! ### Interrupts -/

/-- mip of a hart: the ACLINT, the PLIC, and the bits that software writes. -/
def State.mip (s : State) (h : HartIx) : Word :=
  let x := s.hart h
  let sw := x.csr 0x344
  at_ (b2n (x.ssip || bitAt sw 1)) 1 ||| at_ (b2n x.msip) 3 ||| at_ (b2n (bitAt sw 5)) 5 ||| at_ (b2n (s.mtip h)) 7
    ||| at_ (b2n (bitAt sw 9 || s.plicIrq ⟨2 * h.val + 1, by omega⟩)) 9 ||| at_ (b2n (s.plicIrq ⟨2 * h.val, by omega⟩)) 11

/-- The interrupt that a hart takes now, by the order of the privileged architecture: MEI, MSI, MTI, SEI, SSI, STI. -/
def State.takeIrq (s : State) (h : HartIx) : Option Nat :=
  let x := s.hart h
  let p := s.mip h &&& x.csr 0x304
  let st := x.csr 0x300
  let mOn := x.priv != 3 || bitAt st 3
  let sOn := x.priv == 0 || (x.priv == 1 && bitAt st 1)
  let deleg (i : Nat) : Bool := bitAt (x.csr 0x303) i
  let first (f : Nat → Bool) : Option Nat := [11, 3, 7, 9, 1, 5].find? fun i => bitAt p i && f i
  match (if mOn then first fun i => !deleg i else none) with
  | some i => some i
  | none => if sOn then first deleg else none

/-! ### Traps -/

/-- The address of a trap handler: vectored for interrupts. -/
def tvecTo (tvec : Word) (irq : Bool) (cause : Nat) : Word :=
  let b := tvec &&& ~~~3
  if irq && bitAt tvec 0 then b + BitVec.ofNat 64 (4 * cause) else b

/-- Take an exception or an interrupt: delegated to S-mode as medeleg and mideleg say, else in M-mode. -/
def Hart.trap (h : Hart) (irq : Bool) (cause : Nat) (tval : Word) : Hart :=
  let deleg := h.priv != 3 && bitAt (h.csr (if irq then 0x303 else 0x302)) cause
  let code := at_ cause 0 ||| at_ (b2n irq) 63
  let st := h.csr 0x300
  if deleg then
    let st1 := setFld (setFld (setFld st 5 1 (b2n (bitAt st 1))) 1 1 0) 8 1 (h.priv.toNat % 2)
    { ((((h.setCsr 0x300 st1).setCsr 0x141 h.pc).setCsr 0x142 code).setCsr 0x143 tval) with
      priv := 1, pc := tvecTo (h.csr 0x105) irq cause, wfi := false }
  else
    let st1 := setFld (setFld (setFld st 7 1 (b2n (bitAt st 3))) 3 1 0) 11 2 h.priv.toNat
    { ((((h.setCsr 0x300 st1).setCsr 0x341 h.pc).setCsr 0x342 code).setCsr 0x343 tval) with
      priv := 3, pc := tvecTo (h.csr 0x305) irq cause, wfi := false }

/-- MRET. -/
def Hart.mret (h : Hart) : Hart :=
  let st := h.csr 0x300
  let mpp := fld st 12 11
  let st1 := setFld (setFld (setFld st 3 1 (b2n (bitAt st 7))) 7 1 1) 11 2 0
  { (h.setCsr 0x300 (if mpp = 3 then st1 else setFld st1 17 1 0)) with priv := BitVec.ofNat 2 mpp, pc := h.csr 0x341 }

/-- SRET. -/
def Hart.sret (h : Hart) : Hart :=
  let st := h.csr 0x300
  let spp := fld st 8 8
  let st1 := setFld (setFld (setFld (setFld st 1 1 (b2n (bitAt st 5))) 5 1 1) 8 1 0) 17 1 0
  { (h.setCsr 0x300 st1) with priv := BitVec.ofNat 2 spp, pc := h.csr 0x141 }

/-! ### Debug mode (R338, RISC-V External Debug 0.13.2) -/

/-- A hart enters debug mode: dpc and dcsr take the pc, the cause and the mode. -/
def Hart.halt (h : Hart) (cause : Nat) : Hart :=
  let d := (h.csr 0x7B0 &&& 0xBE14) ||| at_ cause 6 ||| at_ h.priv.toNat 0 ||| 0x40000000
  { ((h.setCsr 0x7B0 d).setCsr 0x7B1 h.pc) with halted := true, priv := 3 }

/-- A hart leaves debug mode at dpc, in the mode of dcsr. -/
def Hart.unhalt (h : Hart) : Hart :=
  let p := fld (h.csr 0x7B0) 1 0
  { h with halted := false, resumeAck := true, pc := h.csr 0x7B1, priv := if p = 2 then h.priv else BitVec.ofNat 2 p }

/-- Whether EBREAK enters debug mode: the bit of dcsr of the mode. -/
def Hart.ebreaks (h : Hart) : Bool := bitAt (h.csr 0x7B0) (12 + h.priv.toNat)

/-- After a single step the hart halts again. -/
def Hart.stepped (h : Hart) : Hart := if bitAt (h.csr 0x7B0) 2 && !h.halted then h.halt 4 else h

/-! ### PMP (16 entries, granularity 4 KiB) -/

/-- The configuration byte and the address register of entry i. -/
def Hart.pmpCfg (h : Hart) (i : Nat) : Nat := fld (h.csr (0x3A0 + i / 8 * 2)) (8 * (i % 8) + 7) (8 * (i % 8))
def Hart.pmpAddr (h : Hart) (i : Nat) : Nat := fld (h.csr (0x3B0 + i)) 45 0

/-- pmpaddr as it reads under its granularity. -/
def Hart.pmpRead (h : Hart) (i : Nat) : Word :=
  let v := h.csr (0x3B0 + i)
  if h.pmpCfg i / 16 % 2 = 1 then v ||| 0x1FF else v &&& ~~~0x3FF

/-- The number of low ones of a word, at most n. -/
def lowOnes (v : Nat) : Nat → Nat
  | 0 => 0
  | n + 1 => if v % 2 = 1 then 1 + lowOnes (v / 2) n else 0

/-- The range of entry i: first byte and the byte after the last. -/
def Hart.pmpRange (h : Hart) (i : Nat) : Nat × Nat :=
  match h.pmpCfg i / 8 % 4 with
  | 1 => (if i = 0 then 0 else h.pmpAddr (i - 1) / 1024 * 4096, h.pmpAddr i / 1024 * 4096)
  | 3 =>
    let v := (h.pmpRead i).toNat
    let k := 2 ^ (lowOnes v 46 + 3)
    (4 * v / k * k, 4 * v / k * k + k)
  | _ => (0, 0)

/-- Whether PMP lets an access pass: the lowest entry that meets it must hold all of it and permit it. Locked entries bind M-mode. -/
def Hart.pmpOk (h : Hart) (priv : BitVec 2) (a n : Nat) (q : Perm) : Bool :=
  match (List.range 16).find? fun i => let r := h.pmpRange i; decide (a < r.2) && decide (r.1 < a + n) with
  | none => priv == 3
  | some i =>
    let r := h.pmpRange i
    let c := h.pmpCfg i
    decide (r.1 ≤ a) && decide (a + n ≤ r.2)
      && ((priv == 3 && c / 128 == 0) || (match q with
        | .r => c % 2 == 1
        | .w => c / 2 % 2 == 1
        | .x => c / 4 % 2 == 1
        | .u => c / 2 % 2 == 1))

/-- A byte of pmpcfg as it is taken: a locked entry and NA4 leave it, W without R loses W. -/
def pmpByte (old v : Nat) : Nat :=
  if 128 ≤ old ∨ v / 8 % 4 = 2 then old
  else let b := v % 32 + v / 128 * 128
    if b % 4 = 2 then b - 2 else b

/-- A write of pmpcfg0 or pmpcfg2. -/
def pmpCfgWrite (old v : Word) : Word :=
  BitVec.ofNat 64 (digits 8 (fun i => pmpByte (fld old (8 * i + 7) (8 * i)) (fld v (8 * i + 7) (8 * i))) 0 8)

/-- Whether pmpaddr i is locked: its entry, or a locked TOR entry above it. -/
def Hart.pmpLocked (h : Hart) (i : Nat) : Bool :=
  decide (128 ≤ h.pmpCfg i) || (decide (i < 15) && decide (128 ≤ h.pmpCfg (i + 1)) && h.pmpCfg (i + 1) / 8 % 4 == 1)

/-! ### Performance counters (R256, R257) -/

/-- The event that counter 3 + i counts; none while mcountinhibit stops the counter. -/
def Hart.hpmEvent (h : Hart) (i : Nat) : Nat := if bitAt (h.csr 0x320) (3 + i) then 0 else (h.csr (0x323 + i)).toNat

/-- Each counter adds what happened of its event. -/
def Hart.hpmAdd (h : Hart) (ev : Nat → Nat) : Hart :=
  (List.range 29).foldl (fun g i =>
    let k := ev (h.hpmEvent i)
    if k = 0 then g else g.setCsr (0xB03 + i) (g.csr (0xB03 + i) + BitVec.ofNat 64 k)) h

/-- Whether some counter counts an event of an instruction that retires or of a branch. -/
def Hart.hpmOn (h : Hart) : Bool := (List.range 29).any fun i =>
  let e := h.hpmEvent i
  (decide (1 ≤ e) && decide (e < 0x20)) || e == 0x40 || e == 0x41 || e == 0x44

/-- What an instruction adds to each event, given three free words: whether it counts as events 0x01-0x1F, which are not named; and where
it is a branch, whether it was mispredicted, and then the instructions issued on the wrong path and the cc spent recovering (R257, log 53). -/
def hpmAmount (branch : Bool) (a b c : Nat) (e : Nat) : Nat :=
  let missed := branch && a / 2 ^ 32 % 2 == 1
  if 1 ≤ e ∧ e < 0x20 then a / 2 ^ e % 2
  else if e = 0x41 then b2n missed
  else if e = 0x40 then (if missed then b else 0)
  else if e = 0x44 then (if missed then c else 0)
  else 0

/-- The events of an instruction that retires. -/
def State.hpmRetire (s : State) (hx : HartIx) (branch : Bool) : State :=
  if (s.hart hx).hpmOn then
    let a := s.draw
    let b := a.2.draw
    let c := b.2.draw
    c.2.modHart hx fun h => h.hpmAdd (hpmAmount branch a.1.toNat b.1.toNat c.1.toNat)
  else s

/-! ### Reads and writes of CSRs -/

/-- Whether a counter CSR can be read in the mode of a hart. -/
def Hart.counterOn (h : Hart) (i : Nat) : Bool :=
  h.priv == 3 || (bitAt (h.csr 0x306) i && (h.priv == 1 || bitAt (h.csr 0x106) i))

/-- The value that a CSR reads, where the hart has it. -/
def State.csrRead (s : State) (hx : HartIx) (n : Nat) : Option Word :=
  let h := s.hart hx
  if n = 0x001 then (if h.fpOff then none else some (h.csr 0x003 &&& 0x1F))
  else if n = 0x002 then (if h.fpOff then none else some ((h.csr 0x003 >>> 5) &&& 7))
  else if n = 0x003 then (if h.fpOff then none else some (h.csr 0x003))
  else if 0xC00 ≤ n ∧ n < 0xC20 then
    if !h.counterOn (n - 0xC00) then none
    else if n = 0xC01 then some (at_ s.mtime 0)
    else some (h.csr (n - 0x100))
  else if n = 0x100 then some ((h.mstatus &&& sstatusMask) ||| (h.mstatus &&& 0x8000000300000000))
  else if n = 0x104 then some (h.csr 0x304 &&& h.csr 0x303)
  else if n = 0x144 then some (s.mip hx &&& h.csr 0x303)
  else if n = 0x180 then (if h.priv = 1 ∧ bitAt (h.csr 0x300) 20 then none else some (h.csr n))
  else if n = 0x300 then some h.mstatus
  else if n = 0x301 then some 0x800000000014112D
  else if n = 0x344 then some (s.mip hx)
  else if 0x3B0 ≤ n ∧ n < 0x3C0 then some (h.pmpRead (n - 0x3B0))
  else if n = 0xF11 ∨ n = 0xF12 ∨ n = 0xF13 then some (Config.hartOpen n 0)
  else if n = 0xF14 then some (at_ hx.val 0)
  else if n ∈ [0x105, 0x106, 0x10A, 0x140, 0x141, 0x142, 0x143, 0x302, 0x303, 0x304, 0x305, 0x306, 0x30A, 0x320, 0x340, 0x341, 0x342,
      0x343, 0x3A0, 0x3A2, 0xB00, 0xF15] then some (h.csr n)
  else if 0x7B0 ≤ n ∧ n < 0x7B4 then (if h.halted then some (h.csr n) else none)
  else if (0x323 ≤ n ∧ n < 0x340) ∨ (0xB02 ≤ n ∧ n < 0xB20) then some (h.csr n)
  else none

/-- A write of a CSR that exists. -/
def Hart.csrWrite (h : Hart) (n : Nat) (v : Word) : Hart :=
  let plain := h.setCsr n v
  match n with
  | 0x001 => (h.setCsr 0x003 ((h.csr 0x003 &&& 0xE0) ||| (v &&& 0x1F))).fpDirty
  | 0x002 => (h.setCsr 0x003 ((h.csr 0x003 &&& 0x1F) ||| ((v &&& 7) <<< 5))).fpDirty
  | 0x003 => (h.setCsr 0x003 (v &&& 0xFF)).fpDirty
  | 0x100 => h.setMstatus sstatusMask v
  | 0x300 => h.setMstatus mstatusMask v
  | 0x104 => let m := h.csr 0x303; h.setCsr 0x304 ((h.csr 0x304 &&& ~~~m) ||| (v &&& m &&& 0xAAA))
  | 0x304 => h.setCsr n (v &&& 0xAAA)
  | 0x144 =>
    if bitAt (h.csr 0x303) 1 then { (h.setCsr 0x344 (h.csr 0x344 &&& ~~~2)) with ssip := bitAt v 1 } else h
  | 0x344 => { (h.setCsr 0x344 (v &&& 0x220)) with ssip := bitAt v 1 }
  | 0x302 => h.setCsr n (v &&& 0xB3FF)
  | 0x303 => h.setCsr n (v &&& 0x222)
  | 0x105 | 0x305 => h.setCsr n (v &&& ~~~2)
  | 0x106 | 0x306 => h.setCsr n (v &&& 0xFFFFFFFF)
  | 0x320 => h.setCsr n (v &&& 0xFFFFFFFD)
  | 0x141 | 0x341 => h.setCsr n (v &&& ~~~1)
  | 0x180 => if fld v 63 60 = 0 ∨ fld v 63 60 = 9 then plain else h
  | 0x301 | 0x10A | 0x30A => h
  | 0x7B0 => h.setCsr n ((h.csr n &&& 0xF00001C0) ||| (v &&& 0xBE17))
  | 0x7B1 => h.setCsr n (v &&& ~~~1)
  | 0x3A0 | 0x3A2 => h.setCsr n (pmpCfgWrite (h.csr n) v)
  | 0xB02 => h.setCsr n (if bitAt (h.csr 0x320) 2 then v else v - 1)
  | _ =>
    if 0x3B0 ≤ n ∧ n < 0x3C0 then (if h.pmpLocked (n - 0x3B0) then h else h.setCsr n (v &&& 0x3FFFFFFFFFFF))
    else plain

end Sys2Proof.Machine
end

