-- ==== Sys2Proof/Machine/Clock.lean ====
section
/-!
DEFINITION. What one hearth cycle of 40 ns does when no command waits (log 8): what passes with it (R84, R235, R267, R269, R292), the errors
that ECC finds in the arrays that no command reads for it (R58, R350), the writebacks that the directory has accepted (R253), the accesses
whose targets can take them now (R16, R40, R41), and what the host ports send in normal order (R222).
-/
namespace Sys2Proof.Machine

/-- A port sends what it has queued in normal order: at once in L0, once its bypass lane is empty, whose head goes first (R222); a link in
L1 first returns to L0. -/
def HostPort.tickHc (p : HostPort) : HostPort :=
  if p.egress.isEmpty || p.d3hot || !p.lane.isEmpty then p
  else if p.lstate = 1 then { p with egress := [], sent := p.sent ++ p.egress.flatMap p.tlps }
  else p.toL0

/-! ### Errors in arrays (R58, R350, log 31) -/

/-- A row of a valid register takes a single-bit or a double-bit error. -/
def Tile.upset (t : Tile) (r : Fin 64) (double : Bool) : Tile :=
  if !t.valid then t
  else if double then { t with bad := t.bad ||| (1 <<< r.val) } else { t with weak := t.weak ||| (1 <<< r.val) }

/-- Register k of a glove: T0-T15, then A0-A3. -/
def Glove.upset (g : Glove) (k : Fin 20) (r : Fin 64) (double : Bool) : Glove :=
  if h : k.val < 16 then { g with tile := vmod g.tile ⟨k.val, h⟩ fun t => t.upset r double }
  else { g with acc := vmod g.acc ⟨k.val - 16, by omega⟩ fun t => t.upset r double }

/-- An error in a tile file or in accumulators, if one strikes in this cycle. -/
def State.tileUpset (s : State) : State :=
  match Config.tileUpset s.now s.draws with
  | some (e, g, k, r, double) => s.modGlv ⟨toFin 16 (by omega) e, toFin 4 (by omega) g⟩ fun x =>
      x.upset (toFin 20 (by omega) k) (toFin 64 (by omega) r) double
  | none => s

/-- An error that is found in Hall SRAM in this cycle, if any. -/
def State.sramUpset (s : State) : State :=
  match Config.sramUpset s.now s.draws with
  | some (o, double) => s.eccAt (0x10000000 + o % 0x1000000) (if double then .double else .single)
  | none => s

/-- STATE_UE of a state array: of an engine, of a wing, of the Hall. -/
def State.stateUe (s : State) (n : Nat) : State :=
  let t := s.modHall fun h => { h with ueState := satAdd h.ueState 1 }
  if n < 16 then t.report { code := 0x50, scope := 3, unit := n }
  else if n < 20 then t.report { code := 0x50, scope := 4, unit := n - 16 }
  else t.report { code := 0x50, scope := 5, unit := 15 }

/-- A double-bit error that is found in a state array in this cycle, if any. -/
def State.stateUpset (s : State) : State :=
  match Config.stateUpset s.now s.draws with
  | some n => s.stateUe (n % 21)
  | none => s

/-! ### The cycle -/

/-- The Hall fabric's part of a hearth cycle. -/
def State.fabricHc (s : State) : State := (s.cores.victim.foldl (fun t v => t.drainVictims v.2) s.sramUpset.stateUpset).serveHeld

/-- One hearth cycle of the block. -/
def State.tickHc (s : State) : State :=
  let t := s.passHc 1
  if s.alive then
    let u : State := { t.tileUpset with ports := t.ports.map HostPort.tickHc }
    if s.fabricOn then u.fabricHc else u
  else t

end Sys2Proof.Machine
end

