-- ==== Sys2Proof/Machine/Crypto.lean ====
section
/-!
DEFINITION. SHA-256 and the verification of ECDSA signatures over P-256 (R248 names them; FIPS 180-4 and FIPS 186-4 define them,
log 28).
-/
namespace Sys2Proof.Machine

/-! ### SHA-256 -/

/-- The round constants. -/
def shaKA : List Nat := [
  0x428A2F98, 0x71374491, 0xB5C0FBCF, 0xE9B5DBA5, 0x3956C25B, 0x59F111F1, 0x923F82A4, 0xAB1C5ED5,
  0xD807AA98, 0x12835B01, 0x243185BE, 0x550C7DC3, 0x72BE5D74, 0x80DEB1FE, 0x9BDC06A7, 0xC19BF174,
  0xE49B69C1, 0xEFBE4786, 0x0FC19DC6, 0x240CA1CC, 0x2DE92C6F, 0x4A7484AA, 0x5CB0A9DC, 0x76F988DA,
  0x983E5152, 0xA831C66D, 0xB00327C8, 0xBF597FC7, 0xC6E00BF3, 0xD5A79147, 0x06CA6351, 0x14292967]
def shaKB : List Nat := [
  0x27B70A85, 0x2E1B2138, 0x4D2C6DFC, 0x53380D13, 0x650A7354, 0x766A0ABB, 0x81C2C92E, 0x92722C85,
  0xA2BFE8A1, 0xA81A664B, 0xC24B8B70, 0xC76C51A3, 0xD192E819, 0xD6990624, 0xF40E3585, 0x106AA070,
  0x19A4C116, 0x1E376C08, 0x2748774C, 0x34B0BCB5, 0x391C0CB3, 0x4ED8AA4A, 0x5B9CCA4F, 0x682E6FF3,
  0x748F82EE, 0x78A5636F, 0x84C87814, 0x8CC70208, 0x90BEFFFA, 0xA4506CEB, 0xBEF9A3F7, 0xC67178F2]
def shaK : List Nat := shaKA ++ shaKB

/-- The initial hash value. -/
def shaH : List Nat := [
  0x6A09E667, 0xBB67AE85, 0x3C6EF372, 0xA54FF53A, 0x510E527F, 0x9B05688C, 0x1F83D9AB, 0x5BE0CD19]

/-- A sum modulo 2^32, and a rotation to the right of 32 bits. -/
def add32 (l : List Nat) : Nat := l.foldl (· + ·) 0 % 2 ^ 32
def rot32 (v k : Nat) : Nat := v / 2 ^ k + v % 2 ^ k * 2 ^ (32 - k)

/-- A big-endian number. -/
def beNat (l : List Byte) : Nat := l.foldl (fun n b => n * 256 + b.toNat) 0

/-- The message schedule grows by n words; the list holds the newest word first. -/
def shaGrow : Nat → List Nat → List Nat
  | 0, w => w
  | n + 1, w =>
    let a := w.getD 14 0
    let b := w.getD 1 0
    let s0 := Nat.xor (Nat.xor (rot32 a 7) (rot32 a 18)) (a / 2 ^ 3)
    let s1 := Nat.xor (Nat.xor (rot32 b 17) (rot32 b 19)) (b / 2 ^ 10)
    shaGrow n (add32 [w.getD 15 0, s0, w.getD 6 0, s1] :: w)

/-- The words of a block, first word first. -/
def shaWords : Nat → List Byte → List Nat
  | 0, _ => []
  | n + 1, l => beNat (l.take 4) :: shaWords n (l.drop 4)

/-- The eight working variables. -/
structure ShaV where
  a : Nat
  b : Nat
  c : Nat
  d : Nat
  e : Nat
  f : Nat
  g : Nat
  h : Nat
  deriving DecidableEq, Repr

/-- One round. -/
def shaRound (v : ShaV) (kw : Nat × Nat) : ShaV :=
  let s1 := Nat.xor (Nat.xor (rot32 v.e 6) (rot32 v.e 11)) (rot32 v.e 25)
  let ch := Nat.xor (Nat.land v.e v.f) (Nat.land (2 ^ 32 - 1 - v.e) v.g)
  let t1 := add32 [v.h, s1, ch, kw.1, kw.2]
  let s0 := Nat.xor (Nat.xor (rot32 v.a 2) (rot32 v.a 13)) (rot32 v.a 22)
  let maj := Nat.xor (Nat.xor (Nat.land v.a v.b) (Nat.land v.a v.c)) (Nat.land v.b v.c)
  ⟨add32 [t1, s0, maj], v.a, v.b, v.c, add32 [v.d, t1], v.e, v.f, v.g⟩

/-- One block of 64 bytes. -/
def shaBlock (v : ShaV) (blk : List Byte) : ShaV :=
  let w := (shaGrow 48 (shaWords 16 blk).reverse).reverse
  let x := (shaK.zip w).foldl shaRound v
  ⟨add32 [v.a, x.a], add32 [v.b, x.b], add32 [v.c, x.c], add32 [v.d, x.d], add32 [v.e, x.e], add32 [v.f, x.f], add32 [v.g, x.g],
    add32 [v.h, x.h]⟩

/-- The blocks of a padded message. -/
def shaBlocks : Nat → List Byte → ShaV → ShaV
  | 0, _, v => v
  | n + 1, l, v => shaBlocks n (l.drop 64) (shaBlock v (l.take 64))

/-- The padding of a message of n bytes. -/
def shaPad (n : Nat) : List Byte := 0x80 :: List.replicate ((119 - n % 64) % 64) 0 ++ (toBytes 8 (8 * n)).reverse

/-- The start value of the working variables. -/
def shaInit : ShaV :=
  ⟨shaH.getD 0 0, shaH.getD 1 0, shaH.getD 2 0, shaH.getD 3 0, shaH.getD 4 0, shaH.getD 5 0, shaH.getD 6 0, shaH.getD 7 0⟩

/-- SHA-256 of some bytes, as a big-endian number. -/
def sha256 (l : List Byte) : Nat :=
  let m := l ++ shaPad l.length
  let v := shaBlocks (m.length / 64) m shaInit
  [v.a, v.b, v.c, v.d, v.e, v.f, v.g, v.h].foldl (fun n x => n * 2 ^ 32 + x) 0

/-! ### P-256 -/

/-- The field, the order, the coefficient b and the base point. -/
def p256p : Nat := 2 ^ 256 - 2 ^ 224 + 2 ^ 192 + 2 ^ 96 - 1
def p256n : Nat := 0xFFFFFFFF00000000FFFFFFFFFFFFFFFFBCE6FAADA7179E84F3B9CAC2FC632551
def p256b : Nat := 0x5AC635D8AA3A93E7B3EBBD55769886BC651D06B0CC53B0F63BCE3C3E27D2604B
def p256gx : Nat := 0x6B17D1F2E12C4247F8BCE6E563A440F277037D812DEB33A0F4A13945D898C296
def p256gy : Nat := 0x4FE342E2FE1A7F9B8EE7EB4A7C0F9E162BCE33576B315ECECBB6406837BF51F5

/-- a^e modulo m, over the n low bits of e, from the highest. -/
def powMod (m a e : Nat) : Nat → Nat → Nat
  | 0, r => r
  | n + 1, r => powMod m a e n (if e / 2 ^ n % 2 = 1 then r * r % m * a % m else r * r % m)

/-- The inverse modulo a prime. -/
def invMod (m a : Nat) : Nat := powMod m (a % m) (m - 2) 256 1

/-- Points of the curve; none is the point at infinity. -/
abbrev EcPt := Option (Nat × Nat)

/-- The point on the line of slope l through a point, reflected. -/
def ecLine (l x1 y1 x2 : Nat) : EcPt :=
  let p := p256p
  let x3 := (l * l + 2 * p - x1 - x2) % p
  some (x3, (l * (x1 + p - x3) + p - y1) % p)

/-- The sum of two points. -/
def ecAdd (a b : EcPt) : EcPt :=
  let p := p256p
  match a, b with
  | none, b => b
  | a, none => a
  | some (x1, y1), some (x2, y2) =>
    if x1 = x2 then
      if (y1 + y2) % p = 0 then none
      else ecLine (((3 * x1 * x1 + p - 3) % p) * invMod p (2 * y1) % p) x1 y1 x1
    else ecLine ((y2 + p - y1) * invMod p (x2 + p - x1) % p) x1 y1 x2

/-- k times a point, over the n low bits of k from the highest. -/
def ecMul (q : EcPt) (k : Nat) : Nat → EcPt → EcPt
  | 0, r => r
  | n + 1, r => let d := ecAdd r r; ecMul q k n (if k / 2 ^ n % 2 = 1 then ecAdd d q else d)

/-- Whether a pair is a point of the curve. -/
def onCurve (x y : Nat) : Bool :=
  let p := p256p
  decide (x < p) && decide (y < p) && y * y % p == (x * x * x + (p - 3) * x + p256b) % p

/-- Whether (r, s) signs a digest under the key (x, y). -/
def ecdsaOk (x y r s digest : Nat) : Bool :=
  let n := p256n
  onCurve x y && decide (0 < r) && decide (r < n) && decide (0 < s) && decide (s < n)
    && (let w := invMod n s
        match ecAdd (ecMul (some (p256gx, p256gy)) (digest * w % n) 256 none) (ecMul (some (x, y)) (r * w % n) 256 none) with
        | none => false
        | some (u, _) => u % n == r)

end Sys2Proof.Machine
end

