-- ==== Sys2Proof/Machine/HartAlu.lean ====
section
/-!
DEFINITION. Encodings of the harts' instructions: fields and immediates, the expansion of the C extension, and the integer
operations of RV64I, M, Zba and Zbb (R240, log 27).
-/
namespace Sys2Proof.Machine

/-! ### Fields of an instruction -/

def iOp (e : Nat) : Nat := e % 128
def iRd (e : Nat) : Nat := e / 2 ^ 7 % 32
def iF3 (e : Nat) : Nat := e / 2 ^ 12 % 8
def iRs1 (e : Nat) : Nat := e / 2 ^ 15 % 32
def iRs2 (e : Nat) : Nat := e / 2 ^ 20 % 32
def iF7 (e : Nat) : Nat := e / 2 ^ 25 % 128
def iImm12 (e : Nat) : Nat := e / 2 ^ 20 % 4096

/-- The low w bits of a number, sign-extended to a word. -/
def sx (w v : Nat) : Word := BitVec.ofInt 64 (sgn w v)

def rvI (e : Nat) : Word := sx 12 (iImm12 e)
def rvS (e : Nat) : Word := sx 12 (iF7 e * 32 + iRd e)
def rvB (e : Nat) : Word :=
  sx 13 (e / 2 ^ 31 % 2 * 2 ^ 12 + e / 2 ^ 7 % 2 * 2 ^ 11 + e / 2 ^ 25 % 64 * 32 + e / 2 ^ 8 % 16 * 2)
def rvU (e : Nat) : Word := sx 32 (e / 2 ^ 12 % 2 ^ 20 * 2 ^ 12)
def rvJ (e : Nat) : Word :=
  sx 21 (e / 2 ^ 31 % 2 * 2 ^ 20 + e / 2 ^ 12 % 256 * 2 ^ 12 + e / 2 ^ 20 % 2 * 2 ^ 11 + e / 2 ^ 21 % 1024 * 2)

/-! ### Words from fields -/

def encR (op f3 f7 rd rs1 rs2 : Nat) : Nat := op + rd * 2 ^ 7 + f3 * 2 ^ 12 + rs1 * 2 ^ 15 + rs2 * 2 ^ 20 + f7 * 2 ^ 25
def encI (op f3 rd rs1 imm : Nat) : Nat := op + rd * 2 ^ 7 + f3 * 2 ^ 12 + rs1 * 2 ^ 15 + imm % 4096 * 2 ^ 20
def encS (op f3 rs1 rs2 imm : Nat) : Nat :=
  op + imm % 32 * 2 ^ 7 + f3 * 2 ^ 12 + rs1 * 2 ^ 15 + rs2 * 2 ^ 20 + imm / 32 % 128 * 2 ^ 25
def encB (f3 rs1 rs2 imm : Nat) : Nat :=
  0x63 + imm / 2 ^ 11 % 2 * 2 ^ 7 + imm / 2 % 16 * 2 ^ 8 + f3 * 2 ^ 12 + rs1 * 2 ^ 15 + rs2 * 2 ^ 20 + imm / 32 % 64 * 2 ^ 25
    + imm / 2 ^ 12 % 2 * 2 ^ 31
def encJ (rd imm : Nat) : Nat :=
  0x6F + rd * 2 ^ 7 + imm / 2 ^ 12 % 256 * 2 ^ 12 + imm / 2 ^ 11 % 2 * 2 ^ 20 + imm / 2 % 1024 * 2 ^ 21 + imm / 2 ^ 20 % 2 * 2 ^ 31

/-! ### The C extension: the 32-bit word that a 16-bit one stands for -/

/-- Bits [hi:lo] of a compressed word. -/
def cf (c hi lo : Nat) : Nat := c / 2 ^ lo % 2 ^ (hi + 1 - lo)

/-- The signed 6-bit immediate, as a 12-bit or 21-bit field. -/
def cImm6 (c : Nat) : Nat := (sx 6 (cf c 12 12 * 32 + cf c 6 2)).toNat
/-- Registers x8-x15 by three bits. -/
def cReg (c lo : Nat) : Nat := 8 + cf c (lo + 2) lo

/-- Quadrant 0. -/
def expand0 (c : Nat) : Option Nat :=
  let rd := cReg c 2
  let rs := cReg c 7
  let d := cf c 12 10 * 8 + cf c 6 5 * 64
  let w := cf c 12 10 * 8 + cf c 6 6 * 4 + cf c 5 5 * 64
  match cf c 15 13 with
  | 0 =>
    let i := cf c 12 11 * 16 + cf c 10 7 * 64 + cf c 6 6 * 4 + cf c 5 5 * 8
    if i = 0 then none else some (encI 0x13 0 rd 2 i)
  | 1 => some (encI 0x07 3 rd rs d)
  | 2 => some (encI 0x03 2 rd rs w)
  | 3 => some (encI 0x03 3 rd rs d)
  | 5 => some (encS 0x27 3 rs rd d)
  | 6 => some (encS 0x23 2 rs rd w)
  | 7 => some (encS 0x23 3 rs rd d)
  | _ => none

/-- The register-register group of quadrant 1. -/
def expandAlu (c : Nat) : Option Nat :=
  let rd := cReg c 7
  let r2 := cReg c 2
  match cf c 11 10 with
  | 0 => some (encI 0x13 5 rd rd (cf c 12 12 * 32 + cf c 6 2))
  | 1 => some (encI 0x13 5 rd rd (cf c 12 12 * 32 + cf c 6 2 + 0x400))
  | 2 => some (encI 0x13 7 rd rd (cImm6 c))
  | _ =>
    match cf c 12 12, cf c 6 5 with
    | 0, 0 => some (encR 0x33 0 0x20 rd rd r2)
    | 0, 1 => some (encR 0x33 4 0 rd rd r2)
    | 0, 2 => some (encR 0x33 6 0 rd rd r2)
    | 0, _ => some (encR 0x33 7 0 rd rd r2)
    | _, 0 => some (encR 0x3B 0 0x20 rd rd r2)
    | _, 1 => some (encR 0x3B 0 0 rd rd r2)
    | _, _ => none

/-- Quadrant 1. -/
def expand1 (c : Nat) : Option Nat :=
  let rd := cf c 11 7
  let j := (sx 12 (cf c 12 12 * 2 ^ 11 + cf c 11 11 * 16 + cf c 10 9 * 256 + cf c 8 8 * 1024 + cf c 7 7 * 64 + cf c 6 6 * 128
    + cf c 5 3 * 2 + cf c 2 2 * 32)).toNat
  let b := (sx 9 (cf c 12 12 * 256 + cf c 11 10 * 8 + cf c 6 5 * 64 + cf c 4 3 * 2 + cf c 2 2 * 32)).toNat
  match cf c 15 13 with
  | 0 => some (encI 0x13 0 rd rd (cImm6 c))
  | 1 => if rd = 0 then none else some (encI 0x1B 0 rd rd (cImm6 c))
  | 2 => some (encI 0x13 0 rd 0 (cImm6 c))
  | 3 =>
    if cf c 12 12 = 0 ∧ cf c 6 2 = 0 then none
    else if rd = 2 then
      some (encI 0x13 0 2 2 (sx 10 (cf c 12 12 * 512 + cf c 6 6 * 16 + cf c 5 5 * 64 + cf c 4 3 * 128 + cf c 2 2 * 32)).toNat)
    else some (0x37 + rd * 2 ^ 7 + cImm6 c % 2 ^ 20 * 2 ^ 12)
  | 4 => expandAlu c
  | 5 => some (encJ 0 j)
  | 6 => some (encB 0 (cReg c 7) 0 b)
  | _ => some (encB 1 (cReg c 7) 0 b)

/-- Quadrant 2. -/
def expand2 (c : Nat) : Option Nat :=
  let rd := cf c 11 7
  let r2 := cf c 6 2
  let d := cf c 12 12 * 32 + cf c 6 5 * 8 + cf c 4 2 * 64
  let w := cf c 12 12 * 32 + cf c 6 4 * 4 + cf c 3 2 * 64
  let sd := cf c 12 10 * 8 + cf c 9 7 * 64
  match cf c 15 13 with
  | 0 => some (encI 0x13 1 rd rd (cf c 12 12 * 32 + cf c 6 2))
  | 1 => some (encI 0x07 3 rd 2 d)
  | 2 => if rd = 0 then none else some (encI 0x03 2 rd 2 w)
  | 3 => if rd = 0 then none else some (encI 0x03 3 rd 2 d)
  | 4 =>
    if cf c 12 12 = 0 then
      (if r2 = 0 then (if rd = 0 then none else some (encI 0x67 0 0 rd 0)) else some (encR 0x33 0 0 rd 0 r2))
    else if r2 = 0 then (if rd = 0 then some 0x00100073 else some (encI 0x67 0 1 rd 0))
    else some (encR 0x33 0 0 rd rd r2)
  | 5 => some (encS 0x27 3 2 r2 sd)
  | 6 => some (encS 0x23 2 2 r2 (cf c 12 9 * 4 + cf c 8 7 * 64))
  | _ => some (encS 0x23 3 2 r2 sd)

/-- The 32-bit word that a compressed word stands for; none where it is reserved. -/
def expandC (c : Nat) : Option Nat :=
  match c % 4 with
  | 0 => expand0 c
  | 1 => expand1 c
  | 2 => expand2 c
  | _ => none

/-! ### Integer operations -/

/-- The low 32 bits, sign-extended. -/
def sx32 (v : Nat) : Word := sx 32 v

/-- Quotient and remainder as the M extension rounds them, with its results for a zero divisor. -/
def divS (w : Nat) (a b : Int) : Int := if b = 0 then -1 else if a = -(2 ^ (w - 1)) ∧ b = -1 then a else a.tdiv b
def remS (a b : Int) : Int := if b = 0 then a else a.tmod b
def divU (w a b : Nat) : Nat := if b = 0 then 2 ^ w - 1 else a / b
def remU (a b : Nat) : Nat := if b = 0 then a else a % b

/-- Leading and trailing zeros, and set bits, of the low n bits. -/
def clz (v : Nat) : Nat → Nat
  | 0 => 0
  | n + 1 => if v / 2 ^ n % 2 = 1 then 0 else 1 + clz v n
def ctz (v : Nat) : Nat → Nat
  | 0 => 0
  | n + 1 => if v % 2 = 1 then 0 else 1 + ctz (v / 2) n
def cpop (v : Nat) : Nat → Nat
  | 0 => 0
  | n + 1 => v % 2 + cpop (v / 2) n

/-- Rotation to the right of w bits. -/
def rotR (w v k : Nat) : Nat := let v := v % 2 ^ w; let k := k % w; v / 2 ^ k + v % 2 ^ k * 2 ^ (w - k)

/-- OP (0x33): funct7, funct3, operands. -/
def aluOp (f7 f3 : Nat) (a b : Word) : Option Word :=
  let sh := b.toNat % 64
  let ai := a.toInt
  let bi := b.toInt
  match f7, f3 with
  | 0x00, 0 => some (a + b)
  | 0x00, 1 => some (a <<< sh)
  | 0x00, 2 => some (BitVec.ofNat 64 (b2n (a.slt b)))
  | 0x00, 3 => some (BitVec.ofNat 64 (b2n (a.ult b)))
  | 0x00, 4 => some (a ^^^ b)
  | 0x00, 5 => some (a >>> sh)
  | 0x00, 6 => some (a ||| b)
  | 0x00, 7 => some (a &&& b)
  | 0x20, 0 => some (a - b)
  | 0x20, 5 => some (a.sshiftRight sh)
  | 0x20, 4 => some (~~~(a ^^^ b))
  | 0x20, 6 => some (a ||| ~~~b)
  | 0x20, 7 => some (a &&& ~~~b)
  | 0x01, 0 => some (a * b)
  | 0x01, 1 => some (BitVec.ofInt 64 (ai * bi / 2 ^ 64))
  | 0x01, 2 => some (BitVec.ofInt 64 (ai * b.toNat / 2 ^ 64))
  | 0x01, 3 => some (BitVec.ofNat 64 (a.toNat * b.toNat / 2 ^ 64))
  | 0x01, 4 => some (BitVec.ofInt 64 (divS 64 ai bi))
  | 0x01, 5 => some (BitVec.ofNat 64 (divU 64 a.toNat b.toNat))
  | 0x01, 6 => some (BitVec.ofInt 64 (remS ai bi))
  | 0x01, 7 => some (BitVec.ofNat 64 (remU a.toNat b.toNat))
  | 0x05, 4 => some (if a.slt b then a else b)
  | 0x05, 5 => some (if a.ult b then a else b)
  | 0x05, 6 => some (if a.slt b then b else a)
  | 0x05, 7 => some (if a.ult b then b else a)
  | 0x10, 2 => some ((a <<< 1) + b)
  | 0x10, 4 => some ((a <<< 2) + b)
  | 0x10, 6 => some ((a <<< 3) + b)
  | 0x30, 1 => some (BitVec.ofNat 64 (rotR 64 a.toNat (64 - sh)))
  | 0x30, 5 => some (BitVec.ofNat 64 (rotR 64 a.toNat sh))
  | _, _ => none

/-- OP-32 (0x3B). -/
def aluOp32 (f7 f3 rs2 : Nat) (a b : Word) : Option Word :=
  let x := a.toNat % 2 ^ 32
  let y := b.toNat % 2 ^ 32
  let sh := y % 32
  let uw : Word := BitVec.ofNat 64 x
  match f7, f3 with
  | 0x00, 0 => some (sx32 (x + y))
  | 0x00, 1 => some (sx32 (x * 2 ^ sh))
  | 0x00, 5 => some (sx32 (x / 2 ^ sh))
  | 0x20, 0 => some (sx32 (x + (2 ^ 32 - y)))
  | 0x20, 5 => some (BitVec.ofInt 64 (sgn 32 x / 2 ^ sh))
  | 0x01, 0 => some (sx32 (x * y))
  | 0x01, 4 => some (BitVec.ofInt 64 (divS 32 (sgn 32 x) (sgn 32 y)))
  | 0x01, 5 => some (sx32 (divU 32 x y))
  | 0x01, 6 => some (BitVec.ofInt 64 (remS (sgn 32 x) (sgn 32 y)))
  | 0x01, 7 => some (sx32 (remU x y))
  | 0x04, 0 => some (uw + b)
  | 0x04, 4 => if rs2 = 0 then some (BitVec.ofNat 64 (x % 2 ^ 16)) else none
  | 0x10, 2 => some ((uw <<< 1) + b)
  | 0x10, 4 => some ((uw <<< 2) + b)
  | 0x10, 6 => some ((uw <<< 3) + b)
  | 0x30, 1 => some (sx32 (rotR 32 x (32 - sh)))
  | 0x30, 5 => some (sx32 (rotR 32 x sh))
  | _, _ => none

/-- OP-IMM (0x13). -/
def aluImm (e : Nat) (a : Word) : Option Word :=
  let i := rvI e
  let sh := iImm12 e % 64
  match iF3 e with
  | 0 => some (a + i)
  | 2 => some (BitVec.ofNat 64 (b2n (a.slt i)))
  | 3 => some (BitVec.ofNat 64 (b2n (a.ult i)))
  | 4 => some (a ^^^ i)
  | 6 => some (a ||| i)
  | 7 => some (a &&& i)
  | 1 =>
    if e / 2 ^ 26 % 64 = 0 then some (a <<< sh)
    else match iImm12 e with
      | 0x600 => some (BitVec.ofNat 64 (clz a.toNat 64))
      | 0x601 => some (BitVec.ofNat 64 (ctz a.toNat 64))
      | 0x602 => some (BitVec.ofNat 64 (cpop a.toNat 64))
      | 0x604 => some (sx 8 a.toNat)
      | 0x605 => some (sx 16 a.toNat)
      | _ => none
  | _ =>
    match e / 2 ^ 26 % 64 with
    | 0x00 => some (a >>> sh)
    | 0x10 => some (a.sshiftRight sh)
    | 0x18 => some (BitVec.ofNat 64 (rotR 64 a.toNat sh))
    | _ =>
      match iImm12 e with
      | 0x287 => some (BitVec.ofNat 64 (digits 8 (fun k => if a.toNat / 256 ^ k % 256 = 0 then 0 else 255) 0 8))
      | 0x6B8 => some (BitVec.ofNat 64 (digits 8 (fun k => a.toNat / 256 ^ (7 - k)) 0 8))
      | _ => none

/-- OP-IMM-32 (0x1B). -/
def aluImm32 (e : Nat) (a : Word) : Option Word :=
  let x := a.toNat % 2 ^ 32
  let sh := iRs2 e
  match iF3 e with
  | 0 => some (sx32 (a + rvI e).toNat)
  | 1 =>
    if iF7 e = 0 then some (sx32 (x * 2 ^ sh))
    else if e / 2 ^ 26 % 64 = 2 then some ((BitVec.ofNat 64 x) <<< (iImm12 e % 64))
    else match iImm12 e with
      | 0x600 => some (BitVec.ofNat 64 (clz x 32))
      | 0x601 => some (BitVec.ofNat 64 (ctz x 32))
      | 0x602 => some (BitVec.ofNat 64 (cpop x 32))
      | _ => none
  | 5 =>
    match iF7 e with
    | 0x00 => some (sx32 (x / 2 ^ sh))
    | 0x20 => some (BitVec.ofInt 64 (sgn 32 x / 2 ^ sh))
    | 0x30 => some (sx32 (rotR 32 x sh))
    | _ => none
  | _ => none

/-- Whether a branch is taken: funct3; none where it is reserved. -/
def branchTaken (f3 : Nat) (a b : Word) : Option Bool :=
  match f3 with
  | 0 => some (a == b)
  | 1 => some (a != b)
  | 4 => some (a.slt b)
  | 5 => some (!a.slt b)
  | 6 => some (a.ult b)
  | 7 => some (!a.ult b)
  | _ => none

/-- The AMO of a funct5 on w-bit values; none where it is reserved. -/
def amoOp (f5 w old v : Nat) : Option Nat :=
  let less := decide (sgn w old < sgn w v)
  let lessU := decide (old % 2 ^ w < v % 2 ^ w)
  match f5 with
  | 0x01 => some v
  | 0x00 => some (old + v)
  | 0x04 => some (old ^^^ v)
  | 0x0C => some (old &&& v)
  | 0x08 => some (old ||| v)
  | 0x10 => some (if less then old else v)
  | 0x14 => some (if less then v else old)
  | 0x18 => some (if lessU then old else v)
  | 0x1C => some (if lessU then v else old)
  | _ => none

end Sys2Proof.Machine
end

