-- ==== Sys2Proof/Machine/HartMem.lean ====
section
/-!
DEFINITION. Address translation (Sv48, R240, R241), loads and stores of the harts, and CORE_MEMORY_ACCESS (R243).
-/
namespace Sys2Proof.Machine

/-- What a step of a hart comes to: a value and the state, an exception with its cause and tval, or a wait for a target. -/
inductive HRes (α : Type) where
  | ok (x : α) (s : State)
  | exc (cause : Nat) (tval : Word) (s : State)
  | stall (s : State)

/-- Go on with the value. -/
def HRes.bind {α β : Type} : HRes α → (α → State → HRes β) → HRes β
  | .ok x s, f => f x s
  | .exc c t s, _ => .exc c t s
  | .stall s, _ => .stall s

/-- Cause codes of access faults and page faults. -/
def accessFault (q : Perm) : Nat :=
  match q with
  | .x => 1
  | .r => 5
  | _ => 7
def pageFault (q : Perm) : Nat :=
  match q with
  | .x => 12
  | .r => 13
  | _ => 15

/-! ### Translation -/

/-- The mode in which a hart's access is checked: MPRV gives loads and stores that of MPP. -/
def Hart.effPriv (h : Hart) (q : Perm) : BitVec 2 :=
  let st := h.csr 0x300
  if q ≠ .x ∧ h.priv = 3 ∧ bitAt st 17 then BitVec.ofNat 2 (fld st 12 11) else h.priv

/-- Bits of a leaf PTE. -/
def pteOk (h : Hart) (priv : BitVec 2) (pte : Word) (q : Perm) : Bool :=
  let st := h.csr 0x300
  let u := bitAt pte 4
  (match q with
    | .x => bitAt pte 3
    | .r => bitAt pte 1 || (bitAt st 19 && bitAt pte 3)
    | _ => bitAt pte 2)
    && (if priv = 0 then u else !u || (bitAt st 18 && q != .x))
    && bitAt pte 6 && (q != .w && q != .u || bitAt pte 7)

/-- A key of the translation cache: virtual page, ASID, level. -/
def tlbKey (vpn asid level : Nat) : Nat := vpn / 512 ^ level * 512 ^ level + 2 ^ 36 * asid + 2 ^ 52 * level

/-- The cached leaf PTE of a page, with its level: an entry of the ASID, or a global one. -/
def Hart.tlbFind (h : Hart) (vpn asid : Nat) : Option (Word × Nat) :=
  (h.tlb.find? fun e =>
    let level := e.1 / 2 ^ 52
    let key := tlbKey vpn asid level
    e.1 == key || (bitAt e.2 5 && e.1 % 2 ^ 36 == key % 2 ^ 36)).map fun e => (e.2, e.1 / 2 ^ 52)

/-- The physical address that a leaf PTE gives; none beyond bit 47 (R241). -/
def ptePa (pte : Word) (level va : Nat) : Option Nat :=
  let ppn := fld pte 53 10
  if 2 ^ 36 ≤ ppn then none
  else some (ppn / 512 ^ level * 512 ^ level * 4096 + va % (4096 * 512 ^ level))

/-- Walk the page table from a level down (R241): reads are coherent, made in S-mode under PMP and rooms. The walk writes
nothing: a leaf that needs A or D set takes a page fault. -/
def State.walk (hx : HartIx) (q : Perm) (va : Nat) : Nat → Nat → State → HRes (Word × Nat)
  | level, table, s =>
    let a := table + fld (BitVec.ofNat 64 va) (12 + 9 * level + 8) (12 + 9 * level) * 8
    let fault := HRes.exc (accessFault q) (at_ va 0) s
    if !(s.hart hx).pmpOk 1 a 8 .r then fault
    else match s.coreLoad hx a 8 .r true with
      | .stall _ => .stall (s.wakeTargets a 8)
      | .fault _ => fault
      | .ok (bs, t) =>
        let pte := BitVec.ofNat 64 (ofBytes bs)
        let page := HRes.exc (pageFault q) (at_ va 0) t
        if !bitAt pte 0 || (!bitAt pte 1 && bitAt pte 2) || fld pte 63 54 != 0 then page
        else if bitAt pte 1 || bitAt pte 3 then
          (if fld pte 53 10 % 512 ^ level = 0 then .ok (pte, level) t else page)
        else if 2 ^ 36 ≤ fld pte 53 10 then .exc (accessFault q) (at_ va 0) t
        else match level with
          | 0 => page
          | l + 1 => State.walk hx q va l (fld pte 53 10 * 4096) t

/-- Translate a virtual address for an access. -/
def State.translate (s : State) (hx : HartIx) (va : Nat) (q : Perm) : HRes Nat :=
  let h := s.hart hx
  let priv := h.effPriv q
  let satp := h.csr 0x180
  if priv = 3 ∨ fld satp 63 60 = 0 then
    if va < 2 ^ 48 then .ok va s else .exc (accessFault q) (at_ va 0) s
  else if va / 2 ^ 47 ≠ 0 ∧ va / 2 ^ 47 ≠ 2 ^ 17 - 1 then .exc (pageFault q) (at_ va 0) s
  else
    let vpn := va / 4096 % 2 ^ 36
    let asid := fld satp 59 44
    let use (pte : Word) (level : Nat) (t : State) : HRes Nat :=
      if !pteOk h priv pte q then .exc (pageFault q) (at_ va 0) t
      else match ptePa pte level va with
        | some pa => .ok pa t
        | none => .exc (accessFault q) (at_ va 0) t
    match h.tlbFind vpn asid with
    | some (pte, level) => use pte level s
    | none =>
      if 2 ^ 36 ≤ fld satp 43 0 then .exc (accessFault q) (at_ va 0) s
      else (State.walk hx q va 3 (fld satp 43 0 * 4096) s).bind fun x t =>
        let u := if bitAt x.1 6 then t.modHart hx fun y => { y with tlb := (tlbKey vpn asid x.2, x.1) :: y.tlb } else t
        use x.1 x.2 u

/-- SFENCE.VMA: cached translations go, of one page or one ASID where the operands name them; global ones stay when an ASID is
named. -/
def Hart.sfence (h : Hart) (va asid : Option Word) : Hart :=
  { h with tlb := h.tlb.filter fun e =>
      let level := e.1 / 2 ^ 52
      let hitVa := match va with
        | some v => e.1 % 2 ^ 36 == (tlbKey (v.toNat / 4096 % 2 ^ 36) 0 level) % 2 ^ 36
        | none => true
      let hitAs := match asid with
        | some a => e.1 / 2 ^ 36 % 2 ^ 16 == a.toNat % 2 ^ 16 && !bitAt e.2 5
        | none => true
      !(hitVa && hitAs) }

/-! ### Loads and stores -/

/-- An access cut at the page boundary. -/
def pagePieces (va n : Nat) : List (Nat × Nat) :=
  let k := 4096 - va % 4096
  if n ≤ k then [(va, n)] else [(va, k), ((va + k) % 2 ^ 64, n - k)]

/-- The physical pieces of an access, checked by translation and PMP. -/
def State.pieces (hx : HartIx) (q : Perm) : List (Nat × Nat) → State → HRes (List (Nat × Nat))
  | [], s => .ok [] s
  | (va, n) :: l, s =>
    (s.translate hx va q).bind fun pa t =>
      if !(t.hart hx).pmpOk ((t.hart hx).effPriv q) pa n q then .exc (accessFault q) (at_ va 0) t
      else (State.pieces hx q l t).bind fun r u => .ok ((pa, n) :: r) u

/-- Load the pieces of an access. -/
def State.loadPieces (hx : HartIx) (q : Perm) (va : Nat) : List (Nat × Nat) → State → HRes (List Byte)
  | [], s => .ok [] s
  | (pa, n) :: l, s =>
    match s.coreLoad hx pa n q with
    | .stall _ => .stall (s.wakeTargets pa n)
    | .fault _ => .exc (accessFault q) (at_ va 0) s
    | .ok (bs, t) => (State.loadPieces hx q va l t).bind fun r u => .ok (bs ++ r) u

/-- Store the pieces of an access. -/
def State.storePieces (hx : HartIx) (va : Nat) : List (Nat × Nat) → List Byte → State → HRes Unit
  | [], _, s => .ok () s
  | (pa, n) :: l, bs, s =>
    match s.coreStore hx pa (bs.take n) with
    | .stall _ => .stall (s.wakeTargets pa n)
    | .fault _ => .exc (accessFault .w) (at_ va 0) s
    | .ok t => State.storePieces hx va l (bs.drop n) t

/-- A load of a hart at a virtual address. -/
def State.hartLoad (s : State) (hx : HartIx) (va n : Nat) (q : Perm) : HRes Nat :=
  (State.pieces hx q (pagePieces va n) s).bind fun ps t =>
    (State.loadPieces hx q va ps t).bind fun bs u => .ok (ofBytes bs) u

/-- A store of a hart at a virtual address. -/
def State.hartStore (s : State) (hx : HartIx) (va n v : Nat) : HRes Unit :=
  (State.pieces hx .w (pagePieces va n) s).bind fun ps t => State.storePieces hx va ps (toBytes n v) t

/-! ### CORE_MEMORY_ACCESS: one access at a physical address -/

/-- The bytes and the permission of a core access. -/
def coreBytes : CoreKind → Nat
  | .fetch => 4
  | .ahead n => n
  | .load n => n
  | .store n _ => n
def corePerm : CoreKind → Perm
  | .fetch => .x
  | .ahead _ => .r
  | .load _ => .r
  | .store _ _ => .w

/-! ### Wrong paths (R256, R257) -/

/-- A wrong-path load of one physical piece: lines that the core may cache come into its caches; it raises nothing and reaches no other
memory. -/
def State.aheadPiece (hx : HartIx) (s : State) (p : Nat × Nat) : State :=
  match s.coreCheck hx p.1 p.2 .r with
  | .ok (.cache, t) => s.readLines t hx (s.linesAt p.1 p.2) false false
  | .ok (.rom, t) => s.readLines t hx (s.linesAt p.1 p.2) false false
  | .stall _ => s.wakeTargets p.1 p.2
  | _ => s

/-- How many lines of some pieces a core holds. -/
def State.linesHeld (s : State) (hx : HartIx) (ps : List (Nat × Nat)) : Nat :=
  ((ps.map fun p => s.linesAt p.1 p.2).flatten.filter fun l => s.cores.cached[hx.val].contains l).length

/-- A load on a wrong path: it fills the TLB and the caches and does nothing else; the counters of R257 see it. -/
def State.loadAhead (s : State) (hx : HartIx) (va n : Nat) : State :=
  let count (t : State) (lines : Nat) : State :=
    let tlb := (t.hart hx).tlb.length - (s.hart hx).tlb.length
    t.modHart hx fun h => h.hpmAdd fun e => if e = 0x40 then 1 else if e = 0x42 then lines else if e = 0x43 then tlb else 0
  match State.pieces hx .r (pagePieces va n) s with
  | .ok ps t =>
    let u := ps.foldl (State.aheadPiece hx) t
    count u (u.linesHeld hx ps - t.linesHeld hx ps)
  | .exc _ _ t => count t 0
  | .stall t => count t 0

/-- A refused access takes the access-fault exception of its kind (R243). -/
def State.coreTrap (s : State) (h : HartIx) (q : Perm) (a : Nat) : State :=
  s.modHart h fun x => x.trap false (accessFault q) (at_ a 0)

/-- An access of a hart that runs. -/
def State.coreAccess (s : State) (h : HartIx) (a : Nat) (k : CoreKind) : State :=
  let q := corePerm k
  match k with
  | .store n v =>
    match s.coreStore h a (toBytes n v.toNat) with
    | .ok t => t
    | .fault _ => s.coreTrap h q a
    | .stall _ => s.wakeTargets a n
  | .ahead n => s.loadAhead h a n
  | k =>
    match s.coreLoad h a (coreBytes k) q with
    | .ok (bs, t) => { t with out := bs }
    | .fault _ => s.coreTrap h q a
    | .stall _ => s.wakeTargets a (coreBytes k)

/-- Whether a hart executes: out of reset, not halted by the debugger. -/
def State.hartRuns (s : State) (h : HartIx) : Bool := s.fabricOn && !(s.hart h).inReset && !(s.hart h).halted

def execCoreMemoryAccess (h : HartIx) (addr : Nat) (k : CoreKind) (s : State) : Out :=
  .next (if s.hartRuns h && !(s.hart h).wfi then s.coreAccess h addr k else s)

end Sys2Proof.Machine
end

