-- ==== Sys2Proof/Machine/Hart.lean ====
section
/-!
DEFINITION. HART_INSTRUCTION and SPECULATION_BARRIER: a hart fetches at its pc and executes an instruction word (R240, R255,
R256, R258). Every encoding outside the set of R240 takes the illegal-instruction exception.
-/
namespace Sys2Proof.Machine

/-- The illegal-instruction exception of an encoding. -/
def illegal (e : Nat) (s : State) : HRes Word := .exc 2 (at_ e 0) s

/-- Write an x register and go on at an address. -/
def State.ret (s : State) (hx : HartIx) (rd : Nat) (v npc : Word) : HRes Word := .ok npc (s.modHart hx fun h => h.setX rd v)

/-- Write the result of an integer operation; illegal where there is none. -/
def State.retO (s : State) (hx : HartIx) (e : Nat) (v : Option Word) (npc : Word) : HRes Word :=
  match v with
  | some v => s.ret hx (iRd e) v npc
  | none => illegal e s

/-! ### Loads, stores, atomics -/

/-- The value that an integer load of a width code writes; none where the code is reserved. -/
def loadExt (f3 v : Nat) : Option Word :=
  match f3 with
  | 0 => some (sx 8 v)
  | 1 => some (sx 16 v)
  | 2 => some (sx 32 v)
  | 3 => some (at_ v 0)
  | 4 => some (at_ (v % 2 ^ 8) 0)
  | 5 => some (at_ (v % 2 ^ 16) 0)
  | 6 => some (at_ (v % 2 ^ 32) 0)
  | _ => none

/-- LOAD. -/
def State.hLoad (s : State) (hx : HartIx) (e : Nat) (npc : Word) : HRes Word :=
  let va := (s.hart hx).getX (iRs1 e) + rvI e
  if iF3 e = 7 then illegal e s
  else (s.hartLoad hx va.toNat (2 ^ (iF3 e % 4)) .r).bind fun v t => t.retO hx e (loadExt (iF3 e) v) npc

/-- STORE. -/
def State.hStore (s : State) (hx : HartIx) (e : Nat) (npc : Word) : HRes Word :=
  let h := s.hart hx
  let va := h.getX (iRs1 e) + rvS e
  if 4 ≤ iF3 e then illegal e s
  else (s.hartStore hx va.toNat (2 ^ iF3 e) (h.getX (iRs2 e)).toNat).bind fun _ t => .ok npc t

/-- The line of an access, and whether it may be atomic: memory, not I/O. -/
def State.atomicLine (s : State) (pa : Nat) : Option Nat :=
  match s.coreAttr pa with
  | .cache | .plain => (decodeAddr s.hall.remap pa).key.map fun k => k / 64 * 64
  | _ => none

/-- LR. -/
def State.hLr (s : State) (hx : HartIx) (e n va : Nat) (npc : Word) : HRes Word :=
  (State.pieces hx .r [(va, n)] s).bind fun ps t =>
    match ps with
    | (pa, _) :: _ =>
      match t.atomicLine pa with
      | none => .exc 5 (at_ va 0) t
      | some l => (State.loadPieces hx .r va ps t).bind fun bs u =>
          (u.modHart hx fun h => { h with resv := some l }).ret hx (iRd e) (sx (8 * n) (ofBytes bs)) npc
    | [] => .ok npc t

/-- SC: the store happens, and 0 is written, only under the reservation of its line. -/
def State.hSc (s : State) (hx : HartIx) (e n va : Nat) (npc : Word) : HRes Word :=
  (State.pieces hx .w [(va, n)] s).bind fun ps t =>
    match ps with
    | (pa, _) :: _ =>
      match t.atomicLine pa with
      | none => .exc 7 (at_ va 0) t
      | some l =>
        let fresh (u : State) : State := u.modHart hx fun h => { h with resv := none }
        if (t.hart hx).resv = some l then
          (State.storePieces hx va ps (toBytes n ((t.hart hx).getX (iRs2 e)).toNat) t).bind fun _ u => (fresh u).ret hx (iRd e) 0 npc
        else (fresh t).ret hx (iRd e) 1 npc
    | [] => .ok npc t

/-- An AMO. -/
def State.hAmo (s : State) (hx : HartIx) (e n va : Nat) (npc : Word) : HRes Word :=
  (State.pieces hx .u [(va, n)] s).bind fun ps t =>
    match ps with
    | (pa, _) :: _ =>
      match t.atomicLine pa with
      | none => .exc 7 (at_ va 0) t
      | some _ => (State.loadPieces hx .u va ps t).bind fun bs u =>
          match amoOp (iF7 e / 4) (8 * n) (ofBytes bs) ((u.hart hx).getX (iRs2 e)).toNat with
          | none => illegal e s
          | some v => (State.storePieces hx va ps (toBytes n (v % 2 ^ (8 * n))) u).bind fun _ w =>
              w.ret hx (iRd e) (sx (8 * n) (ofBytes bs)) npc
    | [] => .ok npc t

/-- AMO (0x2F): words and doublewords, naturally aligned. -/
def State.hAtomic (s : State) (hx : HartIx) (e : Nat) (npc : Word) : HRes Word :=
  let n := 2 ^ iF3 e
  let va := ((s.hart hx).getX (iRs1 e)).toNat
  let f5 := iF7 e / 4
  if iF3 e ≠ 2 ∧ iF3 e ≠ 3 then illegal e s
  else if f5 = 2 then
    (if iRs2 e ≠ 0 then illegal e s else if va % n ≠ 0 then .exc 4 (at_ va 0) s else s.hLr hx e n va npc)
  else if f5 ≠ 3 ∧ amoOp f5 64 0 0 = none then illegal e s
  else if va % n ≠ 0 then .exc 6 (at_ va 0) s
  else if f5 = 3 then s.hSc hx e n va npc
  else s.hAmo hx e n va npc

/-! ### Floating point -/

/-- An f register, its value as binary32 (a value that is not NaN-boxed reads as the default NaN), and their writes. -/
def Hart.getF (h : Hart) (i : Nat) : Nat := ((h.f[i]?).getD 0).toNat
def Hart.getFmt (h : Hart) (d : Bool) (i : Nat) : Nat :=
  let v := h.getF i
  if d then v else if v / 2 ^ 32 = 2 ^ 32 - 1 then v % 2 ^ 32 else xf32.qnan
def Hart.setFmt (h : Hart) (d : Bool) (i v : Nat) : Hart :=
  let w := if d then v else v % 2 ^ 32 + (2 ^ 32 - 1) * 2 ^ 32
  { h.fpDirty with f := vset h.f (toFin 32 (by omega) i) (at_ w 0) }

/-- Add to fflags. -/
def Hart.accrue (h : Hart) (fl : Nat) : Hart := if fl = 0 then h else (h.setCsr 0x003 (h.csr 0x003 ||| at_ fl 0)).fpDirty

/-- The format of a bit. -/
def xfmt (d : Bool) : XFmt := if d then xf64 else xf32

/-- The rounding mode of an instruction; none where it is reserved. -/
def Hart.rm (h : Hart) (e : Nat) : Option Nat :=
  let m := if iF3 e = 7 then fld (h.csr 0x003) 7 5 else iF3 e
  if m ≤ 4 then some m else none

/-- Write a floating-point result with its flags. -/
def State.retF (s : State) (hx : HartIx) (d : Bool) (e : Nat) (r : Nat × Nat) (npc : Word) : HRes Word :=
  .ok npc (s.modHart hx fun h => (h.setFmt d (iRd e) r.1).accrue r.2)

/-- Write an integer result with flags. -/
def State.retI (s : State) (hx : HartIx) (e : Nat) (v : Word) (fl : Nat) (npc : Word) : HRes Word :=
  .ok npc (s.modHart hx fun h => (h.accrue fl).setX (iRd e) v)

/-- FLW and FLD; FSW and FSD. -/
def State.hFLoad (s : State) (hx : HartIx) (e : Nat) (npc : Word) : HRes Word :=
  let h := s.hart hx
  if h.fpOff ∨ (iF3 e ≠ 2 ∧ iF3 e ≠ 3) then illegal e s
  else (s.hartLoad hx (h.getX (iRs1 e) + rvI e).toNat (2 ^ iF3 e) .r).bind fun v t =>
    .ok npc (t.modHart hx fun h => h.setFmt (iF3 e == 3) (iRd e) v)
def State.hFStore (s : State) (hx : HartIx) (e : Nat) (npc : Word) : HRes Word :=
  let h := s.hart hx
  if h.fpOff ∨ (iF3 e ≠ 2 ∧ iF3 e ≠ 3) then illegal e s
  else (s.hartStore hx (h.getX (iRs1 e) + rvS e).toNat (2 ^ iF3 e) (h.getF (iRs2 e))).bind fun _ t => .ok npc t

/-- FMADD, FMSUB, FNMSUB, FNMADD. -/
def State.hFma (s : State) (hx : HartIx) (e : Nat) (npc : Word) : HRes Word :=
  let h := s.hart hx
  let d := iF7 e % 4 == 1
  let f := xfmt d
  match h.rm e with
  | none => illegal e s
  | some m =>
    if h.fpOff ∨ 2 ≤ iF7 e % 4 then illegal e s
    else
      let a := f.decode (h.getFmt d (iRs1 e))
      let b := f.decode (h.getFmt d (iRs2 e))
      let c := f.decode (h.getFmt d (iF7 e / 4))
      let negP := iOp e == 0x4B || iOp e == 0x4F
      let negC := iOp e == 0x47 || iOp e == 0x4F
      s.retF hx d e (f.fma m false (if negP then a.flip else a) b (if negC then c.flip else c)) npc

/-- The integer widths of FCVT: W, WU, L, LU. -/
def cvtW (i : Nat) : Nat := if i < 2 then 32 else 64
def cvtSigned (i : Nat) : Bool := i % 2 == 0

/-- OP-FP without a rounding mode: sign injection, minimum and maximum, comparison, moves and class. -/
def State.hFpPlain (s : State) (hx : HartIx) (e : Nat) (npc : Word) : HRes Word :=
  let h := s.hart hx
  let d := iF7 e % 4 == 1
  let f := xfmt d
  let w := f.bits - 1
  let a := h.getFmt d (iRs1 e)
  let b := h.getFmt d (iRs2 e)
  let sb := b / 2 ^ w
  let sa := a / 2 ^ w
  match iF7 e / 4, iF3 e with
  | 0x04, 0 => s.retF hx d e (a % 2 ^ w + sb * 2 ^ w, 0) npc
  | 0x04, 1 => s.retF hx d e (a % 2 ^ w + (1 - sb) * 2 ^ w, 0) npc
  | 0x04, 2 => s.retF hx d e (a % 2 ^ w + (sa + sb) % 2 * 2 ^ w, 0) npc
  | 0x05, 0 => s.retF hx d e (f.minMax false a b) npc
  | 0x05, 1 => s.retF hx d e (f.minMax true a b) npc
  | 0x14, k =>
    if 3 ≤ k then illegal e s
    else let r := xcmp k (f.decode a) (f.decode b); s.retI hx e (at_ r.1 0) r.2 npc
  | 0x1C, 0 => if iRs2 e ≠ 0 then illegal e s else s.retI hx e (if d then at_ (h.getF (iRs1 e)) 0 else sx 32 (h.getF (iRs1 e))) 0 npc
  | 0x1C, 1 => if iRs2 e ≠ 0 then illegal e s else s.retI hx e (at_ (f.classify a) 0) 0 npc
  | 0x1E, 0 => if iRs2 e ≠ 0 then illegal e s else s.retF hx d e ((h.getX (iRs1 e)).toNat, 0) npc
  | _, _ => illegal e s

/-- OP-FP with a rounding mode. -/
def State.hFpRound (s : State) (hx : HartIx) (e m : Nat) (npc : Word) : HRes Word :=
  let h := s.hart hx
  let d := iF7 e % 4 == 1
  let f := xfmt d
  let a := f.decode (h.getFmt d (iRs1 e))
  let b := f.decode (h.getFmt d (iRs2 e))
  let k := iRs2 e
  match iF7 e / 4 with
  | 0x00 => s.retF hx d e (f.add m a b) npc
  | 0x01 => s.retF hx d e (f.add m a b.flip) npc
  | 0x02 => s.retF hx d e (f.mul m a b) npc
  | 0x03 => s.retF hx d e (f.div m a b) npc
  | 0x0B => if k ≠ 0 then illegal e s else s.retF hx d e (f.sqrt m a) npc
  | 0x08 =>
    if k ≠ b2n (!d) then illegal e s
    else s.retF hx d e (f.convert m ((xfmt (!d)).decode (h.getFmt (!d) (iRs1 e)))) npc
  | 0x18 =>
    if 4 ≤ k then illegal e s
    else
      let r := toInt (cvtW k) (cvtSigned k) m a
      let v : Word := BitVec.ofInt 64 r.1
      s.retI hx e (if k < 2 then sx32 v.toNat else v) r.2 npc
  | 0x1A =>
    if 4 ≤ k then illegal e s
    else
      let v := (h.getX (iRs1 e)).toNat % 2 ^ cvtW k
      s.retF hx d e (f.ofInt m (if cvtSigned k then sgn (cvtW k) v else v)) npc
  | _ => illegal e s

/-- OP-FP (0x53). -/
def State.hFp (s : State) (hx : HartIx) (e : Nat) (npc : Word) : HRes Word :=
  let h := s.hart hx
  if h.fpOff ∨ 2 ≤ iF7 e % 4 then illegal e s
  else if iF7 e / 4 ∈ [0x04, 0x05, 0x14, 0x1C, 0x1E] then s.hFpPlain hx e npc
  else match h.rm e with
    | none => illegal e s
    | some m => s.hFpRound hx e m npc

/-! ### SYSTEM -/

/-- The operand of a CSR instruction. -/
def Hart.csrArg (h : Hart) (e : Nat) : Word := if iF3 e / 4 = 1 then at_ (iRs1 e) 0 else h.getX (iRs1 e)

/-- CSRRW, CSRRS, CSRRC and their immediate forms. -/
def State.hCsr (s : State) (hx : HartIx) (e : Nat) (npc : Word) : HRes Word :=
  let h := s.hart hx
  let n := iImm12 e
  let writes := iF3 e % 4 == 1 || iRs1 e != 0
  if h.priv.toNat < n / 256 % 4 ∨ (writes ∧ 3 * 1024 ≤ n) then illegal e s
  else match s.csrRead hx n with
    | none => illegal e s
    | some old =>
      let base := if n = 0x344 then (old &&& ~~~0x200) ||| (h.csr 0x344 &&& 0x200) else old
      let v := h.csrArg e
      let new := match iF3 e % 4 with
        | 1 => v
        | 2 => base ||| v
        | _ => base &&& ~~~v
      (if writes then s.modHart hx fun h => h.csrWrite n new else s).ret hx (iRd e) old npc

/-- SFENCE.VMA; a hart in U-mode, or in S-mode under TVM, takes the illegal-instruction exception. -/
def State.hSfence (s : State) (hx : HartIx) (e : Nat) (npc : Word) : HRes Word :=
  let h := s.hart hx
  if h.priv = 0 ∨ (h.priv = 1 ∧ bitAt (h.csr 0x300) 20) then illegal e s
  else
    let va := if iRs1 e = 0 then none else some (h.getX (iRs1 e))
    let asid := if iRs2 e = 0 then none else some (h.getX (iRs2 e))
    .ok npc (s.modHart hx fun h => h.sfence va asid)

/-- ECALL, EBREAK, SRET, MRET, WFI, SFENCE.VMA. -/
def State.hPriv (s : State) (hx : HartIx) (e : Nat) (npc : Word) : HRes Word :=
  let h := s.hart hx
  let st := h.csr 0x300
  if iF7 e = 0x09 ∧ iRd e = 0 then s.hSfence hx e npc
  else match e with
    | 0x00000073 => .exc (8 + h.priv.toNat) 0 s
    | 0x00100073 => if h.ebreaks && !h.halted then .ok h.pc (s.modHart hx fun h => h.halt 1) else .exc 3 h.pc s
    | 0x30200073 => if h.priv = 3 then let x := h.mret; .ok x.pc (s.modHart hx fun _ => x) else illegal e s
    | 0x10200073 =>
      if h.priv = 3 ∨ (h.priv = 1 ∧ !bitAt st 22) then let x := h.sret; .ok x.pc (s.modHart hx fun _ => x) else illegal e s
    | 0x10500073 =>
      if h.priv = 3 ∨ (h.priv = 1 ∧ !bitAt st 21) then .ok npc (s.modHart hx fun h => { h with wfi := true }) else illegal e s
    | _ => illegal e s

/-- SYSTEM (0x73). -/
def State.hSystem (s : State) (hx : HartIx) (e : Nat) (npc : Word) : HRes Word :=
  match iF3 e with
  | 0 => s.hPriv hx e npc
  | 4 => illegal e s
  | _ => s.hCsr hx e npc

/-! ### One instruction -/

/-- The rest of the integer set, and FENCE and FENCE.I: in a model whose harts act one at a time, and whose fetches are coherent,
a fence only retires. -/
def State.hInt (s : State) (hx : HartIx) (e : Nat) (npc : Word) : HRes Word :=
  let h := s.hart hx
  let a := h.getX (iRs1 e)
  let b := h.getX (iRs2 e)
  match iOp e with
  | 0x0F => if iF3 e < 2 then .ok npc s else illegal e s
  | 0x13 => s.retO hx e (aluImm e a) npc
  | 0x17 => s.ret hx (iRd e) (h.pc + rvU e) npc
  | 0x1B => s.retO hx e (aluImm32 e a) npc
  | 0x33 => s.retO hx e (aluOp (iF7 e) (iF3 e) a b) npc
  | 0x37 => s.ret hx (iRd e) (rvU e) npc
  | 0x3B => s.retO hx e (aluOp32 (iF7 e) (iF3 e) (iRs2 e) a b) npc
  | 0x63 =>
    match branchTaken (iF3 e) a b with
    | none => illegal e s
    | some c => .ok (if c then h.pc + rvB e else npc) s
  | 0x67 => if iF3 e = 0 then s.ret hx (iRd e) npc ((a + rvI e) &&& ~~~1) else illegal e s
  | 0x6F => s.ret hx (iRd e) npc (h.pc + rvJ e)
  | _ => illegal e s

/-- A 32-bit instruction: the address of the next one. -/
def State.hExec (s : State) (hx : HartIx) (e : Nat) (npc : Word) : HRes Word :=
  match iOp e with
  | 0x03 => s.hLoad hx e npc
  | 0x07 => s.hFLoad hx e npc
  | 0x23 => s.hStore hx e npc
  | 0x27 => s.hFStore hx e npc
  | 0x2F => s.hAtomic hx e npc
  | 0x43 | 0x47 | 0x4B | 0x4F => s.hFma hx e npc
  | 0x53 => s.hFp hx e npc
  | 0x73 => s.hSystem hx e npc
  | _ => s.hInt hx e npc

/-- An instruction word: 16 bits where its low bits are not 11; an illegal one reports the word as it was fetched. -/
def State.hWord (s : State) (hx : HartIx) (enc : Nat) : HRes Word :=
  let pc := (s.hart hx).pc
  if enc % 4 = 3 then s.hExec hx enc (pc + 4)
  else
    let c := enc % 2 ^ 16
    match expandC c with
    | none => illegal c s
    | some e =>
      match s.hExec hx e (pc + 2) with
      | .exc 2 _ t => illegal c t
      | r => r

/-- The fetch of an instruction: its bytes pass translation, PMP, rooms and targets. -/
def State.hFetch (s : State) (hx : HartIx) (enc : Nat) : HRes Nat :=
  s.hartLoad hx (s.hart hx).pc.toNat (if enc % 4 = 3 then 4 else 2) .x

/-- An instruction retires: instret counts; an EBREAK that enters debug mode does not. -/
def Hart.retire (h : Hart) (npc : Word) : Hart :=
  let g := { h with pc := npc }
  if g.halted || bitAt (g.csr 0x320) 2 then g else g.setCsr 0xB02 (g.csr 0xB02 + 1)

/-- Whether an instruction word is a branch or a jump. -/
def isBranch (enc : Nat) : Bool :=
  let e := if enc % 4 = 3 then some enc else expandC (enc % 2 ^ 16)
  match e with
  | some x => iOp x == 0x63 || iOp x == 0x67 || iOp x == 0x6F
  | none => false

/-- What an instruction comes to: it retires, its exception is taken, or it waits and the hart stays before it. -/
def State.hEnd (hx : HartIx) (enc : Nat) (r : HRes Word) : State :=
  match r with
  | .ok npc t => (if (t.hart hx).halted then t else t.hpmRetire hx (isBranch enc)).modHart hx fun h => (h.retire npc).stepped
  | .exc c tval t => t.modHart hx fun h => (h.trap false c tval).stepped
  | .stall t => t

/-- Whether a hart in WFI stays there: in the boot ROM until it is released, elsewhere until an enabled interrupt pends. -/
def State.hWaits (s : State) (hx : HartIx) : Bool :=
  let h := s.hart hx
  h.wfi && (h.inRom || (s.mip hx &&& h.csr 0x304) == 0)

/-- HART_INSTRUCTION: a hart that runs takes a pending interrupt, or else fetches and executes a word. -/
def State.hartStep (s : State) (hx : HartIx) (enc : Nat) : State :=
  if !s.hartRuns hx || s.hWaits hx then s
  else
    let t := if (s.hart hx).wfi then s.modHart hx fun h => { h with wfi := false } else s
    match t.takeIrq hx with
    | some i => t.modHart hx fun h => h.trap true i 0
    | none => State.hEnd hx enc ((t.hFetch hx enc).bind fun _ u => u.hWord hx enc)

def execHartInstruction (h : HartIx) (enc : BitVec 32) (s : State) : Out := .next (s.hartStep h enc.toNat)

/-- SPECULATION_BARRIER (R258): slti x0, x0, 0x5B. In a model that resolves every branch before the next instruction, it only
retires. -/
def execSpeculationBarrier (h : HartIx) (s : State) : Out := .next (s.hartStep h 0x05B02013)

end Sys2Proof.Machine
end

