-- ==== Sys2Proof/Machine/Boot.lean ====
section
/-!
DEFINITION. BOOT_IMAGE_AUTH: the boot ROM of hart 0 reads, copies and authenticates an image, then jumps to it (R247-R249).
-/
namespace Sys2Proof.Machine

/-- The bytes [a, a + n) of an image, and a field of it. -/
def imgBytes (img : List Byte) (a n : Nat) : List Byte := (img.drop a).take n
def imgNat (img : List Byte) (a n : Nat) : Nat := ofBytes (imgBytes img a n)

def imgSvn (img : List Byte) : Nat := imgNat img 4 4
def imgLoad (img : List Byte) : Nat := imgNat img 8 8
def imgLen (img : List Byte) : Nat := imgNat img 16 4
def imgEntry (img : List Byte) : Nat := imgNat img 20 4

/-- Header and payload. -/
def imgTotal (img : List Byte) : Nat := 256 + imgLen img

/-- Whether LOAD and LENGTH lie in the range that the header table gives them. -/
def imgPlaced (img : List Byte) : Bool :=
  imgLoad img % 4096 == 0 && decide (0x10000000 ≤ imgLoad img) && decide (imgLoad img + imgTotal img ≤ 0x11000000)

/-- KEY_HASH: the 32 bytes at 0x4C00_0200, the first of them the first byte of the digest. -/
def keyHash : Nat := beNat (([0x200, 0x208, 0x210, 0x218].map fun o => toBytes 8 (Config.fuseWord o).toNat).flatten)
def minSvn : Nat := fld (Config.fuseWord 0x220) 15 0

/-- The signature over the first 128 bytes and the payload. -/
def imgSigned (img : List Byte) : Bool :=
  ecdsaOk (beNat (imgBytes img 0x80 32)) (beNat (imgBytes img 0xA0 32)) (beNat (imgBytes img 0xC0 32)) (beNat (imgBytes img 0xE0 32))
    (sha256 (imgBytes img 0 0x80 ++ imgBytes img 0x100 (imgLen img)))

/-- Whether the ROM can read a header of an image: else the failure, FLASH or BAD_MAGIC. -/
def imgHeader (img : Option (List Byte)) : Except Byte (List Byte) :=
  match img with
  | none => .error 6
  | some l =>
    if l.length < 256 then .error 6
    else if imgNat l 0 4 ≠ 0x31465753 then .error 2
    else .ok l

/-- The checks of an image in the order of R248: BOOT_STAT.CODE. -/
def imgCode (img : List Byte) : Byte :=
  if keyHash = 0 then 7
  else if sha256 (imgBytes img 0x80 64) ≠ keyHash then 3
  else if imgSvn img < minSvn then 4
  else if imgSigned img then 1 else 5

/-- The image is copied to LOAD. -/
def State.bootCopyIn (s : State) (img : List Byte) : State :=
  (s.accWrite (coreSrc none) (imgLoad img) (img.take (imgTotal img))).sealSweep

/-- Try one copy: BOOT_STAT.CODE, and the state with the image copied. An image whose LOAD or LENGTH is out of range fails; which
failure code it leaves is a free value. -/
def State.bootTry (s : State) (img : Option (List Byte)) : Byte × State :=
  match imgHeader img with
  | .error c => (c, s)
  | .ok l =>
    if !imgPlaced l then let d := s.draw; (BitVec.ofNat 8 (2 + d.1.toNat % 6), d.2)
    else if l.length < imgTotal l then (6, s)
    else (imgCode l, s.bootCopyIn l)

/-- CORE_WIN covers the image, unless it is set already (R243). A window of the whole 16 MiB does not fit PAGES: it is a free
value there. -/
def State.bootWindow (s : State) (img : List Byte) : State :=
  if fld s.cores.win 35 24 ≠ 0 then s
  else
    let pages := (imgTotal img + 4095) / 4096
    let d := if pages < 4096 then (at_ pages 0, s) else s.draw
    d.2.modCores fun c => { c with win := at_ ((imgLoad img - 0x10000000) / 4096) 12 ||| at_ (d.1.toNat % 4096) 24 }

/-- A copy booted: hart 0 jumps to ENTRY with its ID in a0 and LOAD in a1. -/
def State.bootJump (s : State) (copy : Bool) (img : List Byte) : State :=
  let t := (s.bootWindow img).modCores fun c => { c with bootCode := 1, bootCopy := copy, bootSvn := BitVec.ofNat 32 (imgSvn img) }
  t.modHart 0 fun h =>
    { (h.setX 10 0).setX 11 (at_ (imgLoad img) 0) with pc := at_ (imgLoad img + imgEntry img) 0, inRom := false }

/-- No copy booted: the reason is recorded, and hart 0 stays in WFI in the boot ROM. -/
def State.bootFailed (s : State) (copy : Bool) (code : Byte) : State :=
  ((s.modCores fun c => { c with bootCode := code, bootCopy := copy }).modHart 0 fun h => { h with wfi := true }).report
    { code := 0x4F, scope := 5, cause := code.toNat }

/-- Try the copies in turn. -/
def State.bootFrom (s : State) : List (Bool × Option (List Byte)) → State
  | [] => s
  | (copy, img) :: rest =>
    let r := s.bootTry img
    match r.1 == 1, img with
    | true, some l => r.2.bootJump copy l
    | _, _ =>
      match rest with
      | [] => r.2.bootFailed copy r.1
      | _ => r.2.bootFrom rest

/-- The image that the manager has placed in Hall SRAM: the header and as much payload as it names. -/
def State.sramImage (s : State) : List Byte :=
  let n := imgTotal (s.physBytes 0x10000000 256)
  s.physBytes 0x10000000 (min n 0x1000000)

/-- Whether hart 0 runs the boot ROM. -/
def State.bootRuns (s : State) : Bool := s.hartRuns 0 && (s.hart 0).inRom && !(s.hart 0).wfi && !s.cores.bootWait

/-- BOOT_IMAGE_AUTH: from Hall SRAM after LOAD_GO, else from the flash, its first copy and then its second. -/
def execBootImageAuth (f : FlashRead) (s : State) : Out :=
  .next (if !s.bootRuns then s
    else if s.cores.bootSram then s.bootFrom [(false, some s.sramImage)]
    else if s.hearth.bootSrc ≠ 0 then s
    else if !f.sfdp then s.bootFrom [(true, none)]
    else s.bootFrom [(false, f.primary), (true, f.secondary)])

end Sys2Proof.Machine
end

