-- ==== Sys2Proof/Machine/Contraction.lean ====
section
/-!
DEFINITION. The contraction instructions 0x60 and 0x61 (R140-R145).
-/
namespace Sys2Proof.Machine

/-- `mma` (R142). -/
def execMma (gl : GloveRef) (w : JFields) (p : Pace) (s : State) : Out := .next (s.tile gl .mma w p)

/-- `mmas` (R144). -/
def execMmas (gl : GloveRef) (w : JFields) (p : Pace) (s : State) : Out := .next (s.tile gl .mmas w p)

end Sys2Proof.Machine
end

