-- ==== Sys2Proof/Machine/Jtag.lean ====
section
/-!
DEFINITION. The JTAG TAP, boundary scan and the debug module (R337, R338; RISC-V External Debug 0.13.2 for what DTMCS and DMI do,
log 29). `tapIr` is the instruction register, `tapDr` the bits that the last scan shifted out, first bit first, `tapPins` the update
latches of the boundary register, which drive the balls under EXTEST and CLAMP.
-/
namespace Sys2Proof.Machine

/-- Whether the Hall die is powered. -/
def State.tapOn (s : State) : Bool := !s.hearth.por && !s.hearth.gated && s.hearth.devState != 3

/-- The bits of a register, lowest first. -/
def bitsOf {n : Nat} (v : BitVec n) : List Bool := (List.range n).map v.getLsbD

/-- An instruction is in the register and a scan of its data register has shifted some bits out. -/
def State.tapScan (s : State) (ir : BitVec 5) (out : List Bool) : State := s.modCores fun c => { c with tapIr := ir, tapDr := out }

/-- The balls as the boundary register captures them: one draw for a whole capture. -/
def State.capture (s : State) (n : Nat) : List Bool × State :=
  ((List.range n).map fun i => Config.ballSample i s.draws, { s with draws := s.draws + 1 })

/-- A boundary scan: the balls are captured and shifted out, the bits shifted in are latched. -/
def State.boundary (s : State) (ir : BitVec 5) (dr : List Bool) : State :=
  let k := s.capture dr.length
  (k.2.modCores fun c => { c with tapPins := dr }).tapScan ir k.1

/-- TAP_RESET: the instruction register holds IDCODE. -/
def execTapReset (s : State) : Out := .next (if s.tapOn then s.tapScan 1 [] else s)

/-- EXTEST. -/
def execExtest (dr : List Bool) (s : State) : Out := .next (if s.tapOn then s.boundary 0 dr else s)

/-- IDCODE. -/
def execIdcode (s : State) : Out := .next (if s.tapOn then s.tapScan 1 (bitsOf (0x11600BE7 : BitVec 32)) else s)

/-- SAMPLE/PRELOAD. -/
def execSamplePreload (dr : List Bool) (s : State) : Out := .next (if s.tapOn then s.boundary 2 dr else s)

/-- CLAMP and HIGHZ select the bypass register; CLAMP drives the balls from the latches, HIGHZ releases them. -/
def execClamp (s : State) : Out := .next (if s.tapOn then s.tapScan 4 [false] else s)
def execHighz (s : State) : Out := .next (if s.tapOn then s.tapScan 5 [false] else s)

/-- BYPASS, and every code that is not listed: a 0 is captured, and the bit shifted in follows it. -/
def execBypass (code : BitVec 5) (tdi : Bool) (s : State) : Out := .next (if s.tapOn then s.tapScan code [false, tdi] else s)

/-! ### The debug module -/

/-- DBG_DIS. -/
def dbgDis : Bool := bitAt (Config.fuseWord 0x220) 16

/-- DTMCS: version 1 and seven address bits; the idle count is the part's. -/
def dtmcsRead : BitVec 32 := 0x00000071 ||| BitVec.ofNat 32 ((Config.hartOpen 0x1010 0).toNat % 8 * 2 ^ 12)

/-- DTMCS: a write of dmireset or dmihardreset ends what the DMI had outstanding. -/
def execDtmcs (dr : BitVec 32) (s : State) : Out :=
  .next (if !s.tapOn then s
    else
      let t := if bitAt dr 17 then s.modCores fun c => { c with dmLast := 0 } else s
      t.tapScan 0x10 (bitsOf dtmcsRead))

/-- The selected hart. -/
def Cores.dmSel (c : Cores) : Nat := fld c.dmControl 25 16 + 1024 * fld c.dmControl 15 6
def Cores.dmActive (c : Cores) : Bool := bitAt c.dmControl 0

/-- A 32-bit word with some bits. -/
def w32 (l : List (Nat × Bool)) : BitVec 32 := l.foldl (fun w b => w ||| (BitVec.ofNat 32 (b2n b.2) <<< b.1)) 0

/-- The hart that the debug module selects, where it exists. -/
def State.dmHart (s : State) : Option HartIx := if h : s.cores.dmSel < 4 then some ⟨s.cores.dmSel, h⟩ else none

/-- dmstatus: version 2 of the module, authenticated. -/
def State.dmStatus (s : State) : BitVec 32 :=
  0x00000082 ||| match s.dmHart with
    | none => w32 [(14, true), (15, true)]
    | some h =>
      let x := s.hart h
      let off := x.inReset || !s.fabricOn
      let run := !off && !x.halted
      let hlt := !off && x.halted
      w32 [(8, hlt), (9, hlt), (10, run), (11, run), (12, off), (13, off), (16, x.resumeAck), (17, x.resumeAck), (18, x.haveReset),
        (19, x.haveReset)]

/-- A read of the debug module at an address. -/
def State.dmRead (s : State) (a : Nat) : BitVec 32 :=
  let c := s.cores
  if 0x04 ≤ a ∧ a < 0x10 then (c.dmData[a - 4]?).getD 0
  else if 0x20 ≤ a ∧ a < 0x28 then (c.dmProg[a - 0x20]?).getD 0
  else match a with
    | 0x10 => c.dmControl
    | 0x11 => s.dmStatus
    | 0x16 => BitVec.ofNat 32 (12 + c.dmCmdErr.toNat * 2 ^ 8 + 8 * 2 ^ 24)
    | 0x38 => c.dmSbcs ||| 0x2000060F
    | 0x39 => c.dmSbAddr.truncate 32
    | 0x3A => (c.dmSbAddr >>> 32).truncate 32
    | 0x3C => c.dmSbData.truncate 32
    | 0x3D => (c.dmSbData >>> 32).truncate 32
    | 0x40 => w32 ((allFin 4).map fun h => (h.val, (s.hart h).halted))
    | _ => 0

/-! ### Abstract commands -/

/-- Set cmderr. -/
def State.cmdErr (s : State) (e : Nat) : State := s.modCores fun c => { c with dmCmdErr := BitVec.ofNat 3 e }

/-- A register of a halted hart by its abstract number; none where there is none. -/
def State.dmGet (s : State) (h : HartIx) (n : Nat) : Option Word :=
  let x := s.hart h
  if n < 0x1000 then s.csrRead h n
  else if n < 0x1020 then some (x.getX (n - 0x1000))
  else if n < 0x1040 then some (at_ (x.getF (n - 0x1020)) 0)
  else none

/-- Write one. -/
def State.dmPut (s : State) (h : HartIx) (n : Nat) (v : Word) : State :=
  s.modHart h fun x =>
    if n < 0x1000 then (if n / 1024 = 3 then x else x.csrWrite n v)
    else if n < 0x1020 then x.setX (n - 0x1000) v
    else { x with f := vset x.f (toFin 32 (by omega) (n - 0x1020)) v }

/-- The 16 halfwords of the program buffer as instruction words from halfword i on. -/
def Cores.progWord (c : Cores) (i : Nat) : Nat :=
  let half (k : Nat) : Nat := (((c.dmProg[k / 2]?).getD 0).toNat >>> (16 * (k % 2))) % 65536
  half i + 65536 * half (i + 1)

/-- Execute the program buffer from halfword i: EBREAK ends it, and so does an exception, which is cmderr 3; so does an
instruction that would leave it or change the flow. -/
def State.progRun (h : HartIx) : Nat → Nat → State → State
  | 0, _, s => s.cmdErr 3
  | n + 1, i, s =>
    if 16 ≤ i then s.cmdErr 3
    else
      let e := s.cores.progWord i
      let k := if e % 4 = 3 then 2 else 1
      let pc := (s.hart h).pc
      match s.hWord h e with
      | .exc 3 _ t => t
      | .exc _ _ t => t.cmdErr 3
      | .stall t => t.cmdErr 7
      | .ok npc t =>
        if npc = pc + BitVec.ofNat 64 (2 * k) then State.progRun h n (i + k) (t.modHart h fun x => { x with priv := 3 }) else t.cmdErr 3

/-- Access Register: transfer, then the program buffer where postexec says so. -/
def State.dmAccess (s : State) (h : HartIx) (v : BitVec 32) : State :=
  let size := fld v 22 20
  let n := fld v 15 0
  let write := bitAt v 16
  let d := s.cores.dmData
  let arg : Word := at_ d[0].toNat 0 ||| at_ d[1].toNat 32
  let t :=
    if !bitAt v 17 then s
    else if size ≠ 3 ∧ (write ∨ size ≠ 2) then s.cmdErr 2
    else match s.dmGet h n with
      | none => s.cmdErr 3
      | some x =>
        if write then s.dmPut h n arg
        else s.modCores fun c =>
          let d0 := vset c.dmData 0 (x.truncate 32)
          { c with dmData := if size = 3 then vset d0 1 ((x >>> 32).truncate 32) else d0 }
  if bitAt v 18 && t.cores.dmCmdErr == 0 then
    (State.progRun h 16 0 t).modHart h fun x => { x with priv := 3, pc := (s.hart h).pc }
  else t

/-- A write of `command`: nothing while cmderr is set; only Access Register, and only of a halted hart. -/
def State.dmCommand (s : State) (v : BitVec 32) : State :=
  if s.cores.dmCmdErr ≠ 0 then s
  else if fld v 31 24 ≠ 0 then s.cmdErr 2
  else match s.dmHart with
    | none => s.cmdErr 4
    | some h => if (s.hart h).halted && s.fabricOn then s.dmAccess h v else s.cmdErr 4

/-! ### System bus access -/

/-- The bytes of a system bus access; none where sbaccess names an unsupported size. -/
def Cores.sbSize (c : Cores) : Option Nat := let k := fld c.dmSbcs 19 17; if k ≤ 3 then some (2 ^ k) else none

def State.sbErr (s : State) (e : Nat) : State := s.modCores fun c => { c with dmSbcs := setFld c.dmSbcs 12 3 e }

/-- After an access the address moves where sbautoincrement says so. -/
def Cores.sbNext (c : Cores) (n : Nat) : Cores :=
  if bitAt c.dmSbcs 16 then { c with dmSbAddr := c.dmSbAddr + BitVec.ofNat 64 n } else c

/-- A system bus access goes where hart 0 may go (log 29): size, alignment and checks, then the effect. -/
def State.sbAccess (s : State) (q : Perm) (f : Nat → Nat → State → State) : State :=
  let a := s.cores.dmSbAddr.toNat
  if fld s.cores.dmSbcs 14 12 ≠ 0 then s
  else match s.cores.sbSize with
    | none => s.sbErr 4
    | some n =>
      if a % n ≠ 0 then s.sbErr 3
      else if !s.fabricOn then s.sbErr 7
      else match s.coreCheck 0 a n q with
        | .ok _ => (f a n s).modCores fun c => c.sbNext n
        | .fault _ => s.sbErr 2
        | .stall _ => (s.wakeTargets a n).sbErr 1

/-- A read into sbdata. -/
def State.sbRead (s : State) : State :=
  s.sbAccess .r fun a n s =>
    match s.coreAttr a with
    | .io =>
      let r := State.readRegs (.hart 0) a n s
      r.2.modCores fun c => { c with dmSbData := at_ (ofBytes r.1) 0 }
    | _ => (s.accRead (coreSrc none) a n).2.2.modCores fun c => { c with dmSbData := at_ (ofBytes (s.physBytes a n)) 0 }

/-- A write of sbdata. -/
def State.sbWrite (s : State) : State :=
  s.sbAccess .w fun a n s =>
    let bs := toBytes n s.cores.dmSbData.toNat
    match s.coreAttr a with
    | .io => s.writeRegs (.hart 0) a bs
    | _ => (s.accWrite (coreSrc none) a bs).sealSweep

/-! ### Writes of the debug module -/

/-- The debug module's registers return to their reset values. -/
def Cores.dmReset (c : Cores) : Cores :=
  { c with dmControl := 0, dmData := Vector.replicate 12 0, dmProg := Vector.replicate 8 0, dmCmdErr := 0, dmSbcs := 0, dmSbAddr := 0,
           dmSbData := 0 }

/-- haltreq, resumereq and ackhavereset of the selected hart. -/
def State.dmRequest (s : State) (v : BitVec 32) : State :=
  match s.dmHart with
  | none => s
  | some h => s.modHart h fun x =>
      let y := if bitAt v 28 then { x with haveReset := false } else x
      if y.inReset then y
      else if bitAt v 31 then (if y.halted then y else y.halt 3)
      else if bitAt v 30 then (let z := { y with resumeAck := false }; if z.halted then z.unhalt else z)
      else y

/-- dmcontrol: hartsel, ndmreset and dmactive are kept. The end of ndmreset applies CORE reset to every hart (log 29). -/
def State.dmCtlWrite (s : State) (v : BitVec 32) : State :=
  if !bitAt v 0 then s.modCores Cores.dmReset
  else
    let was := bitAt s.cores.dmControl 1
    let t := s.modCores fun c => { c with dmControl := v &&& 0x03FFFFC3 }
    let u := if was && !bitAt v 1 && s.fabricOn then t.resetCores 15 else t
    if s.cores.dmActive then u.dmRequest v else u

/-- sbcs: the control bits are stored, the error bits clear where 1 is written; sbreadonaddr and its like act later. -/
def Cores.sbcsWrite (c : Cores) (v : BitVec 32) : Cores :=
  { c with dmSbcs := (v &&& 0x001F8000) ||| (c.dmSbcs &&& 0x7000 &&& ~~~v) }

/-- A write at an address. -/
def State.dmWrite (s : State) (a : Nat) (v : BitVec 32) : State :=
  let hi (w : Word) : Word := setFld w 32 32 v.toNat
  let lo (w : Word) : Word := setFld w 0 32 v.toNat
  if a = 0x10 then s.dmCtlWrite v
  else if !s.cores.dmActive then s
  else if 0x04 ≤ a ∧ a < 0x10 then s.modCores fun c => { c with dmData := vset c.dmData (toFin 12 (by omega) (a - 4)) v }
  else if 0x20 ≤ a ∧ a < 0x28 then s.modCores fun c => { c with dmProg := vset c.dmProg (toFin 8 (by omega) (a - 0x20)) v }
  else match a with
    | 0x16 => s.modCores fun c => { c with dmCmdErr := c.dmCmdErr &&& ~~~(BitVec.ofNat 3 (fld v 10 8)) }
    | 0x17 => s.dmCommand v
    | 0x38 => s.modCores fun c => c.sbcsWrite v
    | 0x39 =>
      let t := s.modCores fun c => { c with dmSbAddr := lo c.dmSbAddr }
      if bitAt s.cores.dmSbcs 20 then t.sbRead else t
    | 0x3A => s.modCores fun c => { c with dmSbAddr := hi c.dmSbAddr }
    | 0x3C => (s.modCores fun c => { c with dmSbData := lo c.dmSbData }).sbWrite
    | 0x3D => s.modCores fun c => { c with dmSbData := hi c.dmSbData }
    | _ => s

/-- A read of sbdata0 starts the next access where sbreadondata says so. -/
def State.dmAfterRead (s : State) (a : Nat) : State :=
  if a = 0x3C ∧ s.cores.dmActive ∧ bitAt s.cores.dmSbcs 15 then s.sbRead else s

/-- What a DMI access does and answers. With DBG_DIS set reads return zero and writes are ignored (R338). -/
def State.dmiDo (s : State) (op addr : Nat) (data : BitVec 32) : BitVec 32 × State :=
  match op with
  | 1 => if dbgDis then (0, s) else (s.dmRead addr, s.dmAfterRead addr)
  | 2 => if dbgDis then (0, s) else (data, s.dmWrite addr data)
  | _ => (data, s)

/-- DMI: the scan shifts out what the access before it answered, then starts its own. -/
def execDmi (op : BitVec 2) (addr : BitVec 7) (data : BitVec 32) (s : State) : Out :=
  .next (if !s.tapOn then s
    else
      let r := s.dmiDo op.toNat addr.toNat data
      let last : BitVec 41 := BitVec.ofNat 41 (r.1.toNat * 4 + addr.toNat * 2 ^ 34)
      (r.2.modCores fun c => { c with dmLast := last }).tapScan 0x11 (bitsOf s.cores.dmLast))

end Sys2Proof.Machine
end

