-- ==== Sys2Proof/Machine/LoadStore.lean ====
section
/-!
DEFINITION. The load and store instructions 0x20-0x3F (R118-R139).
-/
namespace Sys2Proof.Machine

/-- `ld` (R131). -/
def execLd (gl : GloveRef) (w : JFields) (p : Pace) (s : State) : Out := .next (s.tile gl .ld w p)

/-- `st` (R131). -/
def execSt (gl : GloveRef) (w : JFields) (p : Pace) (s : State) : Out := .next (s.tile gl .st w p)

/-- `ldAcc` (R131). -/
def execLdAcc (gl : GloveRef) (w : JFields) (p : Pace) (s : State) : Out := .next (s.tile gl .ldAcc w p)

/-- `stAcc` (R133). -/
def execStAcc (gl : GloveRef) (w : JFields) (p : Pace) (s : State) : Out := .next (s.tile gl .stAcc w p)

/-- `relay` (R135). -/
def execRelay (gl : GloveRef) (w : JFields) (p : Pace) (s : State) : Out := .next (s.tile gl .relay w p)

/-- `dld` (R137). -/
def execDld (gl : GloveRef) (w : JFields) (p : Pace) (s : State) : Out := .next (s.tile gl .dld w p)

/-- `dst` (R137). -/
def execDst (gl : GloveRef) (w : JFields) (p : Pace) (s : State) : Out := .next (s.tile gl .dst w p)

/-- `sld` (R137). -/
def execSld (gl : GloveRef) (w : JFields) (p : Pace) (s : State) : Out := .next (s.tile gl .sld w p)

/-- `sst` (R137). -/
def execSst (gl : GloveRef) (w : JFields) (p : Pace) (s : State) : Out := .next (s.tile gl .sst w p)

end Sys2Proof.Machine
end

