-- ==== Sys2Proof/Machine/Observe.lean ====
section
/-!
DEFINITION. The observation instructions 0x90-0x9F (R272, R275).
-/
namespace Sys2Proof.Machine

/-- `tmark` (R275). -/
def execTmark (gl : GloveRef) (w : JFields) (p : Pace) (s : State) : Out := .next (s.tile gl .tmark w p)

/-- `tdig` (R272, R275). -/
def execTdig (gl : GloveRef) (w : JFields) (p : Pace) (s : State) : Out := .next (s.tile gl .tdig w p)

/-- `cread` (R275). -/
def execCread (gl : GloveRef) (w : JFields) (p : Pace) (s : State) : Out := .next (s.tile gl .cread w p)

end Sys2Proof.Machine
end

