-- ==== Sys2Proof/Machine/RegCommand.lean ====
section
/-!
DEFINITION. REGISTER_WRITE: the write of a whole register word by a port or a hart (R4, R12, R13, R27, R180, R324).
-/
namespace Sys2Proof.Machine

/-- A hart's write of a register word: what is unmapped or may only be read is reported by the hart's store access fault (R12, R13). -/
def State.hartRegWrite (s : State) (h : HartIx) (a : Nat) (v : Word) : State :=
  if !s.acts (.hart h) then s
  else match decodeAddr s.hall.remap a with
    | .none | .rom _ | .census _ => s.coreTrap h .w a
    | _ => s.regWrite (.hart h) a (BitVec.allOnes 64) v

/-- REGISTER_WRITE: a port's write is one of its posted writes, behind those that wait. -/
def State.registerWrite (s : State) (w : Writer) (a : Nat) (v : Word) : State :=
  match w with
  | .port p => s.take (.write p none (a / 8 * 8) (toBytes 8 v.toNat) false)
  | .hart h => s.hartRegWrite h a v

def execRegisterWrite (by_ : Writer) (addr : Nat) (v : Word) (s : State) : Out :=
  .next (if s.fabricOn then s.registerWrite by_ addr v else s)

end Sys2Proof.Machine
end

