-- ==== Sys2Proof/Machine/Reorder.lean ====
section
/-!
DEFINITION. The reorder instructions 0x40-0x5F (R95-R117).
-/
namespace Sys2Proof.Machine

/-- `perm` (R103). -/
def execPerm (gl : GloveRef) (w : JFields) (p : Pace) (s : State) : Out := .next (s.tile gl .perm w p)

/-- `pmix` (R104). -/
def execPmix (gl : GloveRef) (w : JFields) (p : Pace) (s : State) : Out := .next (s.tile gl .pmix w p)

/-- `brev` (R105). -/
def execBrev (gl : GloveRef) (w : JFields) (p : Pace) (s : State) : Out := .next (s.tile gl .brev w p)

/-- `pgat` (R106). -/
def execPgat (gl : GloveRef) (w : JFields) (p : Pace) (s : State) : Out := .next (s.tile gl .pgat w p)

/-- `trn` (R107). -/
def execTrn (gl : GloveRef) (w : JFields) (p : Pace) (s : State) : Out := .next (s.tile gl .trn w p)

/-- `pcomp` (R108). -/
def execPcomp (gl : GloveRef) (w : JFields) (p : Pace) (s : State) : Out := .next (s.tile gl .pcomp w p)

/-- `pcompt` (R108). -/
def execPcompt (gl : GloveRef) (w : JFields) (p : Pace) (s : State) : Out := .next (s.tile gl .pcompt w p)

/-- `gath` (R109). -/
def execGath (gl : GloveRef) (w : JFields) (p : Pace) (s : State) : Out := .next (s.tile gl .gath w p)

/-- `scat` (R110, R111). -/
def execScat (gl : GloveRef) (w : JFields) (p : Pace) (s : State) : Out := .next (s.tile gl .scat w p)

/-- `exch` (R113); in a tick run TICK_REACH comes before every other check (R216). -/
def execExch (gl : GloveRef) (w : JFields) (p : Pace) (s : State) : Out :=
  .next (if s.tileReady gl .exch w ∧ (s.glv gl).kind = .tick then s.issueFault gl fcReach
    else s.tile gl .exch w p)

end Sys2Proof.Machine
end

