-- ==== Sys2Proof/Machine/Smbus.lean ====
section
/-!
DEFINITION. The SMBus target of the hearth (R334, R335): it answers in every power state. `smbOut` holds the data bytes of its last answer.
-/
namespace Sys2Proof.Machine

/-- Whether the hearth runs. -/
def State.smbOn (s : State) : Bool := !s.hearth.por

/-- The target answers with some bytes. -/
def State.smbAnswer (s : State) (l : List Byte) : State := s.modHearth fun h => { h with smbOut := l }

/-- A command that only answers. -/
def State.smbRead (s : State) (l : List Byte) : Out := .next (if s.smbOn then s.smbAnswer l else s)

/-- n bytes that no rule states. -/
def State.smbOpen (s : State) (n : Nat) : List Byte × State := (toBytes n s.draw.1.toNat, s.draw.2)

/-- The identity block: vendor and device ID, stepping, dies, serial, week and year, LAST, STATE. -/
def State.identBytes (s : State) : List Byte :=
  [0x9C, 0x1F, 0x00, 0x16, 0xA1, 5] ++ toBytes 6 (fuseRead 0x100).toNat ++ toBytes 2 (fuseRead 0x108).toNat
    ++ [s.hearth.last.zeroExtend 8, s.hearth.devState.zeroExtend 8, 0, 0]

/-- IDENT. -/
def execIdent (s : State) : Out := s.smbRead s.identBytes

/-- Signed degrees: Hall die, wing dies, stacks, TJ. -/
def State.tempBytes (s : State) : List Byte :=
  s.hearth.dieTemps.toList ++ s.wings.toList.map (·.temp) ++ [s.hearth.tj]

/-- TEMPS. -/
def execTemps (s : State) : Out := s.smbRead s.tempBytes

/-- RAILS: the voltages in mV and the currents in 10 mA that were sampled, rail by rail. -/
def execRails (sample : Vector (BitVec 16 × BitVec 16) 10) (s : State) : Out :=
  s.smbRead (sample.toList.map fun r => toBytes 2 r.1.toNat ++ toBytes 2 r.2.toNat).flatten

/-- ALERT_STAT. -/
def execAlertStat (s : State) : Out := s.smbRead (toBytes 2 s.hearth.alertStat.toNat)

/-- ALERT_MASK: a read answers, a write stores. -/
def execAlertMask (write : Option (BitVec 16)) (s : State) : Out :=
  match write with
  | none => s.smbRead (toBytes 2 s.hearth.alertMask.toNat)
  | some v => .next (if s.smbOn then s.modHearth fun h => { h with alertMask := v } else s)

/-- ALERT_CLR. -/
def execAlertClr (v : BitVec 16) (s : State) : Out :=
  .next (if s.smbOn then s.modHearth fun h => { h with alertStat := h.alertStat &&& ~~~v.truncate 6 } else s)

/-- FUSE_RECORD of die d, from the identity shadow (R341). -/
def execFuseRecord (d : Fin 5) (s : State) : Out :=
  s.smbRead (toBytes 8 (fuseRead (16 * d.val)).toNat ++ toBytes 8 (fuseRead (16 * d.val + 8)).toNat)

/-- The 32 bytes of a black-box entry (R354). -/
def BBEnt.bytes (b : BBEnt) : List Byte := ([0x00, 0x08, 0x10, 0x18].map fun o => toBytes 8 (b.reg o).toNat).flatten

/-- The entry with an index: 0 is the newest (R355). -/
def Hearth.bbAt (h : Hearth) (i : Fin 64) : BBEnt := h.bb[(h.bbHead - 1 - BitVec.ofNat 6 i.val).toNat]

/-- BB_READ; what an index above 63 answers is not stated. -/
def execBbRead (i : Byte) (s : State) : Out :=
  .next (if !s.smbOn then s
    else if h : i.toNat < 64 then s.smbAnswer (s.hearth.bbAt ⟨i.toNat, h⟩).bytes
    else let d := s.smbOpen 32; d.2.smbAnswer d.1)

/-- A master with the manager's rights. -/
def State.managerWriter (s : State) : Writer :=
  if h : s.hearth.mgrSel.toNat < 3 then .port ⟨s.hearth.mgrSel.toNat, by omega⟩ else .hart 0

/-- Whether an address lies in the hearth block or its census copy. -/
def inHearthBlock (a : Nat) : Bool :=
  (decide (0x48000000 ≤ a) && decide (a < 0x49000000)) || (decide (0x58000000 ≤ a) && decide (a < 0x59000000))

/-- READ64: a status byte and eight bytes. The bytes after status 1 or 2 are not stated. An address in the range where nothing lies answers
with all ones and an error (R12); which status it carries is not stated, but it is not that of success (log 55). -/
def State.read64 (s : State) (a : Nat) : State :=
  let fail (st : Byte) : State := let d := s.smbOpen 8; d.2.smbAnswer (st :: d.1)
  if a < 0x40000000 ∨ 0x60000000 < a + 8 then fail 2
  else if !inHearthBlock a ∧ s.hearth.devState ≠ 0 then fail 1
  else if !s.mapped a 8 then
    let d := s.draw
    d.2.smbAnswer (BitVec.ofNat 8 (1 + d.1.toNat % 255) :: List.replicate 8 0xFF)
  else s.smbAnswer (0 :: s.viewBytes s.managerWriter a 8)

/-- READ64. -/
def execRead64 (addr : BitVec 32) (s : State) : Out := .next (if s.smbOn then s.read64 addr.toNat else s)

/-- WAKE (R300, R301): 1 wakes the device; other values are ignored. -/
def execWake (v : Byte) (s : State) : Out := .next (if s.smbOn && v == 1 then s.deviceWake else s)

/-- ALERT_N is low while an unmasked bit of ALERT_STAT is set. -/
def Hearth.alertN (h : Hearth) : Bool := (h.alertStat.zeroExtend 16 &&& ~~~h.alertMask) == 0

/-- ALERT_RESPONSE: a target that drives ALERT_N low answers with its own address, above the bit that SMBus leaves at 0. -/
def execAlertResponse (s : State) : Out :=
  .next (if s.smbOn && !s.hearth.alertN then s.smbAnswer [BitVec.ofNat 8 (2 * (0x60 + s.hearth.smbAddr.toNat))] else s)

end Sys2Proof.Machine
end

