-- ==== Sys2Proof/Machine/Spatial.lean ====
section
/-!
DEFINITION. The spatial instructions 0x80-0x8F (R158-R178).
-/
namespace Sys2Proof.Machine

/-- `sqz` (R161, R162). -/
def execSqz (gl : GloveRef) (w : JFields) (p : Pace) (s : State) : Out := .next (s.tile gl .sqz w p)

/-- `shist` (R163). -/
def execShist (gl : GloveRef) (w : JFields) (p : Pace) (s : State) : Out := .next (s.tile gl .shist w p)

/-- `spfx` (R163). -/
def execSpfx (gl : GloveRef) (w : JFields) (p : Pace) (s : State) : Out := .next (s.tile gl .spfx w p)

/-- `sdist` (R163). -/
def execSdist (gl : GloveRef) (w : JFields) (p : Pace) (s : State) : Out := .next (s.tile gl .sdist w p)

/-- `suniqCnt` (R166). -/
def execSuniqCnt (gl : GloveRef) (w : JFields) (p : Pace) (s : State) : Out := .next (s.tile gl .suniqCnt w p)

/-- `suniq` (R167, R168). -/
def execSuniq (gl : GloveRef) (w : JFields) (p : Pace) (s : State) : Out := .next (s.tile gl .suniq w p)

/-- `shash` (R169). -/
def execShash (gl : GloveRef) (w : JFields) (p : Pace) (s : State) : Out := .next (s.tile gl .shash w p)

/-- `slabel` (R170). -/
def execSlabel (gl : GloveRef) (w : JFields) (p : Pace) (s : State) : Out := .next (s.tile gl .slabel w p)

/-- `sboxRoots` (R171, phase 0). -/
def execSboxRoots (gl : GloveRef) (w : JFields) (p : Pace) (s : State) : Out := .next (s.tile gl .sbox w p)

/-- `sboxFold` (R171, phase 1). -/
def execSboxFold (gl : GloveRef) (w : JFields) (p : Pace) (s : State) : Out := .next (s.tile gl .sbox w p)

/-- `sboxFinish` (R171, phase 2). -/
def execSboxFinish (gl : GloveRef) (w : JFields) (p : Pace) (s : State) : Out := .next (s.tile gl .sbox w p)

/-- `soct` (R172). -/
def execSoct (gl : GloveRef) (w : JFields) (p : Pace) (s : State) : Out := .next (s.tile gl .soct w p)

/-- `snear` (R173). -/
def execSnear (gl : GloveRef) (w : JFields) (p : Pace) (s : State) : Out := .next (s.tile gl .snear w p)

/-- `snearR` (R173, radius mode). -/
def execSnearR (gl : GloveRef) (w : JFields) (p : Pace) (s : State) : Out := .next (s.tile gl .snear w p)

end Sys2Proof.Machine
end

