-- ==== Sys2Proof/Machine/Vector.lean ====
section
/-!
DEFINITION. The vector instructions 0x64-0x7F (R145-R157).
-/
namespace Sys2Proof.Machine

/-- `vadd` (R146). -/
def execVadd (gl : GloveRef) (w : JFields) (p : Pace) (s : State) : Out := .next (s.tile gl .vadd w p)

/-- `vsub` (R146). -/
def execVsub (gl : GloveRef) (w : JFields) (p : Pace) (s : State) : Out := .next (s.tile gl .vsub w p)

/-- `vmul` (R146). -/
def execVmul (gl : GloveRef) (w : JFields) (p : Pace) (s : State) : Out := .next (s.tile gl .vmul w p)

/-- `vfma` (R146). -/
def execVfma (gl : GloveRef) (w : JFields) (p : Pace) (s : State) : Out := .next (s.tile gl .vfma w p)

/-- `vmin` (R146). -/
def execVmin (gl : GloveRef) (w : JFields) (p : Pace) (s : State) : Out := .next (s.tile gl .vmin w p)

/-- `vmax` (R146). -/
def execVmax (gl : GloveRef) (w : JFields) (p : Pace) (s : State) : Out := .next (s.tile gl .vmax w p)

/-- `vand` (R146). -/
def execVand (gl : GloveRef) (w : JFields) (p : Pace) (s : State) : Out := .next (s.tile gl .vand w p)

/-- `vor` (R146). -/
def execVor (gl : GloveRef) (w : JFields) (p : Pace) (s : State) : Out := .next (s.tile gl .vor w p)

/-- `vxor` (R146). -/
def execVxor (gl : GloveRef) (w : JFields) (p : Pace) (s : State) : Out := .next (s.tile gl .vxor w p)

/-- `vsh` (R146). -/
def execVsh (gl : GloveRef) (w : JFields) (p : Pace) (s : State) : Out := .next (s.tile gl .vsh w p)

/-- `vun` (R148). -/
def execVun (gl : GloveRef) (w : JFields) (p : Pace) (s : State) : Out := .next (s.tile gl .vun w p)

/-- `vcmp` (R149). -/
def execVcmp (gl : GloveRef) (w : JFields) (p : Pace) (s : State) : Out := .next (s.tile gl .vcmp w p)

/-- `vcred` (R150). -/
def execVcred (gl : GloveRef) (w : JFields) (p : Pace) (s : State) : Out := .next (s.tile gl .vcred w p)

/-- `vhred` (R151). -/
def execVhred (gl : GloveRef) (w : JFields) (p : Pace) (s : State) : Out := .next (s.tile gl .vhred w p)

/-- `vcvt` (R153). -/
def execVcvt (gl : GloveRef) (w : JFields) (p : Pace) (s : State) : Out := .next (s.tile gl .vcvt w p)

/-- `vquant` (R154). -/
def execVquant (gl : GloveRef) (w : JFields) (p : Pace) (s : State) : Out := .next (s.tile gl .vquant w p)

/-- `vdeq` (R154). -/
def execVdeq (gl : GloveRef) (w : JFields) (p : Pace) (s : State) : Out := .next (s.tile gl .vdeq w p)

/-- `vpdep` (R152). -/
def execVpdep (gl : GloveRef) (w : JFields) (p : Pace) (s : State) : Out := .next (s.tile gl .vpdep w p)

/-- `vpext` (R152). -/
def execVpext (gl : GloveRef) (w : JFields) (p : Pace) (s : State) : Out := .next (s.tile gl .vpext w p)

end Sys2Proof.Machine
end

