-- ==== Sys2Proof/Machine/Dispatch.lean ====
section
/-!
DEFINITION. One arm per command: each calls its meaning.
-/
namespace Sys2Proof.Machine

/-- The effect of a command on everything but the queue. -/
def exec (i : Instr) (s : State) : Host.Outcome State Fault Refusal :=
  match i with
  | .nop gl w => Sys2Proof.Machine.execNop gl w s
  | .endI gl w => Sys2Proof.Machine.execEndI gl w s
  | .br gl w => Sys2Proof.Machine.execBr gl w s
  | .bc gl w => Sys2Proof.Machine.execBc gl w s
  | .jal gl w => Sys2Proof.Machine.execJal gl w s
  | .jr gl w => Sys2Proof.Machine.execJr gl w s
  | .loop gl w => Sys2Proof.Machine.execLoop gl w s
  | .scmp gl w => Sys2Proof.Machine.execScmp gl w s
  | .add gl w => Sys2Proof.Machine.execAdd gl w s
  | .sub gl w => Sys2Proof.Machine.execSub gl w s
  | .mul gl w => Sys2Proof.Machine.execMul gl w s
  | .and gl w => Sys2Proof.Machine.execAnd gl w s
  | .or gl w => Sys2Proof.Machine.execOr gl w s
  | .xor gl w => Sys2Proof.Machine.execXor gl w s
  | .shl gl w => Sys2Proof.Machine.execShl gl w s
  | .shr gl w => Sys2Proof.Machine.execShr gl w s
  | .sar gl w => Sys2Proof.Machine.execSar gl w s
  | .li gl w => Sys2Proof.Machine.execLi gl w s
  | .lih gl w => Sys2Proof.Machine.execLih gl w s
  | .dset gl w => Sys2Proof.Machine.execDset gl w s
  | .dget gl w => Sys2Proof.Machine.execDget gl w s
  | .pset gl w => Sys2Proof.Machine.execPset gl w s
  | .pget gl w => Sys2Proof.Machine.execPget gl w s
  | .mset gl w => Sys2Proof.Machine.execMset gl w s
  | .mget gl w => Sys2Proof.Machine.execMget gl w s
  | .bwait gl w => Sys2Proof.Machine.execBwait gl w s
  | .bsig gl w => Sys2Proof.Machine.execBsig gl w s
  | .fence gl w => Sys2Proof.Machine.execFence gl w s
  | .trel gl w => Sys2Proof.Machine.execTrel gl w s
  | .rdsr gl w => Sys2Proof.Machine.execRdsr gl w s
  | .reservedOpcode gl op w => Sys2Proof.Machine.execReservedOpcode gl op w s
  | .perm gl w p => Sys2Proof.Machine.execPerm gl w p s
  | .pmix gl w p => Sys2Proof.Machine.execPmix gl w p s
  | .brev gl w p => Sys2Proof.Machine.execBrev gl w p s
  | .pgat gl w p => Sys2Proof.Machine.execPgat gl w p s
  | .trn gl w p => Sys2Proof.Machine.execTrn gl w p s
  | .pcomp gl w p => Sys2Proof.Machine.execPcomp gl w p s
  | .pcompt gl w p => Sys2Proof.Machine.execPcompt gl w p s
  | .gath gl w p => Sys2Proof.Machine.execGath gl w p s
  | .scat gl w p => Sys2Proof.Machine.execScat gl w p s
  | .exch gl w p => Sys2Proof.Machine.execExch gl w p s
  | .ld gl w p => Sys2Proof.Machine.execLd gl w p s
  | .st gl w p => Sys2Proof.Machine.execSt gl w p s
  | .ldAcc gl w p => Sys2Proof.Machine.execLdAcc gl w p s
  | .stAcc gl w p => Sys2Proof.Machine.execStAcc gl w p s
  | .relay gl w p => Sys2Proof.Machine.execRelay gl w p s
  | .dld gl w p => Sys2Proof.Machine.execDld gl w p s
  | .dst gl w p => Sys2Proof.Machine.execDst gl w p s
  | .sld gl w p => Sys2Proof.Machine.execSld gl w p s
  | .sst gl w p => Sys2Proof.Machine.execSst gl w p s
  | .mma gl w p => Sys2Proof.Machine.execMma gl w p s
  | .mmas gl w p => Sys2Proof.Machine.execMmas gl w p s
  | .vadd gl w p => Sys2Proof.Machine.execVadd gl w p s
  | .vsub gl w p => Sys2Proof.Machine.execVsub gl w p s
  | .vmul gl w p => Sys2Proof.Machine.execVmul gl w p s
  | .vfma gl w p => Sys2Proof.Machine.execVfma gl w p s
  | .vmin gl w p => Sys2Proof.Machine.execVmin gl w p s
  | .vmax gl w p => Sys2Proof.Machine.execVmax gl w p s
  | .vand gl w p => Sys2Proof.Machine.execVand gl w p s
  | .vor gl w p => Sys2Proof.Machine.execVor gl w p s
  | .vxor gl w p => Sys2Proof.Machine.execVxor gl w p s
  | .vsh gl w p => Sys2Proof.Machine.execVsh gl w p s
  | .vun gl w p => Sys2Proof.Machine.execVun gl w p s
  | .vcmp gl w p => Sys2Proof.Machine.execVcmp gl w p s
  | .vcred gl w p => Sys2Proof.Machine.execVcred gl w p s
  | .vhred gl w p => Sys2Proof.Machine.execVhred gl w p s
  | .vcvt gl w p => Sys2Proof.Machine.execVcvt gl w p s
  | .vquant gl w p => Sys2Proof.Machine.execVquant gl w p s
  | .vdeq gl w p => Sys2Proof.Machine.execVdeq gl w p s
  | .vpdep gl w p => Sys2Proof.Machine.execVpdep gl w p s
  | .vpext gl w p => Sys2Proof.Machine.execVpext gl w p s
  | .sqz gl w p => Sys2Proof.Machine.execSqz gl w p s
  | .shist gl w p => Sys2Proof.Machine.execShist gl w p s
  | .spfx gl w p => Sys2Proof.Machine.execSpfx gl w p s
  | .sdist gl w p => Sys2Proof.Machine.execSdist gl w p s
  | .suniqCnt gl w p => Sys2Proof.Machine.execSuniqCnt gl w p s
  | .suniq gl w p => Sys2Proof.Machine.execSuniq gl w p s
  | .shash gl w p => Sys2Proof.Machine.execShash gl w p s
  | .slabel gl w p => Sys2Proof.Machine.execSlabel gl w p s
  | .sboxRoots gl w p => Sys2Proof.Machine.execSboxRoots gl w p s
  | .sboxFold gl w p => Sys2Proof.Machine.execSboxFold gl w p s
  | .sboxFinish gl w p => Sys2Proof.Machine.execSboxFinish gl w p s
  | .soct gl w p => Sys2Proof.Machine.execSoct gl w p s
  | .snear gl w p => Sys2Proof.Machine.execSnear gl w p s
  | .snearR gl w p => Sys2Proof.Machine.execSnearR gl w p s
  | .tmark gl w p => Sys2Proof.Machine.execTmark gl w p s
  | .tdig gl w p => Sys2Proof.Machine.execTdig gl w p s
  | .cread gl w p => Sys2Proof.Machine.execCread gl w p s
  | .memoryResponse m => Sys2Proof.Machine.execMemoryResponse m s
  | .fabricFenceComplete m => Sys2Proof.Machine.execFabricFenceComplete m s
  | .instructionLineFill gl line ahead => Sys2Proof.Machine.execInstructionLineFill gl line ahead s
  | .trelEffect gl => Sys2Proof.Machine.execTrelEffect gl s
  | .instanceEnd gl => Sys2Proof.Machine.execInstanceEnd gl s
  | .boltSignalApply b sigs => Sys2Proof.Machine.execBoltSignalApply b sigs s
  | .boltGrant b => Sys2Proof.Machine.execBoltGrant b s
  | .boltWaitTimeout b who => Sys2Proof.Machine.execBoltWaitTimeout b who s
  | .openT r => Sys2Proof.Machine.execOpenT r s
  | .closeT r => Sys2Proof.Machine.execCloseT r s
  | .roomSet r => Sys2Proof.Machine.execRoomSet r s
  | .lease r => Sys2Proof.Machine.execLease r s
  | .leaseFree r => Sys2Proof.Machine.execLeaseFree r s
  | .streamOpen r => Sys2Proof.Machine.execStreamOpen r s
  | .streamSet r => Sys2Proof.Machine.execStreamSet r s
  | .streamClose r => Sys2Proof.Machine.execStreamClose r s
  | .boltAlloc r => Sys2Proof.Machine.execBoltAlloc r s
  | .boltFree r => Sys2Proof.Machine.execBoltFree r s
  | .share r => Sys2Proof.Machine.execShare r s
  | .evict r => Sys2Proof.Machine.execEvict r s
  | .badRequest r code => Sys2Proof.Machine.execBadRequest r code s
  | .mgrDecide by_ mb allow => Sys2Proof.Machine.execMgrDecide by_ mb allow s
  | .evictionComplete x => Sys2Proof.Machine.execEvictionComplete x s
  | .drainLimitExpiry x => Sys2Proof.Machine.execDrainLimitExpiry x s
  | .streamDoorbell by_ strm tail => Sys2Proof.Machine.execStreamDoorbell by_ strm tail s
  | .streamResume by_ strm => Sys2Proof.Machine.execStreamResume by_ strm s
  | .streamAbort by_ strm => Sys2Proof.Machine.execStreamAbort by_ strm s
  | .streamPause by_ strm => Sys2Proof.Machine.execStreamPause by_ strm s
  | .commandFetch strm hostRecord err => Sys2Proof.Machine.execCommandFetch strm hostRecord err s
  | .commandBind => Sys2Proof.Machine.execCommandBind s
  | .sliceExpiry gl => Sys2Proof.Machine.execSliceExpiry gl s
  | .swapSave gl => Sys2Proof.Machine.execSwapSave gl s
  | .contextRestore gl => Sys2Proof.Machine.execContextRestore gl s
  | .launch strm ix => Sys2Proof.Machine.execLaunch strm ix s
  | .copy strm ix p => Sys2Proof.Machine.execCopy strm ix p s
  | .relayout strm ix p => Sys2Proof.Machine.execRelayout strm ix p s
  | .boltSignal strm ix => Sys2Proof.Machine.execBoltSignal strm ix s
  | .boltWait strm ix => Sys2Proof.Machine.execBoltWait strm ix s
  | .armTick strm ix => Sys2Proof.Machine.execArmTick strm ix s
  | .disarmTick strm ix => Sys2Proof.Machine.execDisarmTick strm ix s
  | .timestamp strm ix => Sys2Proof.Machine.execTimestamp strm ix s
  | .fenceCommand strm ix => Sys2Proof.Machine.execFenceCommand strm ix s
  | .badCommand strm ix => Sys2Proof.Machine.execBadCommand strm ix s
  | .completionWrite strm => Sys2Proof.Machine.execCompletionWrite strm s
  | .targetGrant port arrivals => Sys2Proof.Machine.execTargetGrant port arrivals s
  | .requestAged port k => Sys2Proof.Machine.execRequestAged port k s
  | .qosAgeStep port => Sys2Proof.Machine.execQosAgeStep port s
  | .flitCrcFail l => Sys2Proof.Machine.execFlitCrcFail l s
  | .linkDown l => Sys2Proof.Machine.execLinkDown l s
  | .hallRemapWrite by_ v => Sys2Proof.Machine.execHallRemapWrite by_ v s
  | .remapDone => Sys2Proof.Machine.execRemapDone s
  | .accUnitAccess a => Sys2Proof.Machine.execAccUnitAccess a s
  | .detInit by_ w k => Sys2Proof.Machine.execDetInit by_ w k s
  | .detInitDone w k => Sys2Proof.Machine.execDetInitDone w k s
  | .eccCntRead by_ w => Sys2Proof.Machine.execEccCntRead by_ w s
  | .hallEccRead by_ => Sys2Proof.Machine.execHallEccRead by_ s
  | .patrolScrub w found => Sys2Proof.Machine.execPatrolScrub w found s
  | .hbmTrainingEnd w ok => Sys2Proof.Machine.execHbmTrainingEnd w ok s
  | .hbmSelfRefreshEntry w => Sys2Proof.Machine.execHbmSelfRefreshEntry w s
  | .hbmSelfRefreshExit w => Sys2Proof.Machine.execHbmSelfRefreshExit w s
  | .hbmZeroFillDone w => Sys2Proof.Machine.execHbmZeroFillDone w s
  | .tickEdgeCapture n level => Sys2Proof.Machine.execTickEdgeCapture n level s
  | .tickEdgeQualify n => Sys2Proof.Machine.execTickEdgeQualify n s
  | .tickFire n => Sys2Proof.Machine.execTickFire n s
  | .sealReadReturn e => Sys2Proof.Machine.execSealReadReturn e s
  | .graceExpiry e => Sys2Proof.Machine.execGraceExpiry e s
  | .bypassLaneSend p => Sys2Proof.Machine.execBypassLaneSend p s
  | .wakeEntryDue ix => Sys2Proof.Machine.execWakeEntryDue ix s
  | .syncOutPulse => Sys2Proof.Machine.execSyncOutPulse s
  | .engineDozeEntry e => Sys2Proof.Machine.execEngineDozeEntry e s
  | .engineNapEntry e => Sys2Proof.Machine.execEngineNapEntry e s
  | .engineSleepEntry e => Sys2Proof.Machine.execEngineSleepEntry e s
  | .engineWakeDone e => Sys2Proof.Machine.execEngineWakeDone e s
  | .wingStandbyEntry w => Sys2Proof.Machine.execWingStandbyEntry w s
  | .wingWakeDone w => Sys2Proof.Machine.execWingWakeDone w s
  | .devPwrActive by_ => Sys2Proof.Machine.execDevPwrActive by_ s
  | .devPwrStandby by_ => Sys2Proof.Machine.execDevPwrStandby by_ s
  | .devPwrOffAo by_ => Sys2Proof.Machine.execDevPwrOffAo by_ s
  | .deviceStandbyReached => Sys2Proof.Machine.execDeviceStandbyReached s
  | .offAoReached => Sys2Proof.Machine.execOffAoReached s
  | .deviceActiveReached => Sys2Proof.Machine.execDeviceActiveReached s
  | .governorWindow power => Sys2Proof.Machine.execGovernorWindow power s
  | .thermalSample t => Sys2Proof.Machine.execThermalSample t s
  | .emergClear => Sys2Proof.Machine.execEmergClear s
  | .hwdtKick by_ => Sys2Proof.Machine.execHwdtKick by_ s
  | .hwdtExpiry => Sys2Proof.Machine.execHwdtExpiry s
  | .powerOnReset => Sys2Proof.Machine.execPowerOnReset s
  | .porEnd => Sys2Proof.Machine.execPorEnd s
  | .resetNLow => Sys2Proof.Machine.execResetNLow s
  | .resetNHigh => Sys2Proof.Machine.execResetNHigh s
  | .pwrGoodLow => Sys2Proof.Machine.execPwrGoodLow s
  | .pwrGoodHigh => Sys2Proof.Machine.execPwrGoodHigh s
  | .railUndervoltage r => Sys2Proof.Machine.execRailUndervoltage r s
  | .hearthUndervoltage => Sys2Proof.Machine.execHearthUndervoltage s
  | .warm by_ => Sys2Proof.Machine.execWarm by_ s
  | .engineReset by_ e => Sys2Proof.Machine.execEngineReset by_ e s
  | .coreReset by_ mask => Sys2Proof.Machine.execCoreReset by_ mask s
  | .coreRun by_ mask => Sys2Proof.Machine.execCoreRun by_ mask s
  | .loadGo by_ => Sys2Proof.Machine.execLoadGo by_ s
  | .bootImageAuth f => Sys2Proof.Machine.execBootImageAuth f s
  | .hartMsipStart h => Sys2Proof.Machine.execHartMsipStart h s
  | .coreMemoryAccess h addr k => Sys2Proof.Machine.execCoreMemoryAccess h addr k s
  | .directoryRequest line writebacks reqs => Sys2Proof.Machine.execDirectoryRequest line writebacks reqs s
  | .coreWriteback h line => Sys2Proof.Machine.execCoreWriteback h line s
  | .directoryForward line => Sys2Proof.Machine.execDirectoryForward line s
  | .speculationBarrier h => Sys2Proof.Machine.execSpeculationBarrier h s
  | .mtimerInterrupt h => Sys2Proof.Machine.execMtimerInterrupt h s
  | .plicClaim ctx => Sys2Proof.Machine.execPlicClaim ctx s
  | .plicComplete ctx src => Sys2Proof.Machine.execPlicComplete ctx src s
  | .hostInboundRead p bar off len => Sys2Proof.Machine.execHostInboundRead p bar off len s
  | .hostInboundWrite p bar off data poisoned => Sys2Proof.Machine.execHostInboundWrite p bar off data poisoned s
  | .perstAssert p => Sys2Proof.Machine.execPerstAssert p s
  | .perstDeassert p => Sys2Proof.Machine.execPerstDeassert p s
  | .pcieLinkLoss p => Sys2Proof.Machine.execPcieLinkLoss p s
  | .hotReset p => Sys2Proof.Machine.execHotReset p s
  | .linkDisable p => Sys2Proof.Machine.execLinkDisable p s
  | .flr p => Sys2Proof.Machine.execFlr p s
  | .d3hotEntry p => Sys2Proof.Machine.execD3hotEntry p s
  | .d0Return p => Sys2Proof.Machine.execD0Return p s
  | .aspmL1Entry p => Sys2Proof.Machine.execAspmL1Entry p s
  | .portLinkChange p speed width => Sys2Proof.Machine.execPortLinkChange p speed width s
  | .completionTimeout p gl => Sys2Proof.Machine.execCompletionTimeout p gl s
  | .msixUnmask p v => Sys2Proof.Machine.execMsixUnmask p v s
  | .flashGo by_ => Sys2Proof.Machine.execFlashGo by_ s
  | .flashCommandDone data => Sys2Proof.Machine.execFlashCommandDone data s
  | .ident => Sys2Proof.Machine.execIdent s
  | .temps => Sys2Proof.Machine.execTemps s
  | .rails sample => Sys2Proof.Machine.execRails sample s
  | .alertStat => Sys2Proof.Machine.execAlertStat s
  | .alertMask write => Sys2Proof.Machine.execAlertMask write s
  | .alertClr v => Sys2Proof.Machine.execAlertClr v s
  | .fuseRecord d => Sys2Proof.Machine.execFuseRecord d s
  | .bbRead ix => Sys2Proof.Machine.execBbRead ix s
  | .read64 addr => Sys2Proof.Machine.execRead64 addr s
  | .wake v => Sys2Proof.Machine.execWake v s
  | .alertResponse => Sys2Proof.Machine.execAlertResponse s
  | .uartTxPush by_ b => Sys2Proof.Machine.execUartTxPush by_ b s
  | .uartRxPop by_ => Sys2Proof.Machine.execUartRxPop by_ s
  | .uartRxByte b => Sys2Proof.Machine.execUartRxByte b s
  | .uartTxByte => Sys2Proof.Machine.execUartTxByte s
  | .tapReset => Sys2Proof.Machine.execTapReset s
  | .extest dr => Sys2Proof.Machine.execExtest dr s
  | .idcode => Sys2Proof.Machine.execIdcode s
  | .samplePreload dr => Sys2Proof.Machine.execSamplePreload dr s
  | .clamp => Sys2Proof.Machine.execClamp s
  | .highz => Sys2Proof.Machine.execHighz s
  | .dtmcs dr => Sys2Proof.Machine.execDtmcs dr s
  | .dmi op addr data => Sys2Proof.Machine.execDmi op addr data s
  | .bypass code tdi => Sys2Proof.Machine.execBypass code tdi s
  | .obsClear by_ => Sys2Proof.Machine.execObsClear by_ s
  | .traceFlush by_ c => Sys2Proof.Machine.execTraceFlush by_ c s
  | .traceDmaChunk c => Sys2Proof.Machine.execTraceDmaChunk c s
  | .obsWriteIssue => Sys2Proof.Machine.execObsWriteIssue s
  | .samplerDue k => Sys2Proof.Machine.execSamplerDue k s
  | .watchdogExpiry gl => Sys2Proof.Machine.execWatchdogExpiry gl s
  | .gloveFrozen gl => Sys2Proof.Machine.execGloveFrozen gl s
  | .dumpStart => Sys2Proof.Machine.execDumpStart s
  | .dumpComplete => Sys2Proof.Machine.execDumpComplete s
  | .hangResume by_ gl => Sys2Proof.Machine.execHangResume by_ gl s
  | .hangAbort by_ gl => Sys2Proof.Machine.execHangAbort by_ gl s
  | .cellarSlotFree by_ w mask => Sys2Proof.Machine.execCellarSlotFree by_ w mask s
  | .mgrEvqRead by_ => Sys2Proof.Machine.execMgrEvqRead by_ s
  | .registerWrite by_ addr v => Sys2Proof.Machine.execRegisterWrite by_ addr v s
  | .rowStepEnd e u => Sys2Proof.Machine.execRowStepEnd e u s
  | .hartInstruction h enc => Sys2Proof.Machine.execHartInstruction h enc s
  | .configurationRequest p off write => Sys2Proof.Machine.execConfigurationRequest p off write s
  | .aspmL1Exit p => Sys2Proof.Machine.execAspmL1Exit p s

end Sys2Proof.Machine
end

