-- ==== Sys2Proof/WellFormed.lean ====
section
/-!
DEFINITION. Which commands are well formed: the operands that the types do not already bound.
-/
namespace Sys2Proof

/-- The length of a BAR (R320). -/
def barLen (b : Fin 3) : Nat := if b = 0 then 0x20000000 else if b = 1 then 0x40000000 else 0x2000000000

/-- Whether a request lies in a BAR and in one page. -/
def inBar (b : Fin 3) (off n : Nat) : Bool := decide (0 < n) && decide (off + n ≤ barLen b) && decide (off % 4096 + n ≤ 4096)

/-- The data-register codes of the TAP that R337 lists, BYPASS apart. -/
def tapListed (c : BitVec 5) : Bool := c == 0 || c == 1 || c == 2 || c == 4 || c == 5 || c == 0x10 || c == 0x11

/-- Whether a command's operands have the shape that its rules give it. -/
def Instr.wellFormed : Instr → Bool
  /- An opcode that no class chapter assigns (R80), or `sbox` with PHASE 3 (R175). -/
  | .reservedOpcode _ op w => !assignedOpcode op || (op == 0x87 && w.imm.getLsbD 1 && w.imm.getLsbD 0)
  /- EMIT, PHASE and RADIUS name the constructor (R175). -/
  | .suniqCnt _ w _ => !w.imm.getLsbD 6
  | .suniq _ w _ => w.imm.getLsbD 6
  | .sboxRoots _ w _ => !w.imm.getLsbD 1 && !w.imm.getLsbD 0
  | .sboxFold _ w _ => !w.imm.getLsbD 1 && w.imm.getLsbD 0
  | .sboxFinish _ w _ => w.imm.getLsbD 1 && !w.imm.getLsbD 0
  | .snear _ w _ => !w.imm.getLsbD 9
  | .snearR _ w _ => w.imm.getLsbD 9
  /- A register is a 64-bit word on an 8-byte boundary of register space (R32). -/
  | .registerWrite _ a _ => a % 8 == 0 && decide (0x40000000 ≤ a) && decide (a < 0x4D000000)
  /- A host request carries at least one byte, lies in its BAR and in one 4 KiB page (R324, PCI Express). -/
  | .hostInboundRead _ b off n => inBar b off n
  | .hostInboundWrite _ b off d _ => inBar b off d.length
  /- A waiting transaction carries at least one byte (R17). -/
  | .targetGrant _ l => l.all fun r => decide (0 < r.bytes)
  /- DMI operations are nop, read and write (R338). -/
  | .dmi op _ _ => op != 3
  /- A configuration request names a dword (R320). -/
  | .configurationRequest _ off _ => off % 4 == 0 && decide (off < 4096)
  /- BYPASS is selected by its code and by every code that is not listed (R337). -/
  | .bypass c _ => !tapListed c
  /- A mailbox code that R182 does not list. -/
  | .badRequest _ c => !((decide (1 ≤ c.toNat) && decide (c.toNat ≤ 0x0B)) || c == 0x10)
  /- A link that is up has a rate and a width (R319, R332). -/
  | .portLinkChange _ speed width => decide (1 ≤ speed.toNat) && decide (speed.toNat ≤ 4) && (width == 1 || width == 2 || width == 4)
  | _ => true

end Sys2Proof
end

