-- ==== Sys2Proof/Safety.lean ====
section
/-!
DEFINITION. What a safe run of the block is, and the words in which statements speak of one command: the conditions under
which an instruction of a glove goes on, and the states it leaves.
-/
namespace Sys2Proof.Machine

/-- A step that ends with a next state: no fault and no refusal. -/
def Answers (o : Host.Outcome State Fault Refusal) : Prop := ∃ t, o = .next t

/-- The invariant of every run: memory in its canonical form. -/
def State.inv (s : State) : Prop := Memory.wf s.mem = true

/-- A non-tile instruction of a glove issues now, and the next PC stays in its region (R59, R62, R69, R83): its word stands at PC in the
instruction buffer, no hazard holds it, and it is the glove's turn. -/
def State.mayRun (s : State) (gl : GloveRef) (op : BitVec 8) (w : JFields) : Prop :=
  s.mayIssue gl op w = true ∧ (s.glv gl).nextOk = true

/-- No other glove of the engine has an instruction in flight, so no row step of another comes between (R61). -/
def State.alone (s : State) (gl : GloveRef) : Prop := ∀ x, x ≠ gl.g → (s.glv ⟨gl.e, x⟩).inflight = []

/-- The first transaction of an access of a glove finds a memory ID, a tracker entry and link credits (R25, R30, R63), and no access waits. -/
def State.accessFree (s : State) (gl : GloveRef) (a n : Nat) (write : Bool) : Prop :=
  s.fitCount gl (reqsOf a n write) [] ≠ 0 ∧ s.hall.held = []

/-- A byte that the shadow of an enabled deterministic-order window may hold (R46): 40 bytes for each element. -/
def State.inShadow (s : State) (k : Nat) : Prop :=
  ∃ (w : WingIx) (i : Fin 4) (a : Nat), ((s.wing w).det[i.val]).holds a = true ∧ ((s.wing w).det[i.val]).entryAt a ≤ k
    ∧ k < ((s.wing w).det[i.val]).entryAt a + 40

/-- Every byte of memory reads as before, but for those at some canonical addresses and those in shadows, which follow their windows. -/
def State.sameBut (s t : State) (keys : List Nat) : Prop :=
  ∀ x, (∀ k, (decodeAddr s.hall.remap x).key = some k → k ∉ keys ∧ ¬s.inShadow k) → t.physByte x = s.physByte x

/-- The combining buffers after a fence that covers the writes of some masters (R29, R43): their lines are written back, the others stay. -/
def State.fenceSwept (s t : State) (covers : Nat → Bool) : Prop :=
  ∀ w : WingIx, (t.wing w).comb
    = (s.wing w).comb.map fun c => if (c.dirty && c.writers.any covers) = true then ⟨c.line, false, []⟩ else c

/-- The state after an instruction that issues, changes its glove's registers by `f` and goes on to the next PC. -/
def State.ran (s : State) (gl : GloveRef) (f : Glove → Glove) : State := ((s.issue gl).modGlv gl f).nextPc gl

/-- The state after an instruction that issues, changes its glove's registers by `f` and sets PC. -/
def State.went (s : State) (gl : GloveRef) (f : Glove → Glove) (pc : Int) : State :=
  (s.issue gl).modGlv gl fun g => { f g with pc := BitVec.ofInt 32 pc }

/-- Every register of a glove that a program can read is the same in two gloves, S and M registers that `ws` and `wm` name apart. -/
def Glove.sameRegs (ws : Fin 32 → Prop) (wm : Fin 8 → Prop) (g h : Glove) : Prop :=
  (∀ n, ¬ws n → h.sreg n = g.sreg n) ∧ (∀ n : Fin 8, ¬wm n → h.m[n.val] = g.m[n.val]) ∧ h.tile = g.tile ∧ h.acc = g.acc

/-- What lies outside the engines is the same in two states. -/
def State.sameOutside (s t : State) : Prop :=
  t.mem = s.mem ∧ t.hall = s.hall ∧ t.wings = s.wings ∧ t.ten = s.ten ∧ t.hearth = s.hearth ∧ t.obs = s.obs ∧ t.cores = s.cores
    ∧ t.ports = s.ports ∧ t.flt = s.flt ∧ t.pending = s.pending ∧ t.draws = s.draws ∧ t.out = s.out

/-- The commands that are a tile instruction (R62) with some fields and pace. -/
def tileCommands (op : TOp) (gl : GloveRef) (w : JFields) (p : Pace) : List Instr :=
  match op with
  | .ld => [.ld gl w p] | .st => [.st gl w p] | .ldAcc => [.ldAcc gl w p] | .stAcc => [.stAcc gl w p] | .relay => [.relay gl w p]
  | .dld => [.dld gl w p] | .dst => [.dst gl w p] | .sld => [.sld gl w p] | .sst => [.sst gl w p]
  | .perm => [.perm gl w p] | .pmix => [.pmix gl w p] | .brev => [.brev gl w p] | .pgat => [.pgat gl w p] | .trn => [.trn gl w p]
  | .pcomp => [.pcomp gl w p] | .pcompt => [.pcompt gl w p] | .gath => [.gath gl w p] | .scat => [.scat gl w p]
  | .exch => [.exch gl w p] | .mma => [.mma gl w p] | .mmas => [.mmas gl w p]
  | .vadd => [.vadd gl w p] | .vsub => [.vsub gl w p] | .vmul => [.vmul gl w p] | .vfma => [.vfma gl w p]
  | .vmin => [.vmin gl w p] | .vmax => [.vmax gl w p] | .vand => [.vand gl w p] | .vor => [.vor gl w p] | .vxor => [.vxor gl w p]
  | .vsh => [.vsh gl w p] | .vun => [.vun gl w p] | .vcmp => [.vcmp gl w p] | .vcred => [.vcred gl w p] | .vhred => [.vhred gl w p]
  | .vcvt => [.vcvt gl w p] | .vquant => [.vquant gl w p] | .vdeq => [.vdeq gl w p] | .vpdep => [.vpdep gl w p]
  | .vpext => [.vpext gl w p] | .sqz => [.sqz gl w p] | .shist => [.shist gl w p] | .spfx => [.spfx gl w p]
  | .sdist => [.sdist gl w p] | .suniqCnt => [.suniqCnt gl w p] | .suniq => [.suniq gl w p] | .shash => [.shash gl w p]
  | .slabel => [.slabel gl w p] | .sbox => [.sboxRoots gl w p, .sboxFold gl w p, .sboxFinish gl w p] | .soct => [.soct gl w p]
  | .snear => [.snear gl w p, .snearR gl w p] | .tmark => [.tmark gl w p] | .tdig => [.tdig gl w p] | .cread => [.cread gl w p]
  | .copy | .relayout => []

/-- A tile instruction of a glove goes on: it can issue, its fields are legal, the next PC stays in its region, and its descriptors
pass their checks (R59, R62, R80, R83, R119). -/
def State.mayEnter (s : State) (gl : GloveRef) (op : TOp) (w : JFields) (ds : List Desc) : Prop :=
  s.tileReady gl op w = true ∧ tileLegal op w = true ∧ (s.glv gl).nextOk = true ∧ s.prep gl op w = .ok ds
    ∧ ¬(op = .exch ∧ (s.glv gl).kind = .tick)

/-- A mailbox that takes a request: the fabric runs and the mailbox is not BUSY (R181). -/
def State.mbFree (s : State) (m : MbIx) : Prop := s.fabricOn = true ∧ (s.mbox m).busy = false

/-- The answer of a mailbox (R181, R182): RSP with STATUS and RESULT, the GO word echoed, DONE_SEQ, BUSY clear. -/
def State.answered (t : State) (m : MbIx) (seq : Word) (status result : Nat) : Prop :=
  (t.mbox m).busy = false ∧ (t.mbox m).doneSeq = seq.truncate 32 ∧ (t.mbox m).rsp[1] = seq
    ∧ (t.mbox m).rsp[0] = BitVec.ofNat 64 status ||| (BitVec.ofNat 64 result <<< 32)

/-- The tenant that a request names may be acted for (R182): open, of this mailbox's port, not EVICTING. -/
def State.actsFor (s : State) (r : MbReq) : Prop :=
  let t : TenIx := ⟨r.tenant.toNat, r.tenant.isLt⟩
  (s.tenant t).isOpen = true ∧ (s.tenant t).port = r.mb ∧ (s.tenant t).evicting = false

/-- The tenant of a request. -/
def reqTen (r : MbReq) : TenIx := ⟨r.tenant.toNat, r.tenant.isLt⟩

/-- The low nine bits of W1: the stream or lease of a request. -/
def reqLow9 (r : MbReq) : Fin 512 := ⟨(r.w1.extractLsb' 0 9).toNat, (r.w1.extractLsb' 0 9).isLt⟩

/-- A tenant on which nothing runs: no open stream, no lease (R205). -/
def State.tenBare (s : State) (t : TenIx) : Prop :=
  (∀ n, (s.stream n).isOpen = true → (s.stream n).tenant ≠ t) ∧ (∀ n, (s.lease n).valid = true → (s.lease n).tenant ≠ t)

/-- What closing a tenant leaves (R205): its entry closed with no room, its bolts free with count 0. -/
def State.tenClosed (t : State) (n : TenIx) : Prop :=
  (t.tenant n).isOpen = false ∧ (t.tenant n).evicting = false ∧ (∀ k : Fin 16, (t.tenant n).rooms[k.val] = Room.empty)
    ∧ ∀ b, (t.bolt b).alloc = true → (t.bolt b).owner ≠ n

/-- No tick run waits for a fresh seal (R219). -/
def State.noGrace (s : State) : Prop := ∀ e d, (s.eng e).tick.phase ≠ .grace d

/-- A command of a stream that has started and is of a kind (R197, R200). -/
def State.begun (s : State) (n : StrmIx) (c : Cmd) (kind : Nat) : Prop :=
  s.fabricOn = true ∧ (s.stream n).cmd? c.index = some c ∧ c.phase = .started ∧ recKind c.record = kind

/-- A command has done its work with a STATUS and a DETAIL, and its completion is due (R199). -/
def State.completed (u : State) (n : StrmIx) (c : Cmd) (status : Byte) (detail : Word) : Prop :=
  (u.stream n).cmd? c.index = some { c with phase := .done, status := status, detail := detail, detail2 := 0 }

/-- A command runs on gloves or waits on a bolt. -/
def State.runs (u : State) (n : StrmIx) (c : Cmd) : Prop := (u.stream n).cmd? c.index = some { c with phase := .running }

/-- The glove of a command's lease, when the lease is a glove lease whose context is resident there, idle, on a running engine. -/
def State.homeOf (s : State) (n : StrmIx) (c : Cmd) (gl : GloveRef) : Prop :=
  ∃ l, s.cmdLease n c = some l ∧ (s.lease l).kind = 0 ∧ (s.lease l).engine = gl.e ∧ (s.lease l).resident = some gl.g
    ∧ s.gloveIdle gl = true ∧ s.engRuns gl.e = true

end Sys2Proof.Machine
end

