-- ==== Sys2Proof/Certificates/Slice0/Obligations.lean ====
section
/-!
DEFINITION. The statements for the provers.
-/
open Sys2Proof Sys2Proof.Machine

/-! ### The block as a whole -/

/-- A step takes the command at the front of the queue and answers what `exec` answers on the state with the queue's rest. -/
def Obligations.StepRunsTheFrontCommand : Prop :=
  ∀ (s : State) (c : Instr) (rest : List Instr), s.pending = c :: rest → step s = exec c { s with pending := rest }

/-- On an empty queue a step is one hearth cycle: TIME rises by 40 (R292), outside POR (the model's choice: log 8). With no access that
waits, nothing else of the hearth changes but ALERT_STAT and the black box, where an error of log 31 may be entered. -/
def Obligations.IdleStepIsAHearthCycle : Prop :=
  ∀ s : State, s.pending = [] → s.hall.held = [] → ∃ t, step s = .next t ∧ t.pending = [] ∧
    t.hearth = { s.hearth with
      time := if s.hearth.por then s.hearth.time else s.hearth.time + 40
      alertStat := t.hearth.alertStat, bb := t.hearth.bb, bbHead := t.hearth.bbHead, bbSeq := t.hearth.bbSeq }

/-! ### Non-tile instructions -/

/-- add, sub, mul, and, or, xor, shl, shr, sar (R82): S[d] receives A op B, B the sign-extended immediate with I; arithmetic wraps,
shifts use B[5:0], a write to S0 is discarded (R56). -/
def Obligations.ScalarArithmeticResults : Prop :=
  ∀ (s : State) (gl : GloveRef) (w : JFields), aluLegal w = true →
    let a := (s.glv gl).sreg (sNum w.a)
    let b := if flag52 w then w.imm.signExtend 64 else (s.glv gl).sreg (sNum w.b)
    let puts (op : BitVec 8) (i : Instr) (v : Word) : Prop :=
      s.mayRun gl op w → exec i s = .next (s.ran gl fun g => g.setS (sNum w.d) v)
    puts 0x08 (.add gl w) (a + b) ∧ puts 0x09 (.sub gl w) (a - b) ∧ puts 0x0A (.mul gl w) (a * b)
      ∧ puts 0x0B (.and gl w) (a &&& b) ∧ puts 0x0C (.or gl w) (a ||| b) ∧ puts 0x0D (.xor gl w) (a ^^^ b)
      ∧ puts 0x0E (.shl gl w) (a <<< (b.toNat % 64)) ∧ puts 0x0F (.shr gl w) (a >>> (b.toNat % 64))
      ∧ puts 0x10 (.sar gl w) (a.sshiftRight (b.toNat % 64))

/-- li, lih, scmp, dget, pget, mget and rdsr (R82, R84): S[d] receives the immediate, the immediate above bit 34, 1 or 0 by the
condition, or the register that is read. -/
def Obligations.ScalarMoveResults : Prop :=
  ∀ (s : State) (gl : GloveRef) (w : JFields),
    let g := s.glv gl
    let puts (op : BitVec 8) (i : Instr) (v : Word) : Prop :=
      s.mayRun gl op w → exec i s = .next (s.ran gl fun g => g.setS (sNum w.d) v)
    ((clsOf w.d).isS = true → puts 0x11 (.li gl w) (w.imm.signExtend 64))
    ∧ ((clsOf w.d).isS = true → puts 0x12 (.lih gl w) (w.imm.extractLsb' 0 30 ++ (g.sreg (sNum w.d)).extractLsb' 0 34))
    ∧ (aluLegal w = true → ∀ v, branchCond (if flag52 w then 0 else imf w 26 24) (g.sreg (sNum w.a)) (g.opB w) = some v →
        puts 0x07 (.scmp gl w) (if v then 1 else 0))
    ∧ ((clsOf w.d).isS = true → puts 0x15 (.dget gl w) ((g.d[(dNum (imf w 3 0)).val]).extractLsb' (64 * imf w 6 4) 64))
    ∧ ((clsOf w.d).isS = true → puts 0x17 (.pget gl w) g.p[(pNum (imf w 2 0)).val])
    ∧ ((clsOf w.d).isS = true → (clsOf w.a).isM = true →
        puts 0x19 (.mget gl w) ((g.m[(mNum w.a).val]).extractLsb' (64 * imf w 1 0) 64))
    ∧ ((clsOf w.d).isS = true → imf w 7 0 ≤ 4 →
        puts 0x1E (.rdsr gl w) (if imf w 7 0 = 0 then s.hearth.time else if imf w 7 0 = 1 then g.launchWord
          else if imf w 7 0 = 2 then g.tickEdge else if imf w 7 0 = 3 then g.elapsed else (s.eng gl.e).step.zeroExtend 64))

/-- dset, pset and mset (R82): word w of D[k], P[k], or quarter q of M[d] receives S[a]; the other bits of the register and every
other register stay. -/
def Obligations.RegisterSetupWrites : Prop :=
  ∀ (s : State) (gl : GloveRef) (w : JFields), (clsOf w.a).isS = true →
    let v := (s.glv gl).sreg (sNum w.a)
    (s.mayRun gl 0x14 w → ∃ x : Desc,
        exec (.dset gl w) s = .next (s.ran gl fun g => { g with d := vset g.d (dNum (imf w 3 0)) x })
        ∧ ∀ i < 512, x.getLsbD i = if i / 64 = imf w 6 4 then v.getLsbD (i % 64)
            else ((s.glv gl).d[(dNum (imf w 3 0)).val]).getLsbD i)
    ∧ (s.mayRun gl 0x16 w →
        exec (.pset gl w) s = .next (s.ran gl fun g => { g with p := vset g.p (pNum (imf w 2 0)) v }))
    ∧ ((clsOf w.d).isM = true → s.mayRun gl 0x18 w → ∃ x : Mask,
        exec (.mset gl w) s = .next (s.ran gl fun g => { g with m := vset g.m (mNum w.d) x })
        ∧ ∀ i < 256, x.getLsbD i = if i / 64 = imf w 1 0 then v.getLsbD (i % 64) else ((s.glv gl).m[(mNum w.d).val]).getLsbD i)

/-- nop, br, bc, jal, jr and loop (R82): the new PC, the link register of jal, the counter of loop. `loop s0` falls through. -/
def Obligations.ControlTransfers : Prop :=
  ∀ (s : State) (gl : GloveRef) (w : JFields),
    let g := s.glv gl
    let target : Int := (g.pc.toNat : Int) + 8 * sgn 24 (imf w 23 0)
    let next : Int := (g.pc.toNat : Int) + 8
    let fits (t : Int) : Prop := 0x40 ≤ t ∧ t < g.regionLen.toNat
    let goes (op : BitVec 8) (i : Instr) (f : Glove → Glove) (t : Int) : Prop :=
      s.mayIssue gl op w = true → fits t → exec i s = .next (s.went gl f t)
    (s.mayRun gl 0x00 w → exec (.nop gl w) s = .next (s.ran gl id))
    ∧ goes 0x02 (.br gl w) id target
    ∧ ((clsOf w.a).isS = true → (clsOf w.b).isS = true →
        ∀ v, branchCond (imf w 26 24) (g.sreg (sNum w.a)) (g.sreg (sNum w.b)) = some v →
          goes 0x03 (.bc gl w) id (if v then target else next))
    ∧ ((clsOf w.d).isS = true → goes 0x04 (.jal gl w) (fun x => x.setS (sNum w.d) ((g.pc + 8).zeroExtend 64)) target)
    ∧ ((clsOf w.a).isS = true → (g.sreg (sNum w.a)).toNat % 8 = 0 →
        goes 0x05 (.jr gl w) id ((g.sreg (sNum w.a)).toNat % 2 ^ 32 : Nat))
    ∧ ((clsOf w.a).isS = true →
        let v := g.sreg (sNum w.a) - 1
        goes 0x06 (.loop gl w) (fun x => x.setS (sNum w.a) v) (if sNum w.a ≠ 0 ∧ v ≠ 0 then target else next))

/-- What a non-tile instruction that goes on leaves unchanged: all that lies outside the engines, every other glove, and in its own
glove whatever its register effect leaves (R59, R82). -/
def Obligations.ScalarInstructionFrame : Prop :=
  ∀ (s : State) (gl : GloveRef) (f : Glove → Glove) (pc : Int),
    let at_ (g : Glove) : Glove := { g with progressAt := s.hearth.time }
    s.sameOutside (s.ran gl f) ∧ s.sameOutside (s.went gl f pc)
    ∧ (s.ran gl f).glv gl = { f (at_ (s.glv gl)) with pc := (f (at_ (s.glv gl))).pc + 8 }
    ∧ (s.went gl f pc).glv gl = { f (at_ (s.glv gl)) with pc := BitVec.ofInt 32 pc }
    ∧ ∀ x, x ≠ gl → (s.ran gl f).glv x = s.glv x ∧ (s.went gl f pc).glv x = s.glv x

/-- end, fence, trel and bwait (R58, R77, R85, R87, R88): the wait that each begins, and the release that a trel without in-flight
users makes at once. -/
def Obligations.WaitingInstructionsBegin : Prop :=
  ∀ (s : State) (gl : GloveRef) (w : JFields),
    let wait (x : Wait) : State := (s.issue gl).modGlv gl fun g => { g with wait := x, state := 2 }
    (s.mayIssue gl 0x01 w = true → exec (.endI gl w) s = .next (wait (.ending (w.imm.extractLsb' 0 16))))
    ∧ (s.mayRun gl 0x1C w → exec (.fence gl w) s = .next (wait (.fence s.now)))
    ∧ (s.mayRun gl 0x1D w → (s.glv gl).uses (trelT w) (trelA w) = true →
        exec (.trel gl w) s = .next (wait (.trel (w.imm.extractLsb' 0 16) (w.imm.extractLsb' 16 4))))
    ∧ (s.mayRun gl 0x1D w → (s.glv gl).uses (trelT w) (trelA w) = false →
        exec (.trel gl w) s = .next (s.ran gl fun g => g.release (w.imm.extractLsb' 0 16) (w.imm.extractLsb' 16 4)))
    ∧ (s.mayRun gl 0x1A w → (s.glv gl).kind ≠ .tick → (clsOf w.a).isS = true → (clsOf w.d).isS = true → imf w 15 0 ≠ 0 →
        let b := boltOf (s.glv gl) w
        let n := BitVec.ofNat 32 (imf w 15 0)
        let dl := if imf w 31 16 = 0 then none else some (s.now + 1000 * imf w 31 16)
        s.ownsBolt b (s.glv gl).tenant = true →
        exec (.bwait gl w) s = .next ((((s.issue gl).modBolt b fun x =>
          { x with fifo := x.fifo ++ [⟨.glove gl, n, s.now, dl, 0⟩] })).modGlv gl fun g =>
            { g with wait := .bolt b n dl s.now w.d (imf w 31 16), state := 2 }))

/-- A release (R58): the named tiles and accumulators become empty and read as zero, the others stay, and no latch holds a row of a
named register. -/
def Obligations.ReleasedRegistersReadZero : Prop :=
  ∀ (g : Glove) (tm : BitVec 16) (am : BitVec 4),
    (∀ (n : Fin 16) (r : Fin 64), ((g.release tm am).tile[n.val]).row r = if tm.getLsbD n.val then 0 else (g.tile[n.val]).row r)
    ∧ (∀ (n : Fin 4) (r : Fin 64), ((g.release tm am).acc[n.val]).row r = if am.getLsbD n.val then 0 else (g.acc[n.val]).row r)
    ∧ (∀ n : Fin 16, tm.getLsbD n.val = true → ∀ r, latchHas (g.release tm am).latchA (tCode n) r = false
        ∧ latchHas (g.release tm am).latchB (tCode n) r = false)
    ∧ (g.release tm am).s = g.s ∧ (g.release tm am).d = g.d ∧ (g.release tm am).m = g.m ∧ (g.release tm am).p = g.p

/-- TREL_EFFECT, FABRIC_FENCE_COMPLETE of a glove and of another master, and INSTANCE_END of a launch (R29, R58, R77, R87). -/
def Obligations.WaitsOfAGloveEnd : Prop :=
  ∀ (s : State) (gl : GloveRef),
    (∀ t a, (s.glv gl).wait = .trel t a → (s.glv gl).uses t a = false →
      exec (.trelEffect gl) s = .next ((s.modGlv gl fun g => { g.release t a with wait := .none, state := 1 }).nextPc gl))
    ∧ (∀ since, (s.glv gl).wait = .fence since → (s.glv gl).inflight = [] → (s.glv gl).state = 2 →
      ∃ u, exec (.fabricFenceComplete (.glove gl)) s = .next u
        ∧ u.glv gl = { s.glv gl with wait := .none, state := 1, pc := (s.glv gl).pc + 8 } ∧ u.mem = s.mem ∧ u.ten = s.ten
        ∧ s.fenceSwept u (· == gloveWho gl))
    ∧ (∀ m : MasterRef, (∀ x, m ≠ .glove x) → s.hasOpen m = false →
      ∃ u, exec (.fabricFenceComplete m) s = .next u ∧ u.mem = s.mem ∧ u.ten = s.ten ∧ s.fenceSwept u (fenceCovers m))
    ∧ (∀ st, (s.glv gl).wait = .ending st → s.alive = true → (s.glv gl).inflight = [] → (s.glv gl).kind = .launch →
      (s.glv gl).hang.frozen = false → (s.glv gl).hang.freezing = false → (s.glv gl).swapping = false →
      ∃ u, exec (.instanceEnd gl) s = .next u ∧ (u.glv gl).kind = .none ∧ (u.glv gl).state = 0 ∧ (u.glv gl).wait = .none
        ∧ (∀ n : Fin 16, (u.glv gl).tile[n.val] = Tile.empty) ∧ (∀ n : Fin 4, (u.glv gl).acc[n.val] = Tile.empty) ∧ u.mem = s.mem
        ∧ ∀ l, s.launchOf (s.glv gl).strm (s.glv gl).cmdIx = some l →
            (∀ x ∈ l.insts, x.1 = gl ∨ x.2.2 = true) → u.launchOf (s.glv gl).strm (s.glv gl).cmdIx = none)

/-! ### Bolts -/

/-- bsig, BOLT_SIGNAL_APPLY, BOLT_GRANT and BOLT_WAIT_TIMEOUT at the bolt's owner (R85, R86, R203, R204): the count rises by n and stops
at 0xFFFF_FFFF; the head waiter's n is subtracted in one step and S[d] receives 1; a timeout gives 0 and leaves the count. No other
bolt changes. -/
def Obligations.BoltOperations : Prop :=
  ∀ (s : State) (gl : GloveRef) (b : BoltIx), s.ownsBolt b (s.glv gl).tenant = true →
    let add (c : BitVec 32) (n : Nat) : BitVec 32 := BitVec.ofNat 32 (min (2 ^ 32 - 1) (c.toNat + n))
    let others (u : State) : Prop := u.mem = s.mem ∧ ∀ x, x ≠ b → u.bolt x = s.bolt x
    (∀ w : JFields, boltOf (s.glv gl) w = b → s.mayRun gl 0x1B w → (clsOf w.a).isS = true → imf w 15 0 ≠ 0 →
      ∃ u, exec (.bsig gl w) s = .next u ∧ (u.bolt b).count = add (s.bolt b).count (imf w 15 0)
        ∧ (u.bolt b).fifo = (s.bolt b).fifo ∧ (u.glv gl).pc = (s.glv gl).pc + 8 ∧ others u)
    ∧ (∀ n : BitVec 32, s.fabricOn = true → ∃ u, exec (.boltSignalApply b [⟨.glove gl, n⟩]) s = .next u
        ∧ (u.bolt b).count = add (s.bolt b).count n.toNat ∧ (u.bolt b).fifo = (s.bolt b).fifo ∧ others u)
    ∧ (∀ (n : BitVec 32) (since : Nat) (dl : Option Nat) (d : BitVec 6) (us : Nat) (x : BWaiter) (rest : List BWaiter),
      s.fabricOn = true → (s.glv gl).wait = .bolt b n dl since d us → (s.eng gl.e).saved[gl.g.val] = false →
      (s.bolt b).fifo = x :: rest → x.who = .glove gl →
      let g' (ok : Bool) : Glove := { (s.glv gl).setS (sNum d) (if ok then 1 else 0) with
        pc := (s.glv gl).pc + 8, wait := .none, state := 1 }
      (x.n.toNat ≤ (s.bolt b).count.toNat → ∃ u, exec (.boltGrant b) s = .next u
        ∧ (u.bolt b).count = (s.bolt b).count - x.n ∧ (u.bolt b).fifo = rest ∧ u.glv gl = g' true ∧ others u)
      ∧ (∀ t, x.deadline = some t → (s.bolt b).count.toNat < x.n.toNat → ∃ u, exec (.boltWaitTimeout b (.glove gl)) s = .next u
        ∧ (u.bolt b).count = (s.bolt b).count ∧ (∀ y ∈ (u.bolt b).fifo, y.who ≠ .glove gl)
        ∧ u.glv gl = { g' false with elapsed := (u.glv gl).elapsed } ∧ others u))

/-! ### Tile instructions -/

/-- Every tile instruction (R62, opcodes 0x20 to 0x9F) that goes on enters flight in program order with its row steps before it, and
PC moves to the next instruction; no register, no other glove and nothing outside the engines changes until its row steps run. A
`pcomp` whose pattern is found, `tmark` and `cread` complete in their issue slot and are stated apart. -/
def Obligations.TileInstructionsEnterFlight : Prop :=
  ∀ (s : State) (gl : GloveRef) (op : TOp) (w : JFields) (held : Bool) (ds : List Desc),
    s.mayEnter gl op w ds → s.pcompHit gl op w = false → op ≠ .tmark → op ≠ .cread → s.noGrace →
    ∀ i ∈ tileCommands op gl w ⟨0, held⟩, ∃ t, exec i s = .next t ∧ s.sameOutside t
      ∧ (t.glv gl).inflight = (s.glv gl).inflight ++ [newRec (s.glv gl) op w held ds] ∧ (t.glv gl).pc = (s.glv gl).pc + 8
      ∧ (t.glv gl).sameRegs (fun _ => False) (fun _ => False) (s.glv gl) ∧ (t.glv gl).d = (s.glv gl).d ∧ (t.glv gl).p = (s.glv gl).p
      ∧ ∀ x, x ≠ gl → t.glv x = s.glv x

/-- `tmark` and `cread` complete in their issue slot (R275): nothing stays in flight; `tmark` leaves its record in the attic of its engine's
channel and writes no register, `cread` writes the counter to S[d]. -/
def Obligations.ObservationInstructionsComplete : Prop :=
  ∀ (s : State) (gl : GloveRef) (w : JFields) (p : Pace), (s.glv gl).inflight = [] → s.noGrace →
    (s.mayEnter gl .tmark w [] → ∃ t, exec (.tmark gl w p) s = .next t ∧ (t.glv gl).inflight = [] ∧ (t.glv gl).pc = (s.glv gl).pc + 8
      ∧ (∀ c, t.attic c = ((s.issue gl).markEffect gl w).attic c) ∧ t.obs = ((s.issue gl).markEffect gl w).obs
      ∧ (t.glv gl).sameRegs (fun _ => False) (fun _ => False) (s.glv gl) ∧ t.mem = s.mem ∧ t.ten = s.ten)
    ∧ (s.mayEnter gl .cread w [] → ∃ t, exec (.cread gl w p) s = .next t ∧ (t.glv gl).inflight = [] ∧ (t.glv gl).pc = (s.glv gl).pc + 8
      ∧ (t.glv gl).sreg (sNum w.d) = (if sNum w.d = 0 then 0 else (s.issue gl).creadVal w)
      ∧ (t.glv gl).sameRegs (· = sNum w.d) (fun _ => False) (s.glv gl) ∧ t.mem = s.mem ∧ t.ten = s.ten)

/-- One element of the elementwise instructions on an integer type (R146): sums, differences and products wrap, or clamp with SAT;
minimum and maximum follow the type's sign; vsh shifts left by a positive and right by a negative amount. -/
def Obligations.VectorIntegerElements : Prop :=
  ∀ (signed : Bool) (bits x y z : Nat), bits = 8 ∨ bits = 16 ∨ bits = 32 → x < 2 ^ bits → y < 2 ^ bits → z < 2 ^ bits →
    let elt (op : TOp) (sat : Bool) : Nat := vecElt op (.int signed bits) sat x y z
    let val (v : Nat) : Int := if signed ∧ 2 ^ (bits - 1) ≤ v then (v : Int) - 2 ^ bits else v
    let lo : Int := if signed then -(2 ^ (bits - 1)) else 0
    let hi : Int := if signed then 2 ^ (bits - 1) - 1 else 2 ^ bits - 1
    elt .vadd false = (x + y) % 2 ^ bits ∧ elt .vsub false = (x + 2 ^ bits - y) % 2 ^ bits ∧ elt .vmul false = x * y % 2 ^ bits
      ∧ elt .vfma false = (x * y + z) % 2 ^ bits
      ∧ val (elt .vadd true) = max lo (min hi (val x + val y)) ∧ val (elt .vsub true) = max lo (min hi (val x - val y))
      ∧ val (elt .vmul true) = max lo (min hi (val x * val y))
      ∧ val (elt .vmin false) = min (val x) (val y) ∧ val (elt .vmax false) = max (val x) (val y)
      ∧ elt .vand false = x &&& y ∧ elt .vor false = x ||| y ∧ elt .vxor false = x ^^^ y
      ∧ (y < bits → elt .vsh false = x * 2 ^ y % 2 ^ bits)

/-- An elementwise vector instruction of one row, run to its end (R146): every element of row ROW0 of the destination is the
operation on the elements of ta and tb, and the instruction leaves flight.
ROW_STEP_END of the vector unit with one `vadd` in flight on the engine (R61): its next row is done, and after the last row the
instruction leaves flight. -/
def Obligations.VectorRowsAreComputed : Prop :=
  (∀ (s : State) (gl : GloveRef) (op : TOp) (w : JFields),
    op = .vadd ∨ op = .vsub ∨ op = .vmul ∨ op = .vmin ∨ op = .vmax ∨ op = .vand ∨ op = .vor ∨ op = .vxor ∨ op = .vsh →
    s.mayEnter gl op w [] → (s.glv gl).inflight = [] → s.alone gl → s.noGrace → nrows w = 1 → flag52 w = false → flag53 w = false →
    reuseA w = false → reuseB w = false → (clsOf w.a).isT = true → (clsOf w.b).isT = true → (clsOf w.d).isT = true →
    ((s.glv gl).tileOf (clsOf w.a)).bad = 0 → ((s.glv gl).tileOf (clsOf w.b)).bad = 0 →
    let row := row64 (row0 w)
    let x := ((s.glv gl).tileOf (clsOf w.a)).row row
    let y := ((s.glv gl).tileOf (clsOf w.b)).row row
    let old := ((s.glv gl).tileOf (clsOf w.d)).row row
    let b := (tyOf w).bits
    ∀ i ∈ tileCommands op gl w ⟨1, false⟩, ∃ t, exec i s = .next t ∧ (t.glv gl).inflight = [] ∧ (t.glv gl).pc = (s.glv gl).pc + 8
      ∧ ((t.glv gl).tileOf (clsOf w.d)).row row
        = rowOf b (fun j => vecElt op (tyOf w) (imb w 8) (elt x b j) (elt y b j) (elt old b j))
      ∧ (∀ r, r ≠ row → ((t.glv gl).tileOf (clsOf w.d)).row r = ((s.glv gl).tileOf (clsOf w.d)).row r)
      ∧ t.mem = s.mem ∧ t.ten = s.ten)
  ∧ (∀ (s : State) (e : EngIx) (g : GlvIx) (r : Rec),
    let gl : GloveRef := ⟨e, g⟩
    s.stepsGoOn gl = true → s.alone gl → (s.glv gl).inflight = [r] → (s.glv gl).kind = .launch → (s.glv gl).dying = none →
    s.noGrace → r.op = .vadd → r.row < r.rows → r.resp = [] → flag52 r.w = false → flag53 r.w = false → reuseA r.w = false →
    reuseB r.w = false → (clsOf r.w.a).isT = true → (clsOf r.w.b).isT = true → (clsOf r.w.d).isT = true →
    ((s.glv gl).tileOf (clsOf r.w.a)).bad = 0 → ((s.glv gl).tileOf (clsOf r.w.b)).bad = 0 →
    let row := row64 (row0 r.w + r.row)
    let b := (tyOf r.w).bits
    ∃ t, exec (.rowStepEnd e .vector) s = .next t
      ∧ ((t.glv gl).tileOf (clsOf r.w.d)).row row = rowOf b (fun j => vecElt .vadd (tyOf r.w) (imb r.w 8)
          (elt (((s.glv gl).tileOf (clsOf r.w.a)).row row) b j) (elt (((s.glv gl).tileOf (clsOf r.w.b)).row row) b j)
          (elt (((s.glv gl).tileOf (clsOf r.w.d)).row row) b j))
      ∧ (t.glv gl).inflight = (if r.row + 1 = r.rows then [] else [{ r with row := r.row + 1 }]) ∧ t.mem = s.mem)

/-- A pass through the reorder network (R103, R96): byte lane i of the result is the lane that the route names, zero for source 256. -/
def Obligations.NetworkPassMovesLanes : Prop :=
  ∀ (x : Row) (route : List Nat) (i k : Nat), route.length = 256 → route[i]? = some k →
    elt (netPass x route) 8 i = if k < 256 then elt x 8 k else 0

/-- `sst` run to its end (R137): the low 1, 2, 4 or 8 bytes of S[b] stand at S[a] + off, and every byte of memory outside them, and outside
the shadows of windows (R46), reads as before; no register changes.
`sld` run to its end (R137): S[d] receives the bytes at S[a] + off, sign-extended or with U zero-extended; memory and every other
register stay. -/
def Obligations.ScalarStoresAndLoads : Prop :=
  (∀ (s : State) (gl : GloveRef) (w : JFields) (a : Nat),
    s.mayEnter gl .sst w [] → (s.glv gl).inflight = [] → s.alone gl → s.noGrace → scalarAddr (s.glv gl) w = .ok a →
    let n := 2 ^ imf w 1 0
    s.glovePath gl a n .w = .ok .mem → s.accessFree gl a n true → Memory.wf s.mem = true →
    ∃ t, exec (.sst gl w ⟨1, false⟩) s = .next t ∧ (t.glv gl).inflight = [] ∧ (t.glv gl).pc = (s.glv gl).pc + 8
      ∧ ((∀ k ∈ s.keysOf a n, ¬s.inShadow k) → ∀ i < n, t.physByte (a + i) = ((s.glv gl).sreg (sNum w.b)).extractLsb' (8 * i) 8)
      ∧ s.sameBut t (s.keysOf a n)
      ∧ (t.glv gl).sameRegs (fun _ => False) (fun _ => False) (s.glv gl))
  ∧ (∀ (s : State) (gl : GloveRef) (w : JFields) (a : Nat),
    s.mayEnter gl .sld w [] → (s.glv gl).inflight = [] → s.alone gl → s.noGrace → scalarAddr (s.glv gl) w = .ok a →
    let n := 2 ^ imf w 1 0
    s.glovePath gl a n .r = .ok .mem → s.accessFree gl a n false → s.poisoned a n = false →
    let v := ofBytes (s.physBytes a n)
    ∃ t, exec (.sld gl w ⟨1, false⟩) s = .next t ∧ (t.glv gl).inflight = [] ∧ (t.glv gl).pc = (s.glv gl).pc + 8
      ∧ (t.glv gl).sreg (sNum w.d) = (if sNum w.d = 0 then 0 else
          if flag52 w ∨ v < 2 ^ (8 * n - 1) then BitVec.ofNat 64 v else BitVec.ofInt 64 ((v : Int) - 2 ^ (8 * n)))
      ∧ (t.glv gl).sameRegs (· = sNum w.d) (fun _ => False) (s.glv gl) ∧ t.mem = s.mem)

/-- An unassigned opcode on a launch's only running instance raises ILLEGAL_OP (R80, R90, R91): GFAULT holds the code, the rank and the
PC, the glove is left empty, the launch is over, and memory stays. -/
def Obligations.ReservedOpcodeRaisesIllegalOp : Prop :=
  ∀ (s : State) (gl : GloveRef) (op : BitVec 8) (w : JFields) (l : Launch),
    s.mayIssue gl op w = true → (s.glv gl).kind = .launch → (s.glv gl).inflight = [] →
    s.launchOf (s.glv gl).strm (s.glv gl).cmdIx = some l → l.fault = none → (∀ x ∈ l.insts, x.1 = gl ∨ x.2.2 = true) →
    ∃ t, exec (.reservedOpcode gl op w) s = .next t
      ∧ (t.glv gl).gfault = (s.glv gl).pc ++ ((0 : BitVec 8) ++ ((s.glv gl).rank ++ (0x0001 : BitVec 16)))
      ∧ (t.glv gl).kind = .none ∧ (t.glv gl).state = 0 ∧ t.launchOf (s.glv gl).strm (s.glv gl).cmdIx = none ∧ t.mem = s.mem

/-- MEMORY_RESPONSE for a glove whose only instruction in flight is a finished `sld` that waits for its data (R26, R131, R137), and for
another master of the fabric, whose oldest transaction it answers; INSTRUCTION_LINE_FILL (R69): S[d] receives the data; the tracker entry
goes, the credits of the request return and the response takes its own (R30); the line enters the instruction buffer. -/
def Obligations.ResponsesAndFillsArrive : Prop :=
  ∀ (s : State) (gl : GloveRef),
    (∀ (r : Rec) (x : Resp) (d : Fin 32), s.alive = true → (s.glv gl).kind = .launch → (s.glv gl).dying = none →
      (s.glv gl).inflight = [r] → r.op = .sld → r.rows ≤ r.row → r.slots = [] → r.resp = [x] → x.dest = .sreg d → x.err = 0 →
      x.poisoned = false → x.reqs.drop x.ids = [] → s.noGrace →
      (∀ q l, (s.glv gl).lastReq = some q → (s.reqLink gl q.addr).map linkBack = some l →
        (s.link l).rspUsed + flitsFor (!q.write) q.bytes ≤ 124) →
      ∃ t, exec (.memoryResponse (.glove gl)) s = .next t ∧ (t.glv gl).inflight = []
        ∧ (t.glv gl).sreg d = (if d = 0 then 0 else x.data.truncate 64)
        ∧ (t.glv gl).sameRegs (· = d) (fun _ => False) (s.glv gl) ∧ t.mem = s.mem)
    ∧ (∀ (m : MasterRef) (q : Txn), (∀ x, m ≠ .glove x) → s.nextTxn m = some q →
      (∀ l, portLink q.port = some l → (s.link (linkBack l)).rspUsed + flitsFor (!q.req.write) q.req.bytes ≤ 124) →
      ∃ t, exec (.memoryResponse m) s = .next t ∧ t.hall.txns = eraseFirst (· == q) s.hall.txns ∧ t.mem = s.mem ∧ t.ten = s.ten
        ∧ ∀ l, (t.link l).reqUsed = (s.link l).reqUsed - (if portLink q.port = some l then reqFlits q.req else 0)
          ∧ (t.link l).rspUsed = (s.link l).rspUsed
            + if (portLink q.port).map linkBack = some l then flitsFor (!q.req.write) q.req.bytes else 0)
    ∧ (∀ (line : BitVec 32) (ahead : Bool), (s.glv gl).kind = .launch → (s.glv gl).lineOk line.toNat ahead = true →
      (s.glv gl).hang.frozen = false → (s.glv gl).swapping = false → (s.glv gl).dying = none → (s.glv gl).ibuf = [] →
      let a := (s.glv gl).prog + line.toNat
      s.glovePath gl a 64 .x = .ok .mem → s.accessFree gl a 64 false → s.poisoned a 64 = false →
      ∃ t, exec (.instructionLineFill gl line ahead) s = .next t ∧ t.mem = s.mem
        ∧ (t.glv gl).ibuf = [⟨line, BitVec.ofNat 512 (ofBytes (s.physBytes a 64)), 0⟩])

/-! ### Mailbox requests -/

/-- OPEN within its quota, without approval, with a free entry (R182, R184, R185): the lowest free entry becomes a tenant of the port
with its SHARE, no room and the next OPEN_SEQ; SHARE changes the share; a code that is not listed answers BAD_REQUEST. -/
def Obligations.MailboxOpenShareAndBadRequest : Prop :=
  ∀ (s : State) (r : MbReq), s.mbFree r.mb →
    let share := (r.w1.extractLsb' 0 8)
    (∀ t : TenIx, share ≠ 0 → (∀ x ∈ s.portTenants r.mb, (s.tenant x).evicting = false) → (s.portTenants r.mb).length < s.qTenants r.mb →
      share.toNat ≤ s.qShare r.mb → s.qApprove r.mb = false → (s.tenant t).isOpen = false → (∀ x < t, (s.tenant x).isOpen = true) →
      ∃ u, exec (.openT r) s = .next u ∧ u.answered r.mb r.seq 0 t.val
        ∧ u.tenant t = { Tenant.closed ((s.tenant t).openSeq + 1) with isOpen := true, port := r.mb, share := share }
        ∧ (∀ x, x ≠ t → u.tenant x = s.tenant x) ∧ u.ten.tableGen = s.ten.tableGen + 2 ∧ u.mem = s.mem)
    ∧ (s.actsFor r → share ≠ 0 → share.toNat ≤ s.qShare r.mb →
      ∃ u, exec (.share r) s = .next u ∧ u.answered r.mb r.seq 0 0 ∧ u.tenant (reqTen r) = { s.tenant (reqTen r) with share := share }
        ∧ (∀ x, x ≠ (reqTen r) → u.tenant x = s.tenant x) ∧ u.mem = s.mem)
    ∧ (∀ code : Byte, Instr.wellFormed (.badRequest r code) = true →
      ∃ u, exec (.badRequest r code) s = .next u ∧ u.answered r.mb r.seq 4 0 ∧ u.ten.tenants = s.ten.tenants
        ∧ u.ten.streams = s.ten.streams ∧ u.ten.leases = s.ten.leases ∧ u.ten.bolts = s.ten.bolts ∧ u.mem = s.mem)

/-- ROOM_SET (R186, R187): the room takes the request's range, permissions and guest, or, with no permission, is removed; STREAM_SET
(R193, R195): QOS, ALIGN, ABORT and VECTOR of a stream of the tenant.
STREAM_OPEN, BOLT_ALLOC and BOLT_FREE (R182, R193, R195, R202): the lowest free stream takes the request's fields and holds no command;
the lowest run of free bolts belongs to the tenant with the initial count; freed bolts hold 0. -/
def Obligations.MailboxRoomsStreamsAndBolts : Prop :=
  (∀ (s : State) (r : MbReq), s.mbFree r.mb → s.actsFor r →
    let k : Fin 16 := ⟨(r.w1.extractLsb' 0 4).toNat, (r.w1.extractLsb' 0 4).isLt⟩
    let q := reqWords 0x03 r
    (r.w1.extractLsb' 4 5 ≠ 0 → r.w2.extractLsb' 0 12 = 0 → r.w3.extractLsb' 0 12 = 0xFFF → r.w2.extractLsb' 48 16 = 0 →
      r.w3.extractLsb' 48 16 = 0 → r.w2.toNat ≤ r.w3.toNat → s.roomAllowed (reqTen r) k.val (reqRoom q) = true →
      ∃ u, exec (.roomSet r) s = .next u ∧ u.answered r.mb r.seq 0 0
        ∧ (u.tenant (reqTen r)).rooms = vset (s.tenant (reqTen r)).rooms k
            ⟨true, r.w1.extractLsb' 4 5, r.w2.extractLsb' 12 36, r.w3.extractLsb' 12 36, r.w1.extractLsb' 9 6, r.w1.getLsbD 15⟩
        ∧ (∀ x, x ≠ (reqTen r) → u.tenant x = s.tenant x) ∧ u.mem = s.mem)
    ∧ (r.w1.extractLsb' 4 5 = 0 →
      ∃ u, exec (.roomSet r) s = .next u ∧ u.answered r.mb r.seq 0 0
        ∧ (u.tenant (reqTen r)).rooms = vset (s.tenant (reqTen r)).rooms k Room.empty ∧ (∀ x, x ≠ (reqTen r) → u.tenant x = s.tenant x)
            ∧ u.mem = s.mem)
    ∧ (let n := reqLow9 r
      (s.stream n).isOpen = true → (s.stream n).tenant = (reqTen r) →
      qosOk (s.stream n).cls.toNat (r.w1.extractLsb' 9 4).toNat = true → 4 ≤ (r.w1.extractLsb' 15 7).toNat →
      ∃ u, exec (.streamSet r) s = .next u ∧ u.answered r.mb r.seq 0 0
        ∧ u.stream n = { s.stream n with qos := r.w1.extractLsb' 9 4, align := r.w1.getLsbD 13, abort := r.w1.getLsbD 14,
                                         vector := r.w1.extractLsb' 15 7 }
        ∧ (∀ x, x ≠ n → u.stream x = s.stream x) ∧ u.mem = s.mem))
  ∧ (∀ (s : State) (r : MbReq), s.mbFree r.mb → s.actsFor r →
    (∀ n : StrmIx,
      let x : Stream := { Stream.closed with
        isOpen := true, tenant := reqTen r, cls := r.w1.extractLsb' 0 2, qos := r.w1.extractLsb' 2 4, align := r.w1.getLsbD 6,
        abort := r.w1.getLsbD 7, loc := r.w1.getLsbD 8, logSize := r.w1.extractLsb' 9 4, vector := r.w1.extractLsb' 13 7,
        ringBase := r.w2, complBase := r.w3 }
      (r.w1.extractLsb' 9 4).toNat ≤ 12 → 4 ≤ (r.w1.extractLsb' 13 7).toNat →
      qosOk (r.w1.extractLsb' 0 2).toNat (r.w1.extractLsb' 2 4).toNat = true → s.ringsOk x = true →
      (r.w1.extractLsb' 0 2 = 0 → s.tenHoldsTick (reqTen r) = true) →
      ((s.portTenants r.mb).map fun u => (s.tenStreams u).length).sum < s.qStreams r.mb →
      (s.stream n).isOpen = false → (∀ y < n, (s.stream y).isOpen = true) →
      ∃ u, exec (.streamOpen r) s = .next u ∧ u.answered r.mb r.seq 0 n.val ∧ u.stream n = x
        ∧ (∀ y, y ≠ n → u.stream y = s.stream y) ∧ u.mem = s.mem)
    ∧ (∀ a : Nat, let n := (r.w1.extractLsb' 0 7).toNat + 1
      s.portBolts r.mb + n ≤ s.qBolts r.mb → s.freeRun n = some a →
      ∃ u, exec (.boltAlloc r) s = .next u ∧ u.answered r.mb r.seq 0 a ∧ u.mem = s.mem
        ∧ ∀ b : BoltIx, u.bolt b = if a ≤ b.val ∧ b.val < a + n
            then { Bolt.free with count := r.w1.extractLsb' 32 32, owner := (reqTen r), alloc := true } else s.bolt b)
    ∧ (let a := (r.w1.extractLsb' 0 12).toNat
      let n := (r.w1.extractLsb' 12 7).toNat + 1
      a + n ≤ 4096 → (∀ b : BoltIx, a ≤ b.val → b.val < a + n → s.ownsBolt b (reqTen r) = true ∧ (s.bolt b).fifo = []) →
      ∃ u, exec (.boltFree r) s = .next u ∧ u.answered r.mb r.seq 0 0 ∧ u.mem = s.mem
        ∧ ∀ b : BoltIx, u.bolt b = if a ≤ b.val ∧ b.val < a + n then Bolt.free else s.bolt b))

/-- LEASE of a glove on a named engine and LEASE_FREE of a lease on which nothing runs (R190, R191): the lowest free entry holds the
lease with a save slot of the wing; the freed entry is free again and the request is answered. -/
def Obligations.MailboxLeaseAndLeaseFree : Prop :=
  ∀ (s : State) (r : MbReq), s.mbFree r.mb → s.actsFor r →
    (∀ (e : EngIx) (n : LeaseIx) (k : BitVec 6), r.w1.extractLsb' 0 2 = 0 → (r.w1.extractLsb' 2 8).toNat = e.val →
      r.w2.extractLsb' 0 16 = 0 → s.qEngine r.mb e.val = true → s.qApprove r.mb = false → s.leasesOn 1 e.val = [] →
      (s.leasesOn 0 e.val).length < 16 → s.freeSlot (wingOf e) = some k → (s.lease n).valid = false →
      (∀ x < n, (s.lease x).valid = true) →
      ∃ u, exec (.lease r) s = .next u ∧ u.answered r.mb r.seq 0 n.val ∧ (u.lease n).valid = true ∧ (u.lease n).kind = 0
        ∧ (u.lease n).tenant = (reqTen r) ∧ (u.lease n).engine = e ∧ (u.lease n).slot = k ∧ (u.lease n).emask = 1 <<< e.val
        ∧ (u.lease n).resident = none ∧ (u.lease n).saved = false ∧ u.mem = s.mem)
    ∧ (let n : LeaseIx := reqLow9 r
      (s.lease n).valid = true → (s.lease n).tenant = (reqTen r) → (s.lease n).kind = 0 → s.leaseWork n = false →
      (∀ x, (s.lease x).freeing = none) → (∀ x, (s.stream x).isOpen = true → (s.stream x).abort = false) →
      ∃ u, exec (.leaseFree r) s = .next u ∧ u.answered r.mb r.seq 0 0 ∧ u.lease n = Lease.free ∧ u.mem = s.mem)

/-- CLOSE, EVICT by the manager, MGR_DECIDE that denies, and EVICTION_COMPLETE and DRAIN_LIMIT_EXPIRY of a tenant that is EVICTING, on a
tenant without streams and leases (R183, R184, R205, R206): the entry closes, its bolts and rooms go, the request is answered.
STREAM_CLOSE of an idle stream (R183, R205), and EVICTION_COMPLETE of a stream whose closing waits: the stream is closed and
the request answered. -/
def Obligations.TenantsAndStreamsClose : Prop :=
  (∀ (s : State) (r : MbReq), let t := (reqTen r)
    s.tenBare t →
    (s.mbFree r.mb → s.actsFor r → ∃ u, exec (.closeT r) s = .next u ∧ u.answered r.mb r.seq 0 0 ∧ u.tenClosed t ∧ u.mem = s.mem)
    ∧ (s.mbFree r.mb → (s.tenant t).isOpen = true → (s.tenant t).evicting = false → r.mb = mgrMb s.hearth.mgrSel →
      ∃ u, exec (.evict r) s = .next u ∧ u.answered r.mb r.seq 0 0 ∧ u.tenClosed t ∧ u.mem = s.mem)
    ∧ (s.fabricOn = true → (s.tenant t).evicting = true →
      (∃ u, exec (.evictionComplete (.tenant t)) s = .next u ∧ u.tenClosed t ∧ u.mem = s.mem)
      ∧ (∃ u, exec (.drainLimitExpiry (.tenant t)) s = .next u ∧ u.tenClosed t ∧ u.mem = s.mem))
    ∧ (∀ (w : Writer) (m : MbIx), s.fabricOn = true → s.isManager w = true → s.ten.pend.getLsbD m.val = true →
      ∃ u, exec (.mgrDecide w m false) s = .next u ∧ u.answered m (s.mbox m).go 6 0 ∧ u.ten.pend.getLsbD m.val = false
        ∧ u.ten.tenants = s.ten.tenants ∧ u.mem = s.mem))
  ∧ (∀ (s : State) (r : MbReq), let n : StrmIx := reqLow9 r
    (s.stream n).isOpen = true → (s.stream n).tenant = (reqTen r) → (s.stream n).cmds = [] → (s.stream n).fetchIx = (s.stream n).tail →
    (s.mbFree r.mb → s.actsFor r → (s.stream n).reply = none →
      ∃ u, exec (.streamClose r) s = .next u ∧ u.answered r.mb r.seq 0 0 ∧ (u.stream n).isOpen = false
        ∧ (∀ x, x ≠ n → u.stream x = s.stream x) ∧ u.mem = s.mem)
    ∧ (∀ m, s.fabricOn = true → (s.stream n).reply = some m →
      ∃ u, exec (.evictionComplete (.stream n)) s = .next u ∧ (u.stream n).isOpen = false ∧ (u.mbox m).busy = false
        ∧ (∀ x, x ≠ n → u.stream x = s.stream x) ∧ u.mem = s.mem))

/-! ### Streams -/

/-- The doorbell page of a stream whose owner or the manager writes it, on a stream that is neither closing nor evicted (R195, R196):
a TAIL within SIZE of HEAD is taken; one beyond puts the stream in ERROR with DOORBELL_BAD; RESUME clears ERROR, PAUSE pauses a
stream that is not in ERROR, ABORT of an idle stream leaves it idle. -/
def Obligations.DoorbellPageWrites : Prop :=
  ∀ (s : State) (w : Writer) (n : StrmIx), s.doorOpen w n = true →
    let st := s.stream n
    (∀ tail : BitVec 32, (tail - st.head).toNat ≤ st.size → (st.tail - st.head).toNat ≤ (tail - st.head).toNat →
      ∃ u, exec (.streamDoorbell w n tail) s = .next u ∧ (u.stream n).tail = tail ∧ (u.stream n).state = st.state
        ∧ (u.stream n).cmds = st.cmds ∧ (∀ x, x ≠ n → u.stream x = s.stream x) ∧ u.mem = s.mem)
    ∧ (∀ tail : BitVec 32, st.size < (tail - st.head).toNat →
      ∃ u, exec (.streamDoorbell w n tail) s = .next u ∧ (u.stream n).tail = st.tail ∧ (u.stream n).state = 4
        ∧ (u.stream n).doorbellBad = true ∧ (∀ x, x ≠ n → u.stream x = s.stream x) ∧ u.mem = s.mem)
    ∧ (∃ u, exec (.streamResume w n) s = .next u ∧ (u.stream n).state = 0 ∧ (u.stream n).doorbellBad = false
        ∧ (u.stream n).head = st.head ∧ (u.stream n).tail = st.tail ∧ u.mem = s.mem)
    ∧ (∃ u, exec (.streamPause w n) s = .next u ∧ (u.stream n).state = (if st.state = 4 then 4 else 3) ∧ (u.stream n).tail = st.tail
        ∧ u.mem = s.mem)
    ∧ (st.cmds = [] → st.fetchIx = st.tail →
      ∃ u, exec (.streamAbort w n) s = .next u ∧ (u.stream n).state = 0 ∧ (u.stream n).cmds = [] ∧ (u.stream n).tail = st.tail
        ∧ u.mem = s.mem)

/-- COMMAND_FETCH from a host ring, and from a ring in Hall SRAM that holds the record (R195, R207): the record becomes the stream's
newest command and the fetch index moves on by one. -/
def Obligations.CommandFetchTakesTheRecord : Prop :=
  ∀ (s : State) (n : StrmIx) (rec : BitVec 512), s.mayFetch n = true →
    let st := s.stream n
    let a := st.ringBase.toNat + 64 * (st.fetchIx.toNat % 2 ^ (st.logSize.toNat + 4))
    let takes (x : BitVec 512) : Prop := ∃ u, exec (.commandFetch n rec false) s = .next u
      ∧ (u.stream n).fetchIx = st.fetchIx + 1
      ∧ (u.stream n).cmds.map (fun c => (c.index, c.record, c.phase)) = st.cmds.map (fun c => (c.index, c.record, c.phase)) ++ [(st.fetchIx, x, .fetched)]
      ∧ (∀ y, y ≠ n → u.stream y = s.stream y) ∧ u.mem = s.mem
    (st.loc = false → s.ringReach n = true → takes rec)
    ∧ (st.loc = true → s.ready none a = .ok → s.poisoned a 64 = false → takes (BitVec.ofNat 512 (ofBytes (s.physBytes a 64))))

/-- The scheduler takes its only ready command when it can be bound and no saved launch waits (R200): the command has started, its bind is
timed, it keeps the stream's ALIGN (R122), and the stream and tenant pointers move past it. -/
def Obligations.TheReadyCommandIsBound : Prop :=
  ∀ (s : State) (n : StrmIx) (c : Cmd), s.fabricOn = true → (s.stream n).ready = some c →
    (∀ m, m ≠ n → (s.stream m).ready = none) → s.bindable n c = true → (∀ e, s.nextSaved e = none) →
    let t := (s.stream n).tenant
    ∃ u d, exec .commandBind s = .next u ∧ (u.stream n).cmd? c.index = some d ∧ d.phase = .started ∧ d.boundAt = s.now
      ∧ d.align = (s.stream n).align
      ∧ u.ten.tptr.val = (t.val + 1) % 65 ∧ u.ten.strmPtr[t.val] = n + 1 ∧ (∀ x, x ≠ n → u.stream x = s.stream x) ∧ u.mem = s.mem

/-- LAUNCH, COPY and RELAYOUT on an idle glove that holds the context of the command's lease (R74-R76, R136, R197, R198): the glove is
loaded and the command runs. A launch starts at ENTRY with ARG0-ARG3 in S1-S4, the launch word in S5 and 0 in the other S
registers; a copy or relayout begins with its first segment. -/
def Obligations.GloveCommandsStart : Prop :=
  ∀ (s : State) (n : StrmIx) (c : Cmd) (gl : GloveRef) (held : Bool), s.homeOf n c gl → s.noGrace →
    (∀ (h : ProgHead) (t : State), s.begun n c 1 → s.progPlace (s.stream n).tenant (recFld c.record 8 8) = true →
      s.readHead (s.stream n) (recFld c.record 8 8) = .ok (h, t) → h.ok = true → h.engines = 1 → h.gloves = 1 →
      (∀ l, s.cmdLease n c = some l → (s.lease l).emask = 1 <<< gl.e.val) →
      ∃ u, exec (.launch n c.index) s = .next u ∧ u.runs n c ∧ (u.glv gl).kind = .launch ∧ (u.glv gl).state = 1
        ∧ (u.glv gl).pc = BitVec.ofNat 32 h.entry ∧ (u.glv gl).rank = 0 ∧ (u.glv gl).inflight = []
        ∧ (∀ k : Fin 32, (u.glv gl).sreg k =
            if 1 ≤ k.val ∧ k.val ≤ 4 then BitVec.ofNat 64 (recFld c.record (0x10 + 8 * k.val) 8)
            else if k = 5 then launchWordOf 0 1 gl else 0)
        ∧ u.mem = s.mem)
    ∧ (s.begun n c 2 → recFld c.record 0x18 8 ≠ 0 → recFld c.record 0x18 8 ≤ 2 ^ 40 →
      ∃ u, exec (.copy n c.index ⟨0, held⟩) s = .next u ∧ u.runs n c ∧ (u.glv gl).kind = .copy
        ∧ (u.glv gl).inflight = [cmdRec .copy noFields ((recFld c.record 0x18 8 + 255) / 256) [c.record] held] ∧ u.mem = s.mem)
    ∧ (∀ l, s.begun n c 3 → s.cmdLease n c = some l →
      let t := s.startLaunch n c l .relayout [gl] 0 .none
      let a := recFld c.record 0x08 8
      let b := recFld c.record 0x10 8
      let k : Desc := BitVec.ofNat 512 (ofBytes (s.physBytes a 64))
      let d : Desc := BitVec.ofNat 512 (ofBytes (s.physBytes b 64))
      let w := relayoutFields c
      t.glovePath gl a 64 .r = .ok .mem → t.glovePath gl b 64 .r = .ok .mem → s.poisoned a 64 = false → s.poisoned b 64 = false →
      s.hall.held = [] → relayoutCheck w k d = none → relayoutRows w k ≠ 0 →
      ∃ u, exec (.relayout n c.index ⟨0, held⟩) s = .next u ∧ u.runs n c ∧ (u.glv gl).kind = .relayout
        ∧ (u.glv gl).inflight = [cmdRec .relayout w (relayoutRows w k) [k, d] held] ∧ u.mem = s.mem)

/-- BOLT_SIGNAL, BOLT_WAIT, TIMESTAMP, FENCE and a reserved KIND (R197, R198, R203): the first adds COUNT to its bolt and completes
with the new count, the second joins the bolt's FIFO, TIMESTAMP completes with the time of its start, FENCE completes once no earlier
command is open, and a reserved KIND completes BAD_COMMAND. -/
def Obligations.SchedulerCommandsRun : Prop :=
  ∀ (s : State) (n : StrmIx) (c : Cmd),
    let k := recFld c.record 0x0C 4
    let us := recFld c.record 0x10 4
    (∀ b, s.begun n c 4 → recBolt c.record = some b → s.ownsBolt b (s.stream n).tenant = true → k ≠ 0 → s.olderOpen n c.index = false →
      ∃ u, exec (.boltSignal n c.index) s = .next u ∧ (u.bolt b).count = BitVec.ofNat 32 (min (2 ^ 32 - 1) ((s.bolt b).count.toNat + k))
        ∧ u.completed n c 0 ((u.bolt b).count.zeroExtend 64) ∧ (∀ x, x ≠ b → u.bolt x = s.bolt x) ∧ u.mem = s.mem)
    ∧ (∀ b, s.begun n c 5 → recBolt c.record = some b → s.ownsBolt b (s.stream n).tenant = true → k ≠ 0 →
      ∃ u, exec (.boltWait n c.index) s = .next u ∧ u.runs n c ∧ (u.bolt b).count = (s.bolt b).count
        ∧ (u.bolt b).fifo = (s.bolt b).fifo ++
          [⟨.stream n, BitVec.ofNat 32 k, s.now, if us = 0 then none else some (s.now + 1000 * us), c.index⟩]
        ∧ (∀ x, x ≠ b → u.bolt x = s.bolt x) ∧ u.mem = s.mem)
    ∧ (s.begun n c 8 → ∃ u, exec (.timestamp n c.index) s = .next u ∧ u.completed n c 0 (BitVec.ofNat 64 c.boundAt) ∧ u.mem = s.mem)
    ∧ (s.begun n c 9 → s.olderOpen n c.index = false →
      ∃ u, exec (.fenceCommand n c.index) s = .next u ∧ u.completed n c 0 0 ∧ u.mem = s.mem ∧ s.fenceSwept u (· == 69))
    ∧ (∀ kind, kind = 0 ∨ 10 ≤ kind → s.begun n c kind →
      ∃ u, exec (.badCommand n c.index) s = .next u ∧ u.completed n c 2 0 ∧ u.mem = s.mem)

/-- ARM_TICK of a program that fits its pinned pages (R213-R215): the lease is armed with the record's fields, glove 3 is in tick idle,
and DETAIL is the bound; DISARM_TICK of a lease that is not armed completes at once, and of one in tick idle frees glove 3. -/
def Obligations.TickLeasesArmAndDisarm : Prop :=
  ∀ (s : State) (n : StrmIx) (c : Cmd) (l : LeaseIx), s.cmdLease n c = some l →
    let e := (s.lease l).engine
    let r := c.record
    (∀ (h : ProgHead) (t : State), s.begun n c 6 → s.armFields n c l = true →
      s.armBusy n ⟨recFld r 0x12 1 % 4, Nat.mod_lt _ (by decide)⟩ l = false → s.progPlace (s.stream n).tenant (recFld r 8 8) = true →
      s.readHead (s.stream n) (recFld r 8 8) = .ok (h, t) → h.ok = true → h.flags % 2 = 1 → h.engines = 1 → h.gloves = 1 →
      recFld r 8 8 + h.regionLen ≤ (s.lease l).pageRange.2 → h.regionLen + h.residentData ≤ (s.lease l).quota →
      ∃ u, exec (.armTick n c.index) s = .next u ∧ (u.eng e).tick.armed = true ∧ (u.eng e).tick.lease = l
        ∧ (u.eng e).tick.pin.val = recFld r 0x12 1 % 4 ∧ (u.eng e).tick.expect = BitVec.ofNat 32 (recFld r 0x1C 4)
        ∧ (u.eng e).tick.spilled = false ∧ (u.eng e).tick.phase = .idle ∧ (u.glv (tickGlove e)).state = 5
        ∧ (u.glv (tickGlove e)).pinned = true
        ∧ (u.stream n).cmd? c.index = some { c with
            phase := .done, spilled := false, status := 0, detail := ((u.eng e).tick.bound).zeroExtend 64, detail2 := 0 }
        ∧ u.mem = s.mem)
    ∧ (s.begun n c 7 → (s.lease l).kind = 2 → (s.stream n).cls = 0 →
      ((s.eng e).tick.armed = false → exec (.disarmTick n c.index) s = .next (s.cmdDone n c.index 0 0 0))
      ∧ ((s.eng e).tick.armed = true → (s.eng e).tick.lease = l → (s.eng e).tick.disarm = none → (s.eng e).tick.phase = .idle →
        (s.glv (tickGlove e)).hang.frozen = false → (∀ x, (s.lease x).freeing = none) →
        ∃ u, exec (.disarmTick n c.index) s = .next u ∧ (u.eng e).tick.armed = false ∧ (u.glv (tickGlove e)).state = 0
          ∧ (u.glv (tickGlove e)).armed = false ∧ u.completed n c 0 ((s.eng e).tick.runSeq.zeroExtend 64) ∧ u.mem = s.mem))

/-- COMPLETION_WRITE of a stream whose oldest command that has done its work goes to host memory (R196, R199): the record leaves by the
tenant's port, bytes 0x08-0x1F before bytes 0x00-0x07; the command leaves the stream; a STATUS other than OK without the record's
flag puts the stream in ERROR. -/
def Obligations.CompletionWriteRetiresACommand : Prop :=
  ∀ (s : State) (n : StrmIx) (c : Cmd) (p : PortIx),
    s.fabricOn = true → (s.stream n).isOpen = true → (s.stream n).nextDone = some c → (s.stream n).loc = false →
    (s.streamPort n).val = p.val → (s.port p).carries = true → recFlag c.record 0 = false → (∀ x, (s.lease x).freeing = none) →
    let st := s.stream n
    let a := st.complBase.toNat + 32 * (c.index.toNat % st.size)
    let b := st.cplBytes c s.hearth.time
    ∃ u, exec (.completionWrite n) s = .next u
      ∧ (u.port p).egress = (s.port p).egress ++ [⟨a + 8, b.1, false, false, none, 0⟩, ⟨a, b.2, false, false, none, 0⟩]
      ∧ (∀ x ∈ (u.stream n).cmds, x.index ≠ c.index)
      ∧ (u.stream n).state = (if c.status = 0 ∨ recFlag c.record 1 = true ∨ c.quiet = true then st.state else 4)
      ∧ (∀ x, x ≠ n → u.stream x = s.stream x) ∧ u.mem = s.mem

/-- SLICE_EXPIRY, SWAP_SAVE and CONTEXT_RESTORE (R65-R68, R192): the context that gives way stops issue; once its responses are in, it is
saved in its lease's slot and the glove is free; the saved launch that is next resumes on a free glove with the saved PC. -/
def Obligations.ContextsSwap : Prop :=
  ∀ (s : State) (gl : GloveRef), s.fabricOn = true → s.noGrace →
    (∀ (n : StrmIx) (c : Cmd) (l : LeaseIx) (v : GloveRef) (lower : Bool), (∀ x, (s.glv x).combiner = []) → (s.stream n).ready = some c →
      (∀ m, m ≠ n → (s.stream m).ready = none) → c.onGlove = true → s.cmdLease n c = some l →
      (s.lease l).kind = 0 → (s.lease l).engine = gl.e → (s.lease l).freeing = none → (s.lease l).resident = none →
      s.ctxBusy n c.index l = false → s.freeGlove gl.e = none → (∀ x, (s.glv ⟨gl.e, x⟩).swapping = false) →
      (s.stream n).cls.toNat = s.gloveCls gl → (s.glv gl).kind ≠ .none →
      (s.advanceTo (max (s.glv gl).boundAt.toNat (c.readyAt - 1) + s.slice)).victim gl.e (s.stream n).cls.toNat (c.readyAt - 1) =
        some (v, lower) →
      ∃ u, exec (.sliceExpiry gl) s = .next u ∧ (u.glv v).swapping = true ∧ (u.glv v).state = 3 ∧ (u.glv v).s = (s.glv v).s
        ∧ u.ten.leases = s.ten.leases)
    ∧ (∀ (l : LeaseIx) (t : State), (s.glv gl).swapping = true → (∀ r ∈ (s.glv gl).inflight, r.resp = []) → s.holder gl = some l →
      s.ctxSave gl (s.slotAddr l) (s.glv gl).swapQos.toNat = .ok t →
      ∃ u, exec (.swapSave gl) s = .next u ∧ (u.lease l).resident = none ∧ (u.lease l).saved = true
        ∧ (u.lease l).savedRun = (s.glv gl).savedRun gl s.now ∧ (u.glv gl).kind = .none ∧ (u.glv gl).swapping = false
        ∧ (u.glv gl).swaps = (s.glv gl).swaps + 1 ∧ u.mem = t.mem)
    ∧ (∀ (l : LeaseIx) (r : SavedRun), s.holder gl = none → s.gloveIdle gl = true → gl.g ≠ 3 → s.engRuns gl.e = true →
      s.nextSaved gl.e = some (l, r) → s.higherWaits gl.e r = false →
      (∀ k ≤ saveBytes, s.ctxReady gl (s.slotAddr l) k = .ok ()) → s.poisoned (s.slotAddr l) saveBytes = false →
      ∃ u, exec (.contextRestore gl) s = .next u ∧ (u.lease l).resident = some gl.g ∧ (u.lease l).saved = false
        ∧ (u.lease l).savedRun = none ∧ (u.glv gl).strm = r.strm ∧ (u.glv gl).cmdIx = r.index ∧ (u.glv gl).rank = r.rank
        ∧ (u.glv gl).state = 1
        ∧ (u.glv gl).pc = BitVec.ofNat 32 (fld (BitVec.ofNat 64 (ofBytes (s.physBytes (s.slotAddr l + 0x640) 8))) 31 0)
        ∧ u.mem = s.mem)

/-! ### The fabric -/

/-- TARGET_GRANT on an idle port whose link is up, with one arriving transaction that leads there, lies in one lane and may be granted
(R17-R25, R34): it is granted at once, its QoS clamped as R19 states; the rotating pointer moves past its master.
REQUEST_AGED and QOS_AGE_STEP (R21, R22): TIME comes to the moment at which a waiting request has waited 4,096 fc, or 256 fc more; the
requests stay. -/
def Obligations.PortsGrantAndRequestsAge : Prop :=
  (∀ (s : State) (p : PortId) (q a : Req), s.fabricOn = true → s.portDown p = false → (s.portSt p).waiting = [] →
    s.leadsTo p q = true → s.laneParts p (s.reqClamp p q) 8 q.addr (min 256 q.bytes) = [(p, a)] →
    let r := { a with since := s.now, order := s.hall.issued }
    s.mayGrant p r = true → r.master.val < portMasters p →
    ∃ u, exec (.targetGrant p [q]) s = .next u ∧ u.hall.txns = s.hall.txns ++ [⟨p, r⟩] ∧ (u.portSt p).waiting = []
      ∧ (u.portSt p).ptr.val = (r.master.val + 1) % portMasters p
      ∧ r.qos.toNat = (if q.tick = true ∧ s.actsForTick p q = true then 15 else min (min 14 q.qos.toNat) (s.ceiling q))
      ∧ u.mem = s.mem)
  ∧ (∀ (s : State) (p : PortId), s.fabricOn = true →
    (∀ k r, (s.portSt p).waiting[k]? = some r → r.since + 3454 < 2 ^ 64 → ∃ u, exec (.requestAged p k) s = .next u
      ∧ reqAged r u.now = true ∧ u.hall.ports = s.hall.ports ∧ u.hall.txns = s.hall.txns ∧ u.mem = s.mem)
    ∧ ((s.portSt p).waiting ≠ [] → (∀ r ∈ (s.portSt p).waiting, r.since ≤ s.now) → s.now + 300 < 2 ^ 64 →
      ∃ u, exec (.qosAgeStep p) s = .next u
        ∧ (∃ r ∈ (s.portSt p).waiting, reqWaitFc r u.now / 256 = reqWaitFc r s.now / 256 + 1)
        ∧ u.hall.ports = s.hall.ports ∧ u.hall.txns = s.hall.txns ∧ u.mem = s.mem))

/-- FLIT_CRC_FAIL and LINK_DOWN (R31, R353): up to eight failures in a row are replayed and counted; after that, or at once, the link
direction is down, nothing is outstanding over it, and the other directions stay.
HALL_REMAP_WRITE and REMAP_DONE (R15, R16): the manager's write of the other value starts a drain; once nothing into the low range is
outstanding, the new mapping is in force; no access waits meanwhile. A write by another master is refused and counted (R180). What is a run
of failures follows log 46. -/
def Obligations.LinksFallAndRemapChanges : Prop :=
  (∀ (s : State) (l : LinkId), s.fabricOn = true → (s.link l).down = false →
    let falls (c : Instr) : Prop := ∃ u, exec c s = .next u ∧ (u.link l).down = true ∧ (∀ t ∈ u.hall.txns, portLink t.port ≠ some l)
      ∧ (∀ x, x ≠ l → u.link x = s.link x) ∧ u.mem = s.mem
    ((s.link l).failRun s.now < 8 → ∃ u, exec (.flitCrcFail l) s = .next u
      ∧ u.link l = { s.link l with fails := (s.link l).failRun s.now + 1, failAt := s.now, retries := (s.link l).retries + 1 }
      ∧ (∀ x, x ≠ l → u.link x = s.link x) ∧ u.hall.txns = s.hall.txns ∧ u.mem = s.mem)
    ∧ (8 ≤ (s.link l).failRun s.now → falls (.flitCrcFail l))
    ∧ falls (.linkDown l))
  ∧ (∀ (s : State) (w : Writer) (v : Word), s.fabricOn = true → s.hall.held = [] →
    (s.isManager w = true → bitAt v 0 ≠ s.hall.remap → s.hall.remapNew = none →
      exec (.hallRemapWrite w v) s = .next (s.modHall fun h => { h with remapNew := some (bitAt v 0) }))
    ∧ (s.isManager w = false → s.acts w = true → ∃ u, exec (.hallRemapWrite w v) s = .next u ∧ u.hall = s.hall ∧ u.mem = s.mem
      ∧ u.ten.portViol = vset s.ten.portViol (writerMb w) (s.ten.portViol[(writerMb w).val] + 1))
    ∧ (∀ b, s.hall.remapNew = some b → s.lowBusy = false →
      ∃ u, exec .remapDone s = .next u ∧ u.hall = { s.hall with remap := b, remapNew := none } ∧ u.ten = s.ten))

/-! ### The memories of a wing -/

/-- ACC_UNIT_ACCESS to the pantry of an ACTIVE wing while no access waits (R40-R42, R45): a write leaves its bytes and no byte of memory
outside them and outside the shadows of windows (R46) changes; a read returns the bytes; an update outside a window of R46 leaves what
R42's operation gives. -/
def Obligations.AccumulateUnitAccesses : Prop :=
  ∀ (s : State) (a : AccAccess) (w : WingIx) (o n : Nat), s.fabricOn = true → s.noGrace → a.ecc = .clean →
    decodeAddr s.hall.remap a.addr = .pantry w o → o + n ≤ 0x800000 → (s.wing w).pwrState = 0 → Memory.wf s.mem = true →
    s.hall.held = [] → s.remapHolds a.addr = false →
    (∀ bs, a.kind = .write bs → bs.length = n → ∃ u, exec (.accUnitAccess a) s = .next u
      ∧ (∀ i, ∀ h : i < bs.length, u.physByte (a.addr + i) = bs[i]) ∧ s.sameBut u (s.keysOf a.addr n))
    ∧ (a.kind = .read n → ∃ u, exec (.accUnitAccess a) s = .next u ∧ u.out = s.physBytes a.addr n ∧ u.mem = s.mem)
    ∧ (∀ (op : BitVec 4) (ty : BitVec 3) (v : Word), a.kind = .update op ty v → accPair op.toNat ty.toNat = true →
      accWidth ty.toNat = n → s.poisoned a.addr n = false → (∀ k, (decodeAddr s.hall.remap a.addr).key = some k → (s.wing w).detAt k = none) →
      (s.keysOf a.addr n).any s.detHeld = false →
      ∃ u, exec (.accUnitAccess a) s = .next u
      ∧ ofBytes (u.physBytes a.addr n) = accFold op.toNat ty.toNat (ofBytes (s.physBytes a.addr n)) v.toNat % 2 ^ (8 * n)
      ∧ s.sameBut u (s.keysOf a.addr n))

/-- DET_INIT by the manager and DET_INIT_DONE (R47, R51), ECC_CNT_READ and HALL_ECC_READ (R51, R357), and PATROL_SCRUB of a corrected
location (R48, R50). INIT changes no byte of memory outside the shadow; a manager's read returns the counters and clears them. -/
def Obligations.WindowsAndErrorCounters : Prop :=
  ∀ (s : State) (w : WingIx) (k : Fin 4) (m : Writer), s.fabricOn = true →
    (s.isManager m = true → let d := (s.wing w).det[k.val]
      ∃ u, exec (.detInit m w k) s = .next u ∧ ((u.wing w).det[k.val]).initing = true ∧ ((u.wing w).det[k.val]).initDone = false
        ∧ ((u.wing w).det[k.val]).sums = (d.elements w).map (s.exactAt d)
        ∧ (∀ j : Fin 4, j ≠ k → (u.wing w).det[j.val] = (s.wing w).det[j.val])
        ∧ ∀ x, ¬(fld d.shadow 47 0 ≤ x ∧ x < fld d.shadow 47 0 + 40 * (d.elements w).length) →
          cellGet u.mem.cells x = cellGet s.mem.cells x)
    ∧ (((s.wing w).det[k.val]).initing = true → s.hall.held = [] → ∃ u, exec (.detInitDone w k) s = .next u
      ∧ ((u.wing w).det[k.val]).initing = false ∧ ((u.wing w).det[k.val]).initDone = true ∧ u.mem = s.mem)
    ∧ (∃ u, exec (.eccCntRead m w) s = .next u ∧ u.out = toBytes 8 (s.wing w).eccCnt.toNat
      ∧ (u.wing w).eccCnt = (if s.isManager m then 0 else (s.wing w).eccCnt) ∧ u.mem = s.mem)
    ∧ (∃ u, exec (.hallEccRead m) s = .next u ∧ u.out = toBytes 8 s.hall.eccWord.toNat
      ∧ u.hall.eccWord = (if s.isManager m then 0 else s.hall.eccWord) ∧ u.mem = s.mem)
    ∧ (∀ a o, fld (s.wing w).scrub 15 0 ≠ 0 → decodeAddr s.hall.remap a = .hbm w o → o < 2 ^ 34 →
      ∃ u, exec (.patrolScrub w [(a, .single)]) s = .next u ∧ (u.wing w).ceHbm = satAdd (s.wing w).ceHbm 1 ∧ u.mem = s.mem)

/-- The life of an HBM stack on which no access waits (R40, R41, R302): training ends trained or with TRAIN_FAIL; self-refresh in STANDBY; the fill
leaves zeros in the whole stack, in memory of canonical form. -/
def Obligations.HbmStackLife : Prop :=
  ∀ (s : State) (w : WingIx), s.alive = true → s.hall.held = [] →
    ((s.wing w).training = true →
      (∃ u, exec (.hbmTrainingEnd w true) s = .next u ∧ (u.wing w).trained = true ∧ (u.wing w).training = false ∧ u.mem = s.mem)
      ∧ ∃ u, exec (.hbmTrainingEnd w false) s = .next u ∧ (u.wing w).trainFail = true ∧ (u.wing w).training = false ∧ u.mem = s.mem)
    ∧ ((s.wing w).pwrState = 1 → (s.wing w).trained = true →
      ∃ u, exec (.hbmSelfRefreshEntry w) s = .next u ∧ (u.wing w).selfRefresh = true ∧ u.mem = s.mem
        ∧ ∀ c ∈ (u.wing w).comb, c.dirty = false)
    ∧ ((s.wing w).pwrState ≠ 1 → ∃ u, exec (.hbmSelfRefreshExit w) s = .next u ∧ (u.wing w).selfRefresh = false ∧ u.mem = s.mem)
    ∧ ((s.wing w).trained = true → (s.wing w).filled = false → Memory.wf s.mem = true →
      ∃ u, exec (.hbmZeroFillDone w) s = .next u ∧ (u.wing w).filled = true ∧ Memory.wf u.mem = true
        ∧ ∀ a o, decodeAddr s.hall.remap a = .hbm w o → o < 2 ^ 34 → u.physByte a = 0)

/-! ### The tick path -/

/-- TICK_EDGE_CAPTURE and TICK_EDGE_QUALIFY (R209, R210): a selected change of level becomes a candidate with TIME and the leases that were
armed before it; a qualified candidate moves LAST, EDGES and, after the first edge, INTERVAL.
BYPASS_LANE_SEND (R222): the head of the lane leaves. WAKE_ENTRY_DUE of a periodic or a single entry (R304, R305): once it is due, the
engines, wings and device that it names wake. SYNC_OUT_PULSE (R212): in MODE 2 the pin is high from a multiple of PERIOD on. -/
def Obligations.EdgesLaneWakeAndSyncEvents : Prop :=
  (∀ (s : State) (n : Fin 4), s.hearth.por = false →
    let p := s.hearth.tpin[n.val]
    (∀ level, p.level ≠ level → ∃ u, exec (.tickEdgeCapture n level) s = .next u ∧ (u.hearth.tpin[n.val]).level = level
      ∧ (u.hearth.tpin[n.val]).cand = (if p.selects level then some ⟨s.hearth.time, s.countsOn n, s.overOn n⟩ else none)
      ∧ (u.hearth.tpin[n.val]).fifo = p.fifo ∧ u.mem = s.mem)
    ∧ (∀ c, p.cand = some c → ∃ u, exec (.tickEdgeQualify n) s = .next u ∧ (u.hearth.tpin[n.val]).last = c.ts
      ∧ (u.hearth.tpin[n.val]).edges = p.edges + 1 ∧ (u.hearth.tpin[n.val]).cand = none
      ∧ (u.hearth.tpin[n.val]).interval = (if p.any = true then BitVec.ofNat 32 (min (2 ^ 32 - 1) (c.ts.toNat - p.last.toNat))
          else p.interval)
      ∧ u.mem = s.mem))
  ∧ (∀ s : State,
    (∀ (p : PortIx) x rest, s.alive = true → (s.port p).lane = x :: rest → (s.port p).lstate = 1 → (s.port p).d3hot = false →
      exec (.bypassLaneSend p) s = .next (s.modPort p fun y => { y with lane := rest, sent := y.sent ++ y.tlps x }))
    ∧ (∀ i : Fin 64, let x := s.hearth.wake[i.val]
      s.hearth.por = false → bitAt x.ctl 0 = true →
      (bitAt x.ctl 2 = true → s.hearth.devState = 3 → ∃ u, exec (.wakeEntryDue i) s = .next u ∧ u.hearth.last = 6 ∧ u.hearth.devState = 1)
      ∧ ((bitAt x.ctl 2 = true → s.hearth.devState ≠ 3) → x.due.toNat + x.per < 2 ^ 63 → s.now + x.per < 2 ^ 63 →
        ∃ u, exec (.wakeEntryDue i) s = .next u ∧ x.due.toNat ≤ u.now ∧ u.mem = s.mem
          ∧ (if bitAt x.ctl 1 then u.now < (u.hearth.wake[i.val]).due.toNat ∧ (u.hearth.wake[i.val]).ctl = x.ctl
            else (u.hearth.wake[i.val]).due = x.due ∧ bitAt (u.hearth.wake[i.val]).ctl 0 = false)
          ∧ (∀ e : EngIx, bitAt x.ctl (8 + e.val) = true → (u.eng e).holdUntil = u.now + 1000 * fld x.ctl 39 24)
          ∧ (∀ w : WingIx, bitAt x.ctl (4 + w.val) = true → (s.wing w).pwrState = 1 → (u.wing w).pwrState = 2)
          ∧ (bitAt x.ctl 2 = true → s.hearth.devState ≠ 0 → u.hearth.devState = 1 ∧ u.hearth.toward = 0)))
    ∧ (s.hearth.por = false → fld s.hearth.syncCtl 1 0 = 2 →
      let per := max 10000 (fld s.hearth.syncCtl 39 8)
      s.now + per + 40 < 2 ^ 64 → ∃ u, exec .syncOutPulse s = .next u ∧ u.hearth.syncUntil = u.now + 1000 ∧ u.now % per < 40
        ∧ u.syncPin = true ∧ u.mem = s.mem))

/-- TICK_FIRE of the only lease armed on a pin (R217): its tick glove starts at ENTRY with the arguments and the launch word; with
SEAL_EN it waits for its seal. SEAL_READ_RETURN (R218, R219): a fresh seal lets the run go on, EXPECT follows it; any other begins the
grace wait. GRACE_EXPIRY: the run is skipped or goes on stale. -/
def Obligations.TickRunsFireAndSeal : Prop :=
  ∀ (s : State) (e : EngIx), s.alive = true →
    let t := (s.eng e).tick
    let g := s.glv (tickGlove e)
    (∀ (n : Fin 4) (x : FifoEnt) (rest : List FifoEnt), s.armedOn n = [e] → (s.hearth.tpin[n.val]).unserved e = x :: rest → g.state = 5 →
      g.hang.frozen = false → t.disarm = none → t.phase = .idle → t.sealEn = true →
      ∃ u, exec (.tickFire n) s = .next u ∧ (u.eng e).tick.phase = .sealRead ∧ (u.glv (tickGlove e)).kind = .tick
        ∧ (u.glv (tickGlove e)).pc = t.entry ∧ (u.glv (tickGlove e)).wait = .seal ∧ (u.glv (tickGlove e)).tickEdge = x.ts
        ∧ (u.glv (tickGlove e)).sreg 1 = t.args[0] ∧ (u.glv (tickGlove e)).sreg 5 = tickLaunchWord e (t.runSeq + 1) ∧ u.mem = s.mem)
    ∧ (t.phase = .sealRead → s.sealFresh e = true →
      ∃ u, exec (.sealReadReturn e) s = .next u ∧ (u.eng e).tick.phase = .running ∧ (u.eng e).tick.fresh = true
        ∧ (u.eng e).tick.expect = (s.sealD e).1 + 1 ∧ (u.eng e).tick.runSeq = t.runSeq + 1 ∧ (u.glv (tickGlove e)).state = 1
        ∧ (u.glv (tickGlove e)).wait = .none)
    ∧ (t.phase = .sealRead → s.sealFresh e = false →
      ∃ u, exec (.sealReadReturn e) s = .next u ∧ (u.eng e).tick.void = true ∧ u.mem = s.mem
        ∧ (u.eng e).tick.phase = .grace (t.firedAt.toNat + (t.grace + 39) / 40 * 40))
    ∧ (∀ d, t.phase = .grace d → s.sealFresh e = false →
      (t.skip = false → ∃ u, exec (.graceExpiry e) s = .next u ∧ (u.eng e).tick.phase = .running ∧ (u.eng e).tick.stale = true
        ∧ (u.eng e).tick.expect = t.expect + 1 ∧ (u.eng e).tick.staleCnt = satAdd t.staleCnt 1 ∧ (u.glv (tickGlove e)).state = 1)
      ∧ (t.skip = true → t.disarm = none → ∃ u, exec (.graceExpiry e) s = .next u ∧ (u.eng e).tick.phase = .idle
        ∧ (u.eng e).tick.skipped = true ∧ (u.eng e).tick.skips = satAdd t.skips 1 ∧ (u.eng e).tick.expect = t.expect + 1
        ∧ (u.glv (tickGlove e)).state = 5 ∧ (u.glv (tickGlove e)).s = g.s))

/-! ### Power, temperature and resets -/

/-- ENGINE_DOZE_ENTRY, ENGINE_NAP_ENTRY, ENGINE_SLEEP_ENTRY without a context to save, ENGINE_WAKE_DONE without one to restore, and
WING_STANDBY_ENTRY and WING_WAKE_DONE while no access waits (R295-R299, R303, R315). -/
def Obligations.EnginesAndWingsChangePower : Prop :=
  ∀ (s : State) (e : EngIx) (w : WingIx), s.alive = true → s.hall.held = [] →
    let x := s.eng e
    let others (u : State) : Prop := u.mem = s.mem ∧ ∀ y, y ≠ e → u.eng y = s.eng y
    (x.pwrState = 0 → x.waking = false → 1 ≤ x.deepest → x.gloves.toList.all Glove.quiet = true → x.holdUntil ≤ s.now → x.tickHold = false →
      ∃ u, exec (.engineDozeEntry e) s = .next u ∧ u.eng e = { x with pwrState := 1 } ∧ others u)
    ∧ (x.pwrState = 1 → x.waking = false → 2 ≤ x.deepest → x.napUs ≠ 0 → x.tick.armed = false → x.gloves.toList.all Glove.quiet = true →
      ∃ u, exec (.engineNapEntry e) s = .next u ∧ (u.eng e).pwrState = 2 ∧ (∀ i : Fin 64, (u.eng e).cupboard[i.val] = Slot.empty)
        ∧ (∀ g : GlvIx, (u.glv ⟨e, g⟩) = { s.glv ⟨e, g⟩ with bbuf := none }) ∧ others u)
    ∧ (x.pwrState = 2 → x.waking = false → x.deepest = 3 → x.sleepUs ≠ 0 → x.tick.armed = false → x.drainOnSleep = false → s.noGrace →
      (∀ g, s.sleepGlove ⟨e, g⟩ = true) → (∀ g, s.gloveHolds ⟨e, g⟩ = false) →
      ∃ u, exec (.engineSleepEntry e) s = .next u ∧ (u.eng e).pwrState = 3 ∧ (u.eng e).attic = []
        ∧ (u.eng e).counters = Vector.replicate 21 0 ∧ others u)
    ∧ (x.waking = true → (s.wing (wingOf e)).pwrState = 0 → x.saved = Vector.replicate 4 false →
      ∃ u, exec (.engineWakeDone e) s = .next u ∧ u.eng e = { x with pwrState := 0, waking := false } ∧ others u)
    ∧ ((s.wing w).standbyEn = true → (s.wing w).pwrState = 0 → (s.wing w).training = false →
      (∀ y, wingOf y = w → (s.eng y).pwrState = 3 ∧ (s.eng y).waking = false) →
      ∃ u, exec (.wingStandbyEntry w) s = .next u ∧ (u.wing w).pwrState = 1 ∧ (u.wing w).comb = []
        ∧ (u.wing w).counters = Vector.replicate 12 0 ∧ u.mem = s.mem)
    ∧ ((s.wing w).pwrState = 2 →
      exec (.wingWakeDone w) s = .next (s.modWing w fun x => { x with pwrState := 0, selfRefresh := false }))

/-- DEV_PWR_ACTIVE, DEV_PWR_STANDBY and DEV_PWR_OFF_AO by the manager, and the states they lead to (R300, R301): a request is refused while a
lease is armed; OFF_AO loses every byte of memory. -/
def Obligations.DeviceChangesPower : Prop :=
  ∀ (s : State) (m : Writer), s.alive = true →
    (s.isManager m = true → ∃ u, exec (.devPwrActive m) s = .next u ∧ u.hearth.devTarget = 0 ∧ u.hearth.refused = false
      ∧ (if s.hearth.devState = 0 then u.hearth.devState = 0 else u.hearth.devState = 1 ∧ u.hearth.toward = 0) ∧ u.mem = s.mem)
    ∧ (s.isManager m = true → 0 < s.armedCount → ∃ u, exec (.devPwrStandby m) s = .next u ∧ u.hearth.refused = true
      ∧ u.hearth.devState = s.hearth.devState ∧ u.mem = s.mem)
    ∧ (s.isManager m = true → s.armedCount = 0 → ¬(s.hearth.devState = 1 ∧ s.hearth.toward = 2) →
      (∃ u, exec (.devPwrStandby m) s = .next u ∧ u.hearth.devState = 1 ∧ u.hearth.toward = 1 ∧ u.hearth.refused = false ∧ u.mem = s.mem)
      ∧ ((∀ t, (s.tenant t).isOpen = false) →
        ∃ u, exec (.devPwrOffAo m) s = .next u ∧ u.hearth.devState = 1 ∧ u.hearth.toward = 2 ∧ ∀ h, (u.hart h).inReset = true))
    ∧ (s.hearth.devState = 1 → s.hearth.toward = 1 → s.standbyReady = true →
      ∃ u, exec .deviceStandbyReached s = .next u ∧ u.hearth.devState = 2 ∧ u.cores.dir = []
        ∧ ((∀ h : HartIx, s.cores.dirty[h.val] = []) → u.mem = s.mem))
    ∧ (s.hearth.devState = 1 → s.hearth.toward = 2 → (∀ t, (s.tenant t).isOpen = false) →
      ∃ u, exec .offAoReached s = .next u ∧ u.hearth.devState = 3 ∧ u.mem = ⟨[], []⟩ ∧ u.hearth.time = s.hearth.time)
    ∧ (s.hearth.devState = 1 → s.hearth.toward = 0 → (∀ w, (s.wing w).training = false) →
      exec .deviceActiveReached s = .next (s.modHearth fun h => { h with devState := 0 }))

/-- GOVERNOR_WINDOW (R306): power over the budget slows the step by one, up to 3; ten windows 2 W below it speed the step up by one;
MAXSTEP bounds the step.
THERMAL_SAMPLE, EMERG_CLEAR, HWDT_KICK and HWDT_EXPIRY (R308-R310, R312): TJ is the hottest sensor; EMERG sets at TEMERG; 115 degrees trip
the part; EMERG clears 1 ms after TJ fell; a kick starts the period, whose end acts as WARM with LAST 5, but in the hc of a WARM
of the manager. -/
def Obligations.GovernorThermalAndHearthWatchdog : Prop :=
  (∀ (s : State) (power : BitVec 16), s.alive = true →
    let h := s.hearth
    let p : Int := power.toNat
    ∃ u, exec (.governorWindow power) s = .next u ∧ u.hearth.power = power ∧ u.mem = s.mem
      ∧ (s.budget < p → u.hearth.step.toNat = max h.maxStep.toNat (min 3 (h.step.toNat + 1)) ∧ u.hearth.overPower = (h.step == 3)
        ∧ u.hearth.lowWindows = 0)
      ∧ (s.budget - 200 < p → p ≤ s.budget → u.hearth.step.toNat = max h.maxStep.toNat h.step.toNat ∧ u.hearth.overPower = false
        ∧ u.hearth.lowWindows = 0)
      ∧ (p ≤ s.budget - 200 → u.hearth.overPower = false ∧ if h.lowWindows < 9
        then u.hearth.step.toNat = max h.maxStep.toNat h.step.toNat ∧ u.hearth.lowWindows = h.lowWindows + 1
        else u.hearth.step.toNat = max h.maxStep.toNat (h.step.toNat - 1) ∧ u.hearth.lowWindows = 0))
  ∧ (∀ (s : State) (m : Writer), s.hearth.por = false →
    (∀ t : TempSample, s.hearth.pinReset = false → let tj := hottest (dieMax t).toList
      ∃ u, exec (.thermalSample t) s = .next u ∧ u.hearth.tj = tj
        ∧ (s.hearth.gated = false → 115 ≤ tj.toInt → u.hearth.gated = true ∧ u.hearth.tripped = true ∧ u.hearth.last = 7 ∧ u.mem = ⟨[], []⟩)
        ∧ (tj.toInt < 115 → u.hearth.emerg = (s.hearth.emerg || decide (s.hearth.temerg ≤ tj.toInt)) ∧ u.mem = s.mem
          ∧ ∀ w, (u.wing w).temp = t.stackTemps[w.val]))
    ∧ (∀ c, s.hearth.coolSince = some c → s.hearth.emerg = true → c + 1000040 < 2 ^ 64 →
      ∃ u, exec .emergClear s = .next u ∧ u.hearth.emerg = false ∧ c + 1000000 ≤ u.now ∧ u.mem = s.mem)
    ∧ (s.fabricOn = true → s.isManager m = true → bitAt s.hearth.rstCtl 1 = true →
      ∃ u, exec (.hwdtKick m) s = .next u ∧ u.hearth.hwdt = some (s.now + s.hearth.hwdtNs) ∧ u.mem = s.mem)
    ∧ (∀ d, s.hearth.hwdt = some d → s.alive = true → ∃ u, exec .hwdtExpiry s = .next u ∧ u.hearth.hwdt = none
      ∧ if s.hearth.warmAt = some (s.advanceTo d).now then u.hearth.last = s.hearth.last ∧ u.hearth.warms = s.hearth.warms
        else u.hearth.last = 5 ∧ u.hearth.warms = s.hearth.warms + 1 ∧ ∀ n, (u.stream n).isOpen = false))

/-- POWER_ON_RESET, HEARTH_UNDERVOLTAGE, POR_END, RESET_N_LOW, RESET_N_HIGH, PWR_GOOD_LOW, PWR_GOOD_HIGH and RAIL_UNDERVOLTAGE (R301, R302, R310, R311, R315,
R366): POR forgets everything and TIME starts at 0 at its end; a PIN reset keeps HBM alone, unless a rail of HBM has failed, and
ends, with the straps latched, once both pins are high. The start of TIME is the rule's (R366); memory after POR reads as the model's choice for unwritten bytes.
WARM and ENGINE_RESET by the manager (R313-R315): WARM keeps what the caches do not hold of memory and ends with LAST 4; the reset of an engine
on which nothing runs clears its state and touches no other engine. -/
def Obligations.ResetsOfThePart : Prop :=
  (∀ s : State,
    let porHeld (c : Instr) : Prop := ∃ u, exec c s = .next u ∧ u.hearth.por = true ∧ u.mem = ⟨[], []⟩
      ∧ u.engines = Vector.replicate 16 Engine.reset ∧ u.pending = s.pending
    let pinHeld (c : Instr) (cause : BitVec 4) : Prop := ∃ u, exec c s = .next u ∧ u.hearth.pinReset = true ∧ u.hearth.last = cause
      ∧ u.engines = Vector.replicate 16 Engine.reset ∧ ((∀ h : HartIx, s.cores.dirty[h.val] = []) →
        ∀ k, cellGet u.mem.cells k = if isHbm k then cellGet s.mem.cells k else 0)
    let released (c : Instr) : Prop := ∃ u, exec c s = .next u ∧ u.hearth.pinReset = false ∧ u.hearth.gated = false
      ∧ u.hearth.mgrSel = s.hearth.mgrStrap ∧ u.hearth.bootSrc = s.hearth.bootStrap
    porHeld .powerOnReset ∧ porHeld .hearthUndervoltage
    ∧ (s.hearth.por = true → ∃ u, exec .porEnd s = .next u ∧ u.hearth.por = false ∧ u.hearth.time = 0
      ∧ u.hearth.mgrSel = s.hearth.mgrStrap ∧ u.hearth.pinReset = !(s.hearth.resetN && s.hearth.pwrGood))
    ∧ (s.hearth.por = false → s.hearth.devState ≠ 3 → pinHeld .resetNLow (if s.hearth.pwrGood = true then 2 else 3) ∧ pinHeld .pwrGoodLow 3
      ∧ (∀ r : Fin 10, r ≠ 0 → s.hearth.pwrGood = true → if hbmRail r = true
        then ∃ u, exec (.railUndervoltage r) s = .next u ∧ u.hearth.pinReset = true ∧ u.hearth.last = 3
          ∧ u.engines = Vector.replicate 16 Engine.reset ∧ u.mem = ⟨[], []⟩
        else pinHeld (.railUndervoltage r) 3))
    ∧ (s.hearth.por = false → s.hearth.pinReset = true → (s.hearth.gated = true → s.hearth.tj.toInt < 95) →
      (s.hearth.pwrGood = true → released .resetNHigh) ∧ (s.hearth.resetN = true → released .pwrGoodHigh)))
  ∧ (∀ (s : State) (m : Writer), s.fabricOn = true → s.isManager m = true →
    (∃ u, exec (.warm m) s = .next u ∧ u.hearth.last = 4 ∧ u.hearth.warms = s.hearth.warms + 1 ∧ u.hall = Hall.reset
      ∧ (∀ n, (u.stream n).isOpen = false) ∧ (∀ t, (u.tenant t) = Tenant.closed (s.tenant t).openSeq)
      ∧ ((∀ h : HartIx, s.cores.dirty[h.val] = []) → u.mem = s.mem))
    ∧ (∀ e : EngIx, (∀ g, (s.glv ⟨e, g⟩).kind = .none) → (∀ n, (s.lease n).freeing = none) →
      ∃ u, exec (.engineReset m e) s = .next u ∧ (u.eng e).counters = Vector.replicate 21 0 ∧ (u.eng e).attic = []
        ∧ (u.eng e).cupboard = Vector.replicate 64 Slot.empty ∧ (∀ g k, (u.glv ⟨e, g⟩).sreg k = 0)
        ∧ (∀ y, y ≠ e → u.eng y = s.eng y) ∧ u.mem = s.mem))

/-! ### The cores -/

/-- CORE_RUN, CORE_RESET, LOAD_GO and HART_MSIP_START (R247, R259-R261): RUN releases a hart at BOOT_ENTRY and holds one in reset; CORE_RESET
empties the caches; LOAD_GO takes hart 0 out of reset; a waiting hart jumps to BOOT_ENTRY.
BOOT_IMAGE_AUTH (R247-R249): a first copy that passes every check starts hart 0 at LOAD + ENTRY with a0 = 0 and a1 = LOAD; without a
second copy, one that fails leaves hart 0 in WFI in the boot ROM, as does a flash that does not answer, with the FLASH code. -/
def Obligations.HartsStartAndBoot : Prop :=
  (∀ (s : State) (m : Writer) (mask : BitVec 4), s.fabricOn = true →
    (s.isManager m = true → s.hearth.bootSrc ≠ 3 → ∃ u, exec (.coreRun m mask) s = .next u ∧ u.cores.run = mask
      ∧ ((∀ h : HartIx, s.cores.dirty[h.val] = []) → u.mem = s.mem)
      ∧ ∀ h : HartIx, u.hart h = if bitAt s.cores.run h.val = bitAt mask h.val then s.hart h
          else if bitAt mask h.val then { Hart.reset false with pc := s.cores.bootEntry, inRom := false } else Hart.reset true)
    ∧ (s.isManager m = true → mask ≠ 0 → (∀ t, (s.tenant t).isOpen = true → (s.tenant t).port ≠ 4) →
      ∃ u, exec (.coreReset m mask) s = .next u ∧ (∀ h : HartIx, u.cores.cached[h.val] = [] ∧ u.cores.dirty[h.val] = [])
        ∧ (∀ h : HartIx, bitAt mask h.val = true → (s.hart h).inReset = true → (u.hart h).inReset = true)
        ∧ (∀ h : HartIx, bitAt mask h.val = true → (s.hart h).inReset = false → s.hearth.bootSrc = 0 →
          (u.hart h).pc = 0 ∧ (u.hart h).inRom = true ∧ (u.hart h).wfi = (h != 0))
        ∧ (∀ h : HartIx, bitAt mask h.val = false → (u.hart h).x = (s.hart h).x ∧ (u.hart h).pc = (s.hart h).pc))
    ∧ (s.isManager m = true → s.hearth.bootSrc ≠ 3 → ∃ u, exec (.loadGo m) s = .next u ∧ u.cores.loadGo = true
      ∧ (u.hart 0).inReset = false ∧ u.mem = s.mem)
    ∧ (∀ h : HartIx, h ≠ 0 → (s.hart h).inRom = true → (s.hart h).wfi = true → (s.hart h).inReset = false →
      ∃ u, exec (.hartMsipStart h) s = .next u ∧ (u.hart h).pc = s.cores.bootEntry ∧ (u.hart h).msip = true ∧ (u.hart h).wfi = false
        ∧ (∀ k, k ≠ h → u.hart k = s.hart k) ∧ u.mem = s.mem))
  ∧ (∀ (s : State) (f : FlashRead), s.bootRuns = true → s.cores.bootSram = false → s.hearth.bootSrc = 0 →
    (∀ l, f.sfdp = true → f.primary = some l → f.secondary = none → imgHeader (some l) = .ok l → imgPlaced l = true →
      imgTotal l ≤ l.length → s.noGrace → ∃ u, exec (.bootImageAuth f) s = .next u ∧ if imgCode l = 1
        then (u.hart 0).pc = at_ (imgLoad l + imgEntry l) 0 ∧ (u.hart 0).inRom = false ∧ (u.hart 0).getX 10 = 0
          ∧ (u.hart 0).getX 11 = at_ (imgLoad l) 0 ∧ u.cores.bootCode = 1 ∧ u.cores.bootCopy = false
        else (u.hart 0).pc = (s.hart 0).pc ∧ (u.hart 0).inRom = true ∧ (u.hart 0).wfi = true ∧ u.cores.bootCode = 6
          ∧ u.cores.bootCopy = true)
    ∧ (f.sfdp = false → ∃ u, exec (.bootImageAuth f) s = .next u ∧ (u.hart 0).wfi = true ∧ (u.hart 0).pc = (s.hart 0).pc
        ∧ u.cores.bootCode = 6 ∧ u.mem = s.mem))

/-- MTIMER_INTERRUPT, PLIC_CLAIM and PLIC_COMPLETE (R244-R246): the timer interrupt is pending once mtime reaches mtimecmp; a claim answers the
best pending source and opens it; a completion by a context that enables the source closes it. -/
def Obligations.TimerAndPlic : Prop :=
  ∀ s : State, s.fabricOn = true →
    (∀ h : HartIx, 40 * (s.hart h).mtimecmp.toNat < 2 ^ 64 → ∃ u, exec (.mtimerInterrupt h) s = .next u ∧ u.mtip h = true
      ∧ s.now ≤ u.now ∧ (∀ k, u.hart k = { s.hart k with csrs := (u.hart k).csrs }) ∧ u.mem = s.mem)
    ∧ (∀ ctx : Fin 8, let n := s.plicBest ctx
      ∃ u, exec (.plicClaim ctx) s = .next u ∧ u.out = toBytes 4 n ∧ n < 160 ∧ u.mem = s.mem
        ∧ ∀ k < 160, bitAt u.cores.plicClaimed k = (bitAt s.cores.plicClaimed k || (decide (n ≠ 0) && decide (k = n))))
    ∧ (∀ (ctx : Fin 8) (n : Nat), n < 160 → s.cores.enabled ctx n = true →
      ∃ u, exec (.plicComplete ctx n) s = .next u ∧ u.mem = s.mem
        ∧ ∀ k < 160, bitAt u.cores.plicClaimed k = (bitAt s.cores.plicClaimed k && decide (k ≠ n)))

/-- CORE_MEMORY_ACCESS of a hart that may access memory (R242, R243, R252, R256): a load or a fetch returns the bytes; a store leaves its
bytes; a load on a wrong path leaves the registers; and no other byte of memory changes outside the shadows of windows (R46), which
follow the lines that are written back. DIRECTORY_REQUEST, CORE_WRITEBACK and DIRECTORY_FORWARD (R253): the line's owner. -/
def Obligations.CoresAccessMemory : Prop :=
  ∀ (s : State) (h : HartIx), s.fabricOn = true → (s.hart h).inReset = false →
    (∀ (a n : Nat) (k : CAttr × Option TenIx), (s.hart h).halted = false → (s.hart h).wfi = false → s.mem.poison = [] → s.noGrace →
      k.1 = .plain ∨ k.1 = .cache →
      (s.coreCheck h a n .r = .ok k → ∃ u, exec (.coreMemoryAccess h a (.load n)) s = .next u ∧ u.out = s.physBytes a n ∧ s.sameBut u [])
      ∧ (s.coreCheck h a 4 .x = .ok k → ∃ u, exec (.coreMemoryAccess h a .fetch) s = .next u ∧ u.out = s.physBytes a 4 ∧ s.sameBut u [])
      ∧ ((s.hart h).effPriv .r = 3 → ∃ u, exec (.coreMemoryAccess h a (.ahead n)) s = .next u ∧ u.out = s.out
        ∧ (u.hart h).x = (s.hart h).x ∧ (u.hart h).pc = (s.hart h).pc ∧ s.sameBut u [])
      ∧ (∀ v : Word, s.coreCheck h a n .w = .ok k → Memory.wf s.mem = true →
        ∃ u, exec (.coreMemoryAccess h a (.store n v)) s = .next u
          ∧ ((∀ y ∈ s.keysOf a n, ¬s.inShadow y) → ∀ i, ∀ x : i < (toBytes n v.toNat).length, u.physByte (a + i) = (toBytes n v.toNat)[i])
          ∧ s.sameBut u (s.keysOf a n)))
    ∧ (∀ (line l : Nat), s.cacheLine line = some l → s.cores.dirHeld = [] → s.cores.victim = [] →
      (∀ own, s.cores.dirPend = [] → s.cores.entry l = none → s.lineReady l = .ok →
        ∃ u, exec (.directoryRequest line [] [⟨h, own⟩]) s = .next u ∧ l ∈ u.cores.cached[h.val] ∧ s.sameBut u []
          ∧ u.cores.entry l = some (if own then .owned h else .shared (1 <<< h.val)))
      ∧ (l ∈ s.cores.cached[h.val] → ∃ u, exec (.coreWriteback h line) s = .next u ∧ l ∉ u.cores.cached[h.val] ∧ u.mem = s.mem
        ∧ (s.cores.isDirty h l = true → u.cores.victim = [(h, l)]))
      ∧ (∀ (k : HartIx) (own : Bool), k ≠ h → s.cores.dirPend = [⟨l, h, own⟩] → s.cores.owing = [] → s.cores.entry l = some (.owned k) →
        ∃ u, exec (.directoryForward line) s = .next u ∧ u.cores.entry l = some (.owned h) ∧ l ∈ u.cores.cached[h.val]
          ∧ l ∉ u.cores.cached[k.val] ∧ u.cores.dirPend = [] ∧ u.mem = s.mem))

/-- HART_INSTRUCTION and SPECULATION_BARRIER of a hart that runs and takes no interrupt (R233, R258): `addi` (log 27) adds its
sign-extended immediate, and the barrier, which is an `slti` into x0, only retires; x0 stays 0. `u` is the state that the fetch leaves. -/
def Obligations.HartsRunInstructions : Prop :=
  ∀ (s u : State) (h : HartIx) (v : Nat), s.hartRuns h = true → (s.hart h).wfi = false → s.takeIrq h = none →
    (∀ (rd rs1 : BitVec 5) (imm : BitVec 12),
      let enc : BitVec 32 := imm ++ (rs1 ++ ((0 : BitVec 3) ++ (rd ++ (0x13 : BitVec 7))))
      s.hFetch h enc.toNat = .ok v u →
      ∃ t, exec (.hartInstruction h enc) s = .next t ∧ (t.hart h).pc = (u.hart h).pc + 4 ∧ t.mem = u.mem
        ∧ ∀ n < 32, (t.hart h).getX n
          = if n = rd.toNat ∧ n ≠ 0 then (u.hart h).getX rs1.toNat + imm.signExtend 64 else (u.hart h).getX n)
    ∧ (s.hFetch h 0x05B02013 = .ok v u →
      ∃ t, exec (.speculationBarrier h) s = .next t ∧ (t.hart h).pc = (u.hart h).pc + 4 ∧ t.mem = u.mem
        ∧ ∀ n < 32, (t.hart h).getX n = (u.hart h).getX n)

/-! ### Host ports -/

/-- HOST_INBOUND_READ and HOST_INBOUND_WRITE of memory by a port with a tenant whose rooms admit the access, while no access waits (R186,
R188, R323, R324): a read completes with the bytes and changes no byte of memory; a write leaves its bytes, and no byte outside them and
outside the shadows of windows (R46) changes. CONFIGURATION_REQUEST (R320): a read answers the dword, a write of the command register
stores its writable bits. -/
def Obligations.HostsReadAndWrite : Prop :=
  ∀ (s : State) (p : PortIx), s.linked p = true → s.fabricOn = true → s.hearth.devState = 0 → s.noGrace →
    (∀ (bar : Fin 3) (off n : Nat) (t : TenIx), (s.port p).d3hot = false → off + n ≤ barSize bar → inRegs (barBase bar + off) = false →
      let a := barBase bar + off
      s.hall.held = [] → s.mapped a n = true → s.inboundReady a n = .ok →
      (s.inboundTenant p a n .r = some t → ∃ u, exec (.hostInboundRead p bar off n) s = .next u ∧ u.mem = s.mem
        ∧ (u.port p).cpls = (s.port p).cpls ++ [⟨0, s.physBytes a n, s.poisoned a n⟩])
      ∧ (∀ data : List Byte, data.length = n → n ≤ 256 → s.inboundTenant p a n .w = some t → s.readOnly a n = false →
        Memory.wf s.mem = true → ∃ u, exec (.hostInboundWrite p bar off data false) s = .next u
          ∧ ((∀ y ∈ s.keysOf a n, ¬s.inShadow y) → ∀ i, ∀ x : i < data.length, u.physByte (a + i) = data[i])
          ∧ s.sameBut u (s.keysOf a n)))
    ∧ (∀ off, ∃ u, exec (.configurationRequest p off none) s = .next u ∧ u.mem = s.mem
      ∧ (u.port p).cfgOut = (s.port p).cfgOut ++ [s.cfgRead p (off % 4096 / 4 * 4)])
    ∧ (∀ v : BitVec 32, ∃ u, exec (.configurationRequest p 4 (some (v, 15))) s = .next u ∧ u.mem = s.mem
      ∧ u.cfgRead p 4 &&& 0x146 = v &&& 0x146)

/-- PERST_ASSERT, PERST_DEASSERT, PCIE_LINK_LOSS, HOT_RESET, LINK_DISABLE and FLR of a port without open tenants (R330-R332): its queues empty, its
vectors are masked, and all but FLR take the link down; memory and the other ports stay.
D3HOT_ENTRY, D0_RETURN, ASPM_L1_ENTRY, ASPM_L1_EXIT, PORT_LINK_CHANGE, COMPLETION_TIMEOUT and MSIX_UNMASK (R319, R320, R326-R329). -/
def Obligations.PortResetsAndLinkStates : Prop :=
  (∀ (s : State) (p : PortIx), s.alive = true → (∀ t, (s.tenant t).isOpen = true → (s.tenant t).port ≠ portMb p) →
    let gone (c : Instr) (down : Bool) (losses : BitVec 16) : Prop := ∃ u, exec c s = .next u ∧ u.mem = s.mem ∧ (u.port p).lane = []
      ∧ (u.port p).egress = [] ∧ (u.port p).pba = 0 ∧ (∀ v : Fin 128, (u.port p).msix[v.val] = ⟨0, 0, true⟩)
      ∧ (u.port p).linkDowns = losses ∧ (u.port p).lstate = (if down then 0 else (s.port p).lstate) ∧ ∀ q, q ≠ p → u.port q = s.port q
    ((s.port p).perst = false → gone (.perstAssert p) true (s.port p).linkDowns)
    ∧ ((s.port p).perst = true → exec (.perstDeassert p) s = .next (s.modPort p fun x => { x with perst := false }))
    ∧ ((s.port p).lstate ≠ 0 → gone (.pcieLinkLoss p) true ((s.port p).linkDowns + 1) ∧ gone (.hotReset p) true (s.port p).linkDowns
      ∧ gone (.linkDisable p) true (s.port p).linkDowns ∧ gone (.flr p) false (s.port p).linkDowns))
  ∧ (∀ (s : State) (p : PortIx),
    let x := s.port p
    (s.linked p = true → x.d3hot = false → s.l1Held p = false → ∃ u, exec (.d3hotEntry p) s = .next u ∧ (u.port p).d3hot = true
      ∧ u.mem = s.mem)
    ∧ (s.linked p = true → exec (.d0Return p) s = .next (s.modPort p fun y => { y with d3hot := false }))
    ∧ (s.linked p = true → x.lstate = 1 → bitAt (x.cfgStored 0x60 0) 1 = true → s.l1Held p = false → x.d3hot = false → x.lane = [] →
      x.egress = [] → ∃ u, exec (.aspmL1Entry p) s = .next u ∧ 2 ≤ (u.port p).lstate.toNat ∧ u.mem = s.mem)
    ∧ (s.linked p = true → ∃ u, exec (.aspmL1Exit p) s = .next u ∧ (u.port p).lstate = 1 ∧ u.mem = s.mem)
    ∧ (∀ (speed : BitVec 4) (width : BitVec 3), s.alive = true → x.perst = false → linkOk speed width = true →
      ∃ u, exec (.portLinkChange p speed width) s = .next u ∧ (u.port p).speed = speed ∧ (u.port p).width = width
        ∧ (u.port p).lstate = 1 ∧ u.mem = s.mem)
    ∧ (∀ gl, s.linked p = true → ∃ u, exec (.completionTimeout p gl) s = .next u ∧ (u.port p).cplTimeouts = x.cplTimeouts + 1
      ∧ (u.port p).aerStat = x.aerStat ||| 0x4000 ∧ u.mem = s.mem)
    ∧ (∀ v : Fin 128, s.fabricOn = true → ∃ u, exec (.msixUnmask p v) s = .next u ∧ ((u.port p).msix[v.val]).mask = false ∧ u.mem = s.mem
      ∧ (x.msixOn = true → bitAt x.pba v.val = true → (u.port p).vectors = x.vectors ++ [v.val] ∧ bitAt (u.port p).pba v.val = false)))

/-! ### The board -/

/-- FLASH_GO, FLASH_COMMAND_DONE and the UART (R333, R336): GO makes the flash busy and the end of a read leaves its bytes; a byte is
queued for the line, taken from it, and popped by its reader; a full receive FIFO sets OVERRUN. -/
def Obligations.FlashAndUartMoveBytes : Prop :=
  ∀ (s : State) (m : Writer) (b : Byte), s.fabricOn = true →
    (s.flashWriter m = true → s.cores.flashBusy = false → s.bootReads = false →
      ∃ u, exec (.flashGo m) s = .next u ∧ u.cores.flashBusy = true ∧ u.cores.flashData = s.cores.flashData ∧ u.mem = s.mem)
    ∧ (∀ data : List Byte, s.cores.flashBusy = true → ∃ u, exec (.flashCommandDone data) s = .next u ∧ u.cores.flashBusy = false
      ∧ u.mem = s.mem ∧ ∀ i : Fin 256, u.cores.flashData[i.val] =
        if bitAt s.cores.flashCmd 16 = false ∧ i.val < fld s.cores.flashCmd 25 17 then (data[i.val]?).getD s.cores.flashData[i.val]
        else s.cores.flashData[i.val])
    ∧ (s.reachesPlatform m = true →
      exec (.uartTxPush m b) s = .next (s.modCores fun c => { c with uartTx := c.uartTx ++ [b] }))
    ∧ (∀ rest, s.reachesPlatform m = true → s.cores.uartRx = b :: rest → ∃ u, exec (.uartRxPop m) s = .next u
      ∧ u.out = toBytes 8 b.toNat ∧ u.cores.uartRx = rest ∧ u.mem = s.mem)
    ∧ (∃ u, exec (.uartRxByte b) s = .next u ∧ u.mem = s.mem ∧ if s.cores.uartRx.length < 64
        then u.cores.uartRx = s.cores.uartRx ++ [b] ∧ u.cores.uartOverrun = s.cores.uartOverrun
        else u.cores.uartRx = s.cores.uartRx ∧ u.cores.uartOverrun = true)
    ∧ (∀ rest, s.cores.uartTx = b :: rest → exec .uartTxByte s
      = .next (s.modCores fun c => { c with uartTx := rest, uartSent := c.uartSent ++ [b] }))

/-- The SMBus commands (R334, R335) outside POR: each answers its bytes and changes nothing else, ALERT_MASK and ALERT_CLR change their
register, READ64 answers
all ones where nothing lies (R12), WAKE takes the device out of STANDBY, and a target that drives ALERT_N low answers its address.
TAP_RESET, EXTEST, IDCODE, SAMPLE_PRELOAD, CLAMP, HIGHZ, BYPASS, DTMCS and DMI (R337, R338) while the Hall die is powered: the
instruction register and what is shifted out; EXTEST and SAMPLE_PRELOAD latch the bits shifted in; DMI shifts out what the access
before it answered. The bits of DTMCS and DMI follow log 29. -/
def Obligations.SmbusAndTapCommandsAnswer : Prop :=
  (∀ s : State, s.hearth.por = false →
    let h := s.hearth
    let gives (c : Instr) (l : List Byte) : Prop := exec c s = .next (s.modHearth fun h => { h with smbOut := l })
    (∃ l, gives .ident l ∧ l.length = 18 ∧ l.take 6 = [0x9C, 0x1F, 0x00, 0x16, 0xA1, 5] ∧ l[14]? = some (h.last.zeroExtend 8)
      ∧ l[15]? = some (h.devState.zeroExtend 8))
    ∧ gives .temps (h.dieTemps.toList ++ s.wings.toList.map (·.temp) ++ [h.tj])
    ∧ (∀ sample : Vector (BitVec 16 × BitVec 16) 10, ∃ l, gives (.rails sample) l ∧ l.length = 40 ∧ ∀ k : Fin 10,
      (l.drop (4 * k.val)).take 4 = toBytes 2 (sample[k.val]).1.toNat ++ toBytes 2 (sample[k.val]).2.toNat)
    ∧ gives .alertStat (toBytes 2 h.alertStat.toNat) ∧ gives (.alertMask none) (toBytes 2 h.alertMask.toNat)
    ∧ (∀ v, exec (.alertMask (some v)) s = .next (s.modHearth fun h => { h with alertMask := v }))
    ∧ (∀ v, ∃ u, exec (.alertClr v) s = .next u ∧ u.hearth.alertMask = h.alertMask
      ∧ ∀ i < 6, u.hearth.alertStat.getLsbD i = (h.alertStat.getLsbD i && !v.getLsbD i))
    ∧ (∀ d : Fin 5, ∃ l, gives (.fuseRecord d) l ∧ l.length = 16)
    ∧ (∀ i : Fin 64, gives (.bbRead (BitVec.ofNat 8 i.val)) (h.bbAt i).bytes)
    ∧ (∀ a : BitVec 32, ∃ u, exec (.read64 a) s = .next u ∧ u.mem = s.mem ∧ u.hearth.smbOut.length = 9
      ∧ if a.toNat < 0x40000000 ∨ 0x60000000 < a.toNat + 8 then u.hearth.smbOut.head? = some 2
        else if inHearthBlock a.toNat = false ∧ h.devState ≠ 0 then u.hearth.smbOut.head? = some 1
        else if s.mapped a.toNat 8 = true then u.hearth.smbOut.head? = some 0
        else u.hearth.smbOut.head? ≠ some 0 ∧ u.hearth.smbOut.drop 1 = List.replicate 8 0xFF)
    ∧ (h.devState = 2 → ∃ u, exec (.wake 1) s = .next u ∧ u.hearth.devState = 1 ∧ u.hearth.toward = 0 ∧ u.mem = s.mem)
    ∧ (h.alertN = false → gives .alertResponse [BitVec.ofNat 8 (2 * (0x60 + h.smbAddr.toNat))]))
  ∧ (∀ s : State, s.tapOn = true →
    let scans (c : Instr) (ir : BitVec 5) (out : List Bool) : Prop := ∃ u, exec c s = .next u ∧ u.cores.tapIr = ir ∧ u.cores.tapDr = out
      ∧ u.cores.tapPins = s.cores.tapPins ∧ u.mem = s.mem
    scans .tapReset 1 []
    ∧ scans .idcode 1 (bitsOf (0x11600BE7 : BitVec 32)) ∧ scans .clamp 4 [false] ∧ scans .highz 5 [false]
    ∧ (∀ code tdi, scans (.bypass code tdi) code [false, tdi])
    ∧ (∀ dr, ∃ u, exec (.extest dr) s = .next u ∧ u.cores.tapIr = 0 ∧ u.cores.tapPins = dr ∧ u.cores.tapDr.length = dr.length
      ∧ u.mem = s.mem)
    ∧ (∀ dr, ∃ u, exec (.samplePreload dr) s = .next u ∧ u.cores.tapIr = 2 ∧ u.cores.tapPins = dr
      ∧ u.cores.tapDr.length = dr.length ∧ u.mem = s.mem)
    ∧ (∀ dr, scans (.dtmcs dr) 0x10 (bitsOf dtmcsRead))
    ∧ (∀ op addr data, ∃ u, exec (.dmi op addr data) s = .next u ∧ u.cores.tapIr = 0x11 ∧ u.cores.tapDr = bitsOf s.cores.dmLast))

/-! ### Observation and hangs -/

/-- OBS_CLEAR, TRACE_FLUSH, TRACE_DMA_CHUNK, OBS_WRITE_ISSUE and SAMPLER_DUE (R265-R271). -/
def Obligations.ObservationMovesRecords : Prop :=
  ∀ (s : State) (m : Writer) (c : Fin 17), s.fabricOn = true →
    (s.isManager m = true → ∃ u, exec (.obsClear m) s = .next u ∧ (∀ e, (u.eng e).counters = Vector.replicate 21 0)
      ∧ (∀ w, (u.wing w).counters = Vector.replicate 12 0) ∧ u.obs.counters = Vector.replicate 7 0 ∧ u.mem = s.mem)
    ∧ (s.isManager m = true → 16 * ((s.attic c).length + 1) ≤ s.obs.tch[c.val].space →
      ∃ u, exec (.traceFlush m c) s = .next u ∧ u.attic c = [] ∧ u.obs.tch[c.val].chunk = s.obs.tch[c.val].chunk ++ padEven (s.attic c)
        ∧ u.mem = s.mem)
    ∧ (s.chunkDue c = true → ∃ u, exec (.traceDmaChunk c) s = .next u ∧ u.attic c = (s.attic c).drop 16
      ∧ u.obs.tch[c.val].chunk = (s.attic c).take 16 ∧ u.mem = s.mem)
    ∧ (∀ x t, s.nextObs = some x → (s.obsBytes x).2.length ≤ s.obs.tokens → s.ringWrite (s.obsBytes x).1 (s.obsBytes x).2 = some t →
      s.noGrace → ∃ u, exec .obsWriteIssue s = .next u ∧ u.obs.tokens = s.obs.tokens - (s.obsBytes x).2.length ∧ u.mem = t.mem)
    ∧ (∀ k : Fin 4, (s.obs.samp[k.val]).period ≠ 0 → ∃ u, exec (.samplerDue k) s = .next u
      ∧ (u.obs.samp[k.val]).seq = (s.obs.samp[k.val]).seq + 1 ∧ (u.obs.samp[k.val]).pend.isSome = true ∧ (u.obs.samp[k.val]).clr = 0
      ∧ (∀ j : Fin 4, j ≠ k → u.obs.samp[j.val] = s.obs.samp[j.val]) ∧ u.mem = s.mem)

/-- WATCHDOG_EXPIRY, GLOVE_FROZEN, DUMP_START, DUMP_COMPLETE, HANG_RESUME, HANG_ABORT and CELLAR_SLOT_FREE (R278-R286, R290): a glove whose IDLE
reaches LIMIT stops and freezes with its registers kept; its dump takes the lowest free slot of its wing, or is skipped; the manager
resumes or aborts it, and frees slots. -/
def Obligations.HungGlovesFreezeAndAreReleased : Prop :=
  ∀ (s : State) (gl : GloveRef) (m : Writer), s.fabricOn = true → s.noGrace → s.hall.held = [] →
    let g := s.glv gl
    let keeps (u : State) : Prop := (u.glv gl).sameRegs (fun _ => False) (fun _ => False) g
    (s.idleCounts gl = true → g.combiner = [] → (s.eng gl.e).saved[gl.g.val] = false →
      ∃ u, exec (.watchdogExpiry gl) s = .next u ∧ (u.glv gl).hang.freezing = true ∧ (u.glv gl).wait = .none
        ∧ (u.glv gl).inflight.length = g.inflight.length ∧ keeps u ∧ u.mem = s.mem)
    ∧ (g.hang.freezing = true → (∀ r ∈ g.inflight, r.resp = []) → (s.eng gl.e).saved[gl.g.val] = false →
      ∃ u, exec (.gloveFrozen gl) s = .next u ∧ (u.glv gl).state = 4 ∧ (u.glv gl).hang.frozen = true ∧ gl ∈ u.obs.dumpQueue
        ∧ (u.glv gl).inflight = g.inflight ∧ keeps u ∧ u.mem = s.mem)
    ∧ (s.obs.dumping = none → s.obs.dumpQueue = [gl] → g.hang.frozen = true → g.hang.dump = 1 →
      (∀ k, bitAt s.obs.censusCtl 4 = true → (s.wing (wingOf gl.e)).cellarFree = some k →
        ∃ u, exec .dumpStart s = .next u ∧ u.obs.dumping = some gl ∧ u.obs.dumpQueue = [] ∧ (u.glv gl).hang.dump = 2
          ∧ (u.glv gl).hang.slot = k ∧ keeps u ∧ u.mem = s.mem)
      ∧ (bitAt s.obs.censusCtl 4 = false ∨ (s.wing (wingOf gl.e)).cellarFree = none →
        ∃ u, exec .dumpStart s = .next u ∧ u.obs.dumping = none ∧ u.obs.dumpQueue = [] ∧ (u.glv gl).hang.dump = 0
          ∧ (u.glv gl).hang.noSlot = true ∧ keeps u ∧ u.mem = s.mem))
    ∧ (s.obs.dumping = some gl → g.hang.frozen = true → g.hang.dump = 2 →
      s.ready none ((s.wing (wingOf gl.e)).slotAddr g.hang.slot) = .ok →
      ∃ u, exec .dumpComplete s = .next u ∧ u.obs.dumping = none ∧ (u.glv gl).hang.dump = 3 ∧ keeps u)
    ∧ (s.isManager m = true → s.hangOpen gl = true →
      (g.hang.bolt = none → ∃ u, exec (.hangResume m gl) s = .next u ∧ (u.glv gl).hang.frozen = false ∧ (u.glv gl).state = 1
        ∧ (u.glv gl).wait = .none ∧ (u.glv gl).pc = g.pc ∧ (g.kind = .tick → (u.eng gl.e).tick.void = true) ∧ keeps u ∧ u.mem = s.mem)
      ∧ (∀ b n us d, g.hang.bolt = some (b, n, us, d) → s.ownsBolt b g.tenant = true →
        let until_ := if us = 0 then none else some (s.now + 1000 * us)
        ∃ u, exec (.hangResume m gl) s = .next u ∧ (u.glv gl).hang.frozen = false ∧ (u.glv gl).state = 2
          ∧ (u.glv gl).wait = .bolt b n until_ s.now d us ∧ (u.bolt b).fifo = (s.bolt b).fifo ++ [⟨.glove gl, n, s.now, until_, 0⟩]
          ∧ (u.glv gl).pc = g.pc ∧ keeps u ∧ u.mem = s.mem)
      ∧ (∀ l, g.kind ≠ .none → g.kind ≠ .tick → g.dying = none →
        s.launchOf g.strm g.cmdIx = some l → l.fault = none → (∀ x ∈ l.insts, x.1 = gl ∨ x.2.2 = true) →
        ∃ u, exec (.hangAbort m gl) s = .next u ∧ (u.glv gl).gfault.extractLsb' 0 8 = 0x15 ∧ (u.glv gl).kind = .none
          ∧ (u.glv gl).hang.frozen = false ∧ u.launchOf g.strm g.cmdIx = none ∧ u.mem = s.mem)
      ∧ (gl = tickGlove gl.e → g.kind = .tick → g.dying = none → (s.eng gl.e).tick.disarm = none →
        ∃ u, exec (.hangAbort m gl) s = .next u ∧ (u.glv gl).gfault.extractLsb' 0 8 = 0x15 ∧ (u.glv gl).state = 5
          ∧ (u.glv gl).hang.frozen = false ∧ (u.eng gl.e).tick.phase = .idle
          ∧ (u.eng gl.e).tick.faults = satAdd (s.eng gl.e).tick.faults 1 ∧ u.mem = s.mem))
    ∧ (∀ (w : WingIx) (mask : Word), s.isManager m = true →
      exec (.cellarSlotFree m w mask) s = .next (s.modWing w fun x => { x with cellarUsed := x.cellarUsed &&& ~~~mask }))

/-! ### Registers -/

/-- REGISTER_WRITE and MGR_EVQ_READ while no access waits (R179, R180, R207, R317, R348): the manager's word reaches the writable bits of its register; a port
without the role is refused and counted; the manager's read takes the oldest event, another master's leaves it. -/
def Obligations.RegistersAreWrittenAndRead : Prop :=
  ∀ (s : State) (m : Writer) (v : Word), s.fabricOn = true → s.acts m = true → s.hall.held = [] →
    (s.isManager m = true → exec (.registerWrite m 0x48000020 v) s
        = .next (s.modHearth fun h => { h with govCtl := (h.govCtl &&& ~~~0x37F) ||| (v &&& 0x37F) })
      ∧ exec (.registerWrite m 0x41000000 v) s
        = .next (s.modTen fun t => { t with schedCtl := (t.schedCtl &&& ~~~0xFFFFFFFFFF) ||| (v &&& 0xFFFFFFFFFF) }))
    ∧ (s.isManager m = false → ∃ u, exec (.registerWrite m 0x48000020 v) s = .next u ∧ u.mem = s.mem
        ∧ u.hearth.govCtl = s.hearth.govCtl
        ∧ u.ten.portViol = vset s.ten.portViol (writerMb m) (s.ten.portViol[(writerMb m).val] + 1))
    ∧ (∀ n : StrmIx, exec (.registerWrite m (0x41100000 + 0x1000 * n.val) v) s = exec (.streamDoorbell m n (v.truncate 32)) s)
    ∧ (∃ u, exec (.mgrEvqRead m) s = .next u ∧ u.out = toBytes 8 ((s.flt.evq.head?).getD 0).toNat
        ∧ u.flt.evq = (if s.isManager m then s.flt.evq.drop 1 else s.flt.evq) ∧ u.mem = s.mem)

/-! ### Rules stated whole -/

/-- `fence` (R87): it issues and holds the glove; while an older tile instruction is in flight its end changes nothing, and while it
waits no instruction of the glove does anything; with none in flight the fabric fence is performed (R29: the combiner lines that hold
writes of the glove are written back) and the glove issues again from the next instruction. -/
def Obligations.FenceHoldsIssue : Prop :=
  ∀ (s : State) (gl : GloveRef),
    (∀ w, s.mayRun gl 0x1C w →
      exec (.fence gl w) s = .next ((s.issue gl).modGlv gl fun g => { g with wait := .fence s.now, state := 2 }))
    ∧ (∀ since, (s.glv gl).wait = .fence since →
      ((s.glv gl).inflight ≠ [] → exec (.fabricFenceComplete (.glove gl)) s = .next s)
      ∧ (∀ i op f, jenliParts i = some (gl, op, f) → exec i s = .next s)
      ∧ ((s.glv gl).inflight = [] → (s.glv gl).state = 2 →
        ∃ u, exec (.fabricFenceComplete (.glove gl)) s = .next u ∧ s.fenceSwept u (· == gloveWho gl)
          ∧ u.glv gl = { s.glv gl with wait := .none, state := 1, pc := (s.glv gl).pc + 8 } ∧ u.mem = s.mem
          ∧ ((s.modGlv gl fun g => { g with wait := .none, state := 1 }).gloveReady gl = true → u.gloveReady gl = true)))

/-- mtime (R245): it reads as TIME divided by 40, so it moves by 25,000,000 in 1,000,000,000 ns and by 1 in a hearth cycle; a write by
any master leaves it, and one that reaches it changes nothing; a read of the time CSR that the hart may make returns it. -/
def Obligations.MtimeFollowsTheTimebase : Prop :=
  ∀ s : State,
    let mtime := (s.regRead 0x4B417FF8).toNat
    mtime = s.hearth.time.toNat / 40
    ∧ (∀ k t, s.hearth.time.toNat + 1000000000 * k = BitVec.toNat t →
      ((s.modHearth fun h => { h with time := t }).regRead 0x4B417FF8).toNat = mtime + 25000000 * k)
    ∧ (s.pending = [] → s.hall.held = [] → s.hearth.por = false → s.hearth.time.toNat + 40 < 2 ^ 64 →
      ∃ t, step s = .next t ∧ (t.regRead 0x4B417FF8).toNat = mtime + 1)
    ∧ (∀ (m : Writer) (v : Word), ∃ u, exec (.registerWrite m 0x4B417FF8 v) s = .next u
      ∧ (u.regRead 0x4B417FF8).toNat = mtime ∧ (s.fabricOn = true → s.reachesPlatform m = true → s.hall.held = [] → u = s))
    ∧ (∀ hx : HartIx, (s.hart hx).counterOn 1 = true → s.csrRead hx 0xC01 = some (s.regRead 0x4B417FF8))

/-- LIMIT of a glove's watchdog (R279): the manager's write reads back as written, whatever it is, and the glove stops in the first
hearth cycle in which IDLE reaches LIMIT, a value outside 50 to 1,000,000 µs taken as the nearer limit: no value turns it off. -/
def Obligations.WatchdogExpiresAtItsLimit : Prop :=
  ∀ (s : State) (gl : GloveRef),
    let reg := 0x44001020 + 0x100000 * gl.e.val + 0x40 * gl.g.val
    (∀ (m : Writer) (v : Word), s.fabricOn = true → s.isManager m = true → s.hall.held = [] → ∃ u, exec (.registerWrite m reg v) s = .next u
      ∧ (u.glv gl).wdogLimit = v.truncate 20 ∧ (u.regRead reg).truncate 20 = v.truncate 20 ∧ u.mem = s.mem)
    ∧ (s.alive = true → s.idleCounts gl = true →
      let l := (s.glv gl).wdogLimit.toNat
      let due := (s.glv gl).progressAt.toNat + 1000 * (if l < 50 then 50 else if 1000000 < l then 1000000 else l)
      s.hearth.time.toNat < due → due + 39 < 2 ^ 64 → (s.glv gl).combiner = [] →
      ∃ u, exec (.watchdogExpiry gl) s = .next u ∧ (u.glv gl).hang.freezing = true
        ∧ due ≤ u.hearth.time.toNat ∧ u.hearth.time.toNat < due + 40)

/-! ### Invariants of every step, and the encoding of instructions -/

/-- Every command is answered with a next state: none faults and none is refused (the model's choice: a command whose conditions do not
hold changes nothing, log 1). -/
def Obligations.EveryCommandAnswersNext : Prop :=
 ∀ (c : Instr) (s : State), Answers (exec c s)

/-- What reset leaves (R292, R311, R315): TIME at 0, no tenant, stream, lease or bolt in use, no instance on any glove, the registers of every
glove 0 (log 4: the spec gives gloves no reset value of their own before a bind), memory with nothing listed, in canonical form. -/
def Obligations.ResetLeavesTheBlockIdle : Prop :=
  let s := State.reset
  s.inv ∧ s.pending = [] ∧ s.hearth.time = 0 ∧ (∀ t, (s.tenant t).isOpen = false) ∧ (∀ n, (s.stream n).isOpen = false)
    ∧ (∀ n, (s.lease n).valid = false) ∧ (∀ b, (s.bolt b).alloc = false ∧ (s.bolt b).count = 0)
    ∧ (∀ gl, (s.glv gl).kind = .none ∧ (s.glv gl).state = 0 ∧ ∀ k, (s.glv gl).sreg k = 0) ∧ ∀ a, cellGet s.mem.cells a = 0

/-- Memory keeps its canonical form in every step, whatever command runs. -/
def Obligations.EveryStepKeepsMemoryCanonical : Prop :=
 ∀ s t : State, s.inv → step s = .next t → t.inv

/-- Decode and encode agree on every well-formed Jenli instruction, with every field at every value (R79, R81): the word of an instruction
decodes to it, and every word is the word of what it decodes to, a reserved opcode included. -/
def Obligations.JenliWordsRoundTrip : Prop :=
  (∀ (i : Instr) (gl : GloveRef) (op : BitVec 8) (f : JFields), i.wellFormed = true → jenliParts i = some (gl, op, f) →
    encodeJenli i = some (packWord op f) ∧ decodeJenli gl (paceOf i) (packWord op f) = i)
  ∧ ∀ (gl : GloveRef) (p : Pace) (w : Word), encodeJenli (decodeJenli gl p w) = some w
end

