-- ==== Sys2Proof/Laws/State.lean ====
section
/-!
SUPPORT. What each update of one unit of the state leaves: one equation per field, and what a unit holds after its own update.
-/
namespace Sys2Proof.Machine

variable (s : State)

/-! ### State.modEng -/

@[simp] theorem modEng_pending (e : EngIx) (f : Engine → Engine) : (s.modEng e f).pending = s.pending := rfl
@[simp] theorem modEng_draws (e : EngIx) (f : Engine → Engine) : (s.modEng e f).draws = s.draws := rfl
@[simp] theorem modEng_out (e : EngIx) (f : Engine → Engine) : (s.modEng e f).out = s.out := rfl
@[simp] theorem modEng_mem (e : EngIx) (f : Engine → Engine) : (s.modEng e f).mem = s.mem := rfl
@[simp] theorem modEng_hall (e : EngIx) (f : Engine → Engine) : (s.modEng e f).hall = s.hall := rfl
@[simp] theorem modEng_wings (e : EngIx) (f : Engine → Engine) : (s.modEng e f).wings = s.wings := rfl
@[simp] theorem modEng_ten (e : EngIx) (f : Engine → Engine) : (s.modEng e f).ten = s.ten := rfl
@[simp] theorem modEng_hearth (e : EngIx) (f : Engine → Engine) : (s.modEng e f).hearth = s.hearth := rfl
@[simp] theorem modEng_obs (e : EngIx) (f : Engine → Engine) : (s.modEng e f).obs = s.obs := rfl
@[simp] theorem modEng_cores (e : EngIx) (f : Engine → Engine) : (s.modEng e f).cores = s.cores := rfl
@[simp] theorem modEng_ports (e : EngIx) (f : Engine → Engine) : (s.modEng e f).ports = s.ports := rfl
@[simp] theorem modEng_flt (e : EngIx) (f : Engine → Engine) : (s.modEng e f).flt = s.flt := rfl

/-! ### State.modGlv -/

@[simp] theorem modGlv_pending (gl : GloveRef) (f : Glove → Glove) : (s.modGlv gl f).pending = s.pending := rfl
@[simp] theorem modGlv_draws (gl : GloveRef) (f : Glove → Glove) : (s.modGlv gl f).draws = s.draws := rfl
@[simp] theorem modGlv_out (gl : GloveRef) (f : Glove → Glove) : (s.modGlv gl f).out = s.out := rfl
@[simp] theorem modGlv_mem (gl : GloveRef) (f : Glove → Glove) : (s.modGlv gl f).mem = s.mem := rfl
@[simp] theorem modGlv_hall (gl : GloveRef) (f : Glove → Glove) : (s.modGlv gl f).hall = s.hall := rfl
@[simp] theorem modGlv_wings (gl : GloveRef) (f : Glove → Glove) : (s.modGlv gl f).wings = s.wings := rfl
@[simp] theorem modGlv_ten (gl : GloveRef) (f : Glove → Glove) : (s.modGlv gl f).ten = s.ten := rfl
@[simp] theorem modGlv_hearth (gl : GloveRef) (f : Glove → Glove) : (s.modGlv gl f).hearth = s.hearth := rfl
@[simp] theorem modGlv_obs (gl : GloveRef) (f : Glove → Glove) : (s.modGlv gl f).obs = s.obs := rfl
@[simp] theorem modGlv_cores (gl : GloveRef) (f : Glove → Glove) : (s.modGlv gl f).cores = s.cores := rfl
@[simp] theorem modGlv_ports (gl : GloveRef) (f : Glove → Glove) : (s.modGlv gl f).ports = s.ports := rfl
@[simp] theorem modGlv_flt (gl : GloveRef) (f : Glove → Glove) : (s.modGlv gl f).flt = s.flt := rfl

/-! ### State.modTick -/

@[simp] theorem modTick_pending (e : EngIx) (f : TickS → TickS) : (s.modTick e f).pending = s.pending := rfl
@[simp] theorem modTick_draws (e : EngIx) (f : TickS → TickS) : (s.modTick e f).draws = s.draws := rfl
@[simp] theorem modTick_out (e : EngIx) (f : TickS → TickS) : (s.modTick e f).out = s.out := rfl
@[simp] theorem modTick_mem (e : EngIx) (f : TickS → TickS) : (s.modTick e f).mem = s.mem := rfl
@[simp] theorem modTick_hall (e : EngIx) (f : TickS → TickS) : (s.modTick e f).hall = s.hall := rfl
@[simp] theorem modTick_wings (e : EngIx) (f : TickS → TickS) : (s.modTick e f).wings = s.wings := rfl
@[simp] theorem modTick_ten (e : EngIx) (f : TickS → TickS) : (s.modTick e f).ten = s.ten := rfl
@[simp] theorem modTick_hearth (e : EngIx) (f : TickS → TickS) : (s.modTick e f).hearth = s.hearth := rfl
@[simp] theorem modTick_obs (e : EngIx) (f : TickS → TickS) : (s.modTick e f).obs = s.obs := rfl
@[simp] theorem modTick_cores (e : EngIx) (f : TickS → TickS) : (s.modTick e f).cores = s.cores := rfl
@[simp] theorem modTick_ports (e : EngIx) (f : TickS → TickS) : (s.modTick e f).ports = s.ports := rfl
@[simp] theorem modTick_flt (e : EngIx) (f : TickS → TickS) : (s.modTick e f).flt = s.flt := rfl

/-! ### State.modWing -/

@[simp] theorem modWing_pending (w : WingIx) (f : Wing → Wing) : (s.modWing w f).pending = s.pending := rfl
@[simp] theorem modWing_draws (w : WingIx) (f : Wing → Wing) : (s.modWing w f).draws = s.draws := rfl
@[simp] theorem modWing_out (w : WingIx) (f : Wing → Wing) : (s.modWing w f).out = s.out := rfl
@[simp] theorem modWing_mem (w : WingIx) (f : Wing → Wing) : (s.modWing w f).mem = s.mem := rfl
@[simp] theorem modWing_hall (w : WingIx) (f : Wing → Wing) : (s.modWing w f).hall = s.hall := rfl
@[simp] theorem modWing_engines (w : WingIx) (f : Wing → Wing) : (s.modWing w f).engines = s.engines := rfl
@[simp] theorem modWing_ten (w : WingIx) (f : Wing → Wing) : (s.modWing w f).ten = s.ten := rfl
@[simp] theorem modWing_hearth (w : WingIx) (f : Wing → Wing) : (s.modWing w f).hearth = s.hearth := rfl
@[simp] theorem modWing_obs (w : WingIx) (f : Wing → Wing) : (s.modWing w f).obs = s.obs := rfl
@[simp] theorem modWing_cores (w : WingIx) (f : Wing → Wing) : (s.modWing w f).cores = s.cores := rfl
@[simp] theorem modWing_ports (w : WingIx) (f : Wing → Wing) : (s.modWing w f).ports = s.ports := rfl
@[simp] theorem modWing_flt (w : WingIx) (f : Wing → Wing) : (s.modWing w f).flt = s.flt := rfl

/-! ### State.modPort -/

@[simp] theorem modPort_pending (p : PortIx) (f : HostPort → HostPort) : (s.modPort p f).pending = s.pending := rfl
@[simp] theorem modPort_draws (p : PortIx) (f : HostPort → HostPort) : (s.modPort p f).draws = s.draws := rfl
@[simp] theorem modPort_out (p : PortIx) (f : HostPort → HostPort) : (s.modPort p f).out = s.out := rfl
@[simp] theorem modPort_mem (p : PortIx) (f : HostPort → HostPort) : (s.modPort p f).mem = s.mem := rfl
@[simp] theorem modPort_hall (p : PortIx) (f : HostPort → HostPort) : (s.modPort p f).hall = s.hall := rfl
@[simp] theorem modPort_wings (p : PortIx) (f : HostPort → HostPort) : (s.modPort p f).wings = s.wings := rfl
@[simp] theorem modPort_engines (p : PortIx) (f : HostPort → HostPort) : (s.modPort p f).engines = s.engines := rfl
@[simp] theorem modPort_ten (p : PortIx) (f : HostPort → HostPort) : (s.modPort p f).ten = s.ten := rfl
@[simp] theorem modPort_hearth (p : PortIx) (f : HostPort → HostPort) : (s.modPort p f).hearth = s.hearth := rfl
@[simp] theorem modPort_obs (p : PortIx) (f : HostPort → HostPort) : (s.modPort p f).obs = s.obs := rfl
@[simp] theorem modPort_cores (p : PortIx) (f : HostPort → HostPort) : (s.modPort p f).cores = s.cores := rfl
@[simp] theorem modPort_flt (p : PortIx) (f : HostPort → HostPort) : (s.modPort p f).flt = s.flt := rfl

/-! ### State.modTen -/

@[simp] theorem modTen_pending (f : Tenancy → Tenancy) : (s.modTen f).pending = s.pending := rfl
@[simp] theorem modTen_draws (f : Tenancy → Tenancy) : (s.modTen f).draws = s.draws := rfl
@[simp] theorem modTen_out (f : Tenancy → Tenancy) : (s.modTen f).out = s.out := rfl
@[simp] theorem modTen_mem (f : Tenancy → Tenancy) : (s.modTen f).mem = s.mem := rfl
@[simp] theorem modTen_hall (f : Tenancy → Tenancy) : (s.modTen f).hall = s.hall := rfl
@[simp] theorem modTen_wings (f : Tenancy → Tenancy) : (s.modTen f).wings = s.wings := rfl
@[simp] theorem modTen_engines (f : Tenancy → Tenancy) : (s.modTen f).engines = s.engines := rfl
@[simp] theorem modTen_hearth (f : Tenancy → Tenancy) : (s.modTen f).hearth = s.hearth := rfl
@[simp] theorem modTen_obs (f : Tenancy → Tenancy) : (s.modTen f).obs = s.obs := rfl
@[simp] theorem modTen_cores (f : Tenancy → Tenancy) : (s.modTen f).cores = s.cores := rfl
@[simp] theorem modTen_ports (f : Tenancy → Tenancy) : (s.modTen f).ports = s.ports := rfl
@[simp] theorem modTen_flt (f : Tenancy → Tenancy) : (s.modTen f).flt = s.flt := rfl

/-! ### State.modTenant -/

@[simp] theorem modTenant_pending (t : TenIx) (f : Tenant → Tenant) : (s.modTenant t f).pending = s.pending := rfl
@[simp] theorem modTenant_draws (t : TenIx) (f : Tenant → Tenant) : (s.modTenant t f).draws = s.draws := rfl
@[simp] theorem modTenant_out (t : TenIx) (f : Tenant → Tenant) : (s.modTenant t f).out = s.out := rfl
@[simp] theorem modTenant_mem (t : TenIx) (f : Tenant → Tenant) : (s.modTenant t f).mem = s.mem := rfl
@[simp] theorem modTenant_hall (t : TenIx) (f : Tenant → Tenant) : (s.modTenant t f).hall = s.hall := rfl
@[simp] theorem modTenant_wings (t : TenIx) (f : Tenant → Tenant) : (s.modTenant t f).wings = s.wings := rfl
@[simp] theorem modTenant_engines (t : TenIx) (f : Tenant → Tenant) : (s.modTenant t f).engines = s.engines := rfl
@[simp] theorem modTenant_hearth (t : TenIx) (f : Tenant → Tenant) : (s.modTenant t f).hearth = s.hearth := rfl
@[simp] theorem modTenant_obs (t : TenIx) (f : Tenant → Tenant) : (s.modTenant t f).obs = s.obs := rfl
@[simp] theorem modTenant_cores (t : TenIx) (f : Tenant → Tenant) : (s.modTenant t f).cores = s.cores := rfl
@[simp] theorem modTenant_ports (t : TenIx) (f : Tenant → Tenant) : (s.modTenant t f).ports = s.ports := rfl
@[simp] theorem modTenant_flt (t : TenIx) (f : Tenant → Tenant) : (s.modTenant t f).flt = s.flt := rfl

/-! ### State.modStream -/

@[simp] theorem modStream_pending (n : StrmIx) (f : Stream → Stream) : (s.modStream n f).pending = s.pending := rfl
@[simp] theorem modStream_draws (n : StrmIx) (f : Stream → Stream) : (s.modStream n f).draws = s.draws := rfl
@[simp] theorem modStream_out (n : StrmIx) (f : Stream → Stream) : (s.modStream n f).out = s.out := rfl
@[simp] theorem modStream_mem (n : StrmIx) (f : Stream → Stream) : (s.modStream n f).mem = s.mem := rfl
@[simp] theorem modStream_hall (n : StrmIx) (f : Stream → Stream) : (s.modStream n f).hall = s.hall := rfl
@[simp] theorem modStream_wings (n : StrmIx) (f : Stream → Stream) : (s.modStream n f).wings = s.wings := rfl
@[simp] theorem modStream_engines (n : StrmIx) (f : Stream → Stream) : (s.modStream n f).engines = s.engines := rfl
@[simp] theorem modStream_hearth (n : StrmIx) (f : Stream → Stream) : (s.modStream n f).hearth = s.hearth := rfl
@[simp] theorem modStream_obs (n : StrmIx) (f : Stream → Stream) : (s.modStream n f).obs = s.obs := rfl
@[simp] theorem modStream_cores (n : StrmIx) (f : Stream → Stream) : (s.modStream n f).cores = s.cores := rfl
@[simp] theorem modStream_ports (n : StrmIx) (f : Stream → Stream) : (s.modStream n f).ports = s.ports := rfl
@[simp] theorem modStream_flt (n : StrmIx) (f : Stream → Stream) : (s.modStream n f).flt = s.flt := rfl

/-! ### State.modLease -/

@[simp] theorem modLease_pending (n : LeaseIx) (f : Lease → Lease) : (s.modLease n f).pending = s.pending := rfl
@[simp] theorem modLease_draws (n : LeaseIx) (f : Lease → Lease) : (s.modLease n f).draws = s.draws := rfl
@[simp] theorem modLease_out (n : LeaseIx) (f : Lease → Lease) : (s.modLease n f).out = s.out := rfl
@[simp] theorem modLease_mem (n : LeaseIx) (f : Lease → Lease) : (s.modLease n f).mem = s.mem := rfl
@[simp] theorem modLease_hall (n : LeaseIx) (f : Lease → Lease) : (s.modLease n f).hall = s.hall := rfl
@[simp] theorem modLease_wings (n : LeaseIx) (f : Lease → Lease) : (s.modLease n f).wings = s.wings := rfl
@[simp] theorem modLease_engines (n : LeaseIx) (f : Lease → Lease) : (s.modLease n f).engines = s.engines := rfl
@[simp] theorem modLease_hearth (n : LeaseIx) (f : Lease → Lease) : (s.modLease n f).hearth = s.hearth := rfl
@[simp] theorem modLease_obs (n : LeaseIx) (f : Lease → Lease) : (s.modLease n f).obs = s.obs := rfl
@[simp] theorem modLease_cores (n : LeaseIx) (f : Lease → Lease) : (s.modLease n f).cores = s.cores := rfl
@[simp] theorem modLease_ports (n : LeaseIx) (f : Lease → Lease) : (s.modLease n f).ports = s.ports := rfl
@[simp] theorem modLease_flt (n : LeaseIx) (f : Lease → Lease) : (s.modLease n f).flt = s.flt := rfl

/-! ### State.modBolt -/

@[simp] theorem modBolt_pending (b : BoltIx) (f : Bolt → Bolt) : (s.modBolt b f).pending = s.pending := rfl
@[simp] theorem modBolt_draws (b : BoltIx) (f : Bolt → Bolt) : (s.modBolt b f).draws = s.draws := rfl
@[simp] theorem modBolt_out (b : BoltIx) (f : Bolt → Bolt) : (s.modBolt b f).out = s.out := rfl
@[simp] theorem modBolt_mem (b : BoltIx) (f : Bolt → Bolt) : (s.modBolt b f).mem = s.mem := rfl
@[simp] theorem modBolt_hall (b : BoltIx) (f : Bolt → Bolt) : (s.modBolt b f).hall = s.hall := rfl
@[simp] theorem modBolt_wings (b : BoltIx) (f : Bolt → Bolt) : (s.modBolt b f).wings = s.wings := rfl
@[simp] theorem modBolt_engines (b : BoltIx) (f : Bolt → Bolt) : (s.modBolt b f).engines = s.engines := rfl
@[simp] theorem modBolt_hearth (b : BoltIx) (f : Bolt → Bolt) : (s.modBolt b f).hearth = s.hearth := rfl
@[simp] theorem modBolt_obs (b : BoltIx) (f : Bolt → Bolt) : (s.modBolt b f).obs = s.obs := rfl
@[simp] theorem modBolt_cores (b : BoltIx) (f : Bolt → Bolt) : (s.modBolt b f).cores = s.cores := rfl
@[simp] theorem modBolt_ports (b : BoltIx) (f : Bolt → Bolt) : (s.modBolt b f).ports = s.ports := rfl
@[simp] theorem modBolt_flt (b : BoltIx) (f : Bolt → Bolt) : (s.modBolt b f).flt = s.flt := rfl

/-! ### State.modMb -/

@[simp] theorem modMb_pending (m : MbIx) (f : Mailbox → Mailbox) : (s.modMb m f).pending = s.pending := rfl
@[simp] theorem modMb_draws (m : MbIx) (f : Mailbox → Mailbox) : (s.modMb m f).draws = s.draws := rfl
@[simp] theorem modMb_out (m : MbIx) (f : Mailbox → Mailbox) : (s.modMb m f).out = s.out := rfl
@[simp] theorem modMb_mem (m : MbIx) (f : Mailbox → Mailbox) : (s.modMb m f).mem = s.mem := rfl
@[simp] theorem modMb_hall (m : MbIx) (f : Mailbox → Mailbox) : (s.modMb m f).hall = s.hall := rfl
@[simp] theorem modMb_wings (m : MbIx) (f : Mailbox → Mailbox) : (s.modMb m f).wings = s.wings := rfl
@[simp] theorem modMb_engines (m : MbIx) (f : Mailbox → Mailbox) : (s.modMb m f).engines = s.engines := rfl
@[simp] theorem modMb_hearth (m : MbIx) (f : Mailbox → Mailbox) : (s.modMb m f).hearth = s.hearth := rfl
@[simp] theorem modMb_obs (m : MbIx) (f : Mailbox → Mailbox) : (s.modMb m f).obs = s.obs := rfl
@[simp] theorem modMb_cores (m : MbIx) (f : Mailbox → Mailbox) : (s.modMb m f).cores = s.cores := rfl
@[simp] theorem modMb_ports (m : MbIx) (f : Mailbox → Mailbox) : (s.modMb m f).ports = s.ports := rfl
@[simp] theorem modMb_flt (m : MbIx) (f : Mailbox → Mailbox) : (s.modMb m f).flt = s.flt := rfl

/-! ### State.modHearth -/

@[simp] theorem modHearth_pending (f : Hearth → Hearth) : (s.modHearth f).pending = s.pending := rfl
@[simp] theorem modHearth_draws (f : Hearth → Hearth) : (s.modHearth f).draws = s.draws := rfl
@[simp] theorem modHearth_out (f : Hearth → Hearth) : (s.modHearth f).out = s.out := rfl
@[simp] theorem modHearth_mem (f : Hearth → Hearth) : (s.modHearth f).mem = s.mem := rfl
@[simp] theorem modHearth_hall (f : Hearth → Hearth) : (s.modHearth f).hall = s.hall := rfl
@[simp] theorem modHearth_wings (f : Hearth → Hearth) : (s.modHearth f).wings = s.wings := rfl
@[simp] theorem modHearth_engines (f : Hearth → Hearth) : (s.modHearth f).engines = s.engines := rfl
@[simp] theorem modHearth_ten (f : Hearth → Hearth) : (s.modHearth f).ten = s.ten := rfl
@[simp] theorem modHearth_obs (f : Hearth → Hearth) : (s.modHearth f).obs = s.obs := rfl
@[simp] theorem modHearth_cores (f : Hearth → Hearth) : (s.modHearth f).cores = s.cores := rfl
@[simp] theorem modHearth_ports (f : Hearth → Hearth) : (s.modHearth f).ports = s.ports := rfl
@[simp] theorem modHearth_flt (f : Hearth → Hearth) : (s.modHearth f).flt = s.flt := rfl

/-! ### State.modPin -/

@[simp] theorem modPin_pending (n : Fin 4) (f : TPin → TPin) : (s.modPin n f).pending = s.pending := rfl
@[simp] theorem modPin_draws (n : Fin 4) (f : TPin → TPin) : (s.modPin n f).draws = s.draws := rfl
@[simp] theorem modPin_out (n : Fin 4) (f : TPin → TPin) : (s.modPin n f).out = s.out := rfl
@[simp] theorem modPin_mem (n : Fin 4) (f : TPin → TPin) : (s.modPin n f).mem = s.mem := rfl
@[simp] theorem modPin_hall (n : Fin 4) (f : TPin → TPin) : (s.modPin n f).hall = s.hall := rfl
@[simp] theorem modPin_wings (n : Fin 4) (f : TPin → TPin) : (s.modPin n f).wings = s.wings := rfl
@[simp] theorem modPin_engines (n : Fin 4) (f : TPin → TPin) : (s.modPin n f).engines = s.engines := rfl
@[simp] theorem modPin_ten (n : Fin 4) (f : TPin → TPin) : (s.modPin n f).ten = s.ten := rfl
@[simp] theorem modPin_obs (n : Fin 4) (f : TPin → TPin) : (s.modPin n f).obs = s.obs := rfl
@[simp] theorem modPin_cores (n : Fin 4) (f : TPin → TPin) : (s.modPin n f).cores = s.cores := rfl
@[simp] theorem modPin_ports (n : Fin 4) (f : TPin → TPin) : (s.modPin n f).ports = s.ports := rfl
@[simp] theorem modPin_flt (n : Fin 4) (f : TPin → TPin) : (s.modPin n f).flt = s.flt := rfl

/-! ### State.modHall -/

@[simp] theorem modHall_pending (f : Hall → Hall) : (s.modHall f).pending = s.pending := rfl
@[simp] theorem modHall_draws (f : Hall → Hall) : (s.modHall f).draws = s.draws := rfl
@[simp] theorem modHall_out (f : Hall → Hall) : (s.modHall f).out = s.out := rfl
@[simp] theorem modHall_mem (f : Hall → Hall) : (s.modHall f).mem = s.mem := rfl
@[simp] theorem modHall_wings (f : Hall → Hall) : (s.modHall f).wings = s.wings := rfl
@[simp] theorem modHall_engines (f : Hall → Hall) : (s.modHall f).engines = s.engines := rfl
@[simp] theorem modHall_ten (f : Hall → Hall) : (s.modHall f).ten = s.ten := rfl
@[simp] theorem modHall_hearth (f : Hall → Hall) : (s.modHall f).hearth = s.hearth := rfl
@[simp] theorem modHall_obs (f : Hall → Hall) : (s.modHall f).obs = s.obs := rfl
@[simp] theorem modHall_cores (f : Hall → Hall) : (s.modHall f).cores = s.cores := rfl
@[simp] theorem modHall_ports (f : Hall → Hall) : (s.modHall f).ports = s.ports := rfl
@[simp] theorem modHall_flt (f : Hall → Hall) : (s.modHall f).flt = s.flt := rfl

/-! ### State.modObs -/

@[simp] theorem modObs_pending (f : Obs → Obs) : (s.modObs f).pending = s.pending := rfl
@[simp] theorem modObs_draws (f : Obs → Obs) : (s.modObs f).draws = s.draws := rfl
@[simp] theorem modObs_out (f : Obs → Obs) : (s.modObs f).out = s.out := rfl
@[simp] theorem modObs_mem (f : Obs → Obs) : (s.modObs f).mem = s.mem := rfl
@[simp] theorem modObs_hall (f : Obs → Obs) : (s.modObs f).hall = s.hall := rfl
@[simp] theorem modObs_wings (f : Obs → Obs) : (s.modObs f).wings = s.wings := rfl
@[simp] theorem modObs_engines (f : Obs → Obs) : (s.modObs f).engines = s.engines := rfl
@[simp] theorem modObs_ten (f : Obs → Obs) : (s.modObs f).ten = s.ten := rfl
@[simp] theorem modObs_hearth (f : Obs → Obs) : (s.modObs f).hearth = s.hearth := rfl
@[simp] theorem modObs_cores (f : Obs → Obs) : (s.modObs f).cores = s.cores := rfl
@[simp] theorem modObs_ports (f : Obs → Obs) : (s.modObs f).ports = s.ports := rfl
@[simp] theorem modObs_flt (f : Obs → Obs) : (s.modObs f).flt = s.flt := rfl

/-! ### State.modCores -/

@[simp] theorem modCores_pending (f : Cores → Cores) : (s.modCores f).pending = s.pending := rfl
@[simp] theorem modCores_draws (f : Cores → Cores) : (s.modCores f).draws = s.draws := rfl
@[simp] theorem modCores_out (f : Cores → Cores) : (s.modCores f).out = s.out := rfl
@[simp] theorem modCores_mem (f : Cores → Cores) : (s.modCores f).mem = s.mem := rfl
@[simp] theorem modCores_hall (f : Cores → Cores) : (s.modCores f).hall = s.hall := rfl
@[simp] theorem modCores_wings (f : Cores → Cores) : (s.modCores f).wings = s.wings := rfl
@[simp] theorem modCores_engines (f : Cores → Cores) : (s.modCores f).engines = s.engines := rfl
@[simp] theorem modCores_ten (f : Cores → Cores) : (s.modCores f).ten = s.ten := rfl
@[simp] theorem modCores_hearth (f : Cores → Cores) : (s.modCores f).hearth = s.hearth := rfl
@[simp] theorem modCores_obs (f : Cores → Cores) : (s.modCores f).obs = s.obs := rfl
@[simp] theorem modCores_ports (f : Cores → Cores) : (s.modCores f).ports = s.ports := rfl
@[simp] theorem modCores_flt (f : Cores → Cores) : (s.modCores f).flt = s.flt := rfl

/-! ### State.modHart -/

@[simp] theorem modHart_pending (h : HartIx) (f : Hart → Hart) : (s.modHart h f).pending = s.pending := rfl
@[simp] theorem modHart_draws (h : HartIx) (f : Hart → Hart) : (s.modHart h f).draws = s.draws := rfl
@[simp] theorem modHart_out (h : HartIx) (f : Hart → Hart) : (s.modHart h f).out = s.out := rfl
@[simp] theorem modHart_mem (h : HartIx) (f : Hart → Hart) : (s.modHart h f).mem = s.mem := rfl
@[simp] theorem modHart_hall (h : HartIx) (f : Hart → Hart) : (s.modHart h f).hall = s.hall := rfl
@[simp] theorem modHart_wings (h : HartIx) (f : Hart → Hart) : (s.modHart h f).wings = s.wings := rfl
@[simp] theorem modHart_engines (h : HartIx) (f : Hart → Hart) : (s.modHart h f).engines = s.engines := rfl
@[simp] theorem modHart_ten (h : HartIx) (f : Hart → Hart) : (s.modHart h f).ten = s.ten := rfl
@[simp] theorem modHart_hearth (h : HartIx) (f : Hart → Hart) : (s.modHart h f).hearth = s.hearth := rfl
@[simp] theorem modHart_obs (h : HartIx) (f : Hart → Hart) : (s.modHart h f).obs = s.obs := rfl
@[simp] theorem modHart_ports (h : HartIx) (f : Hart → Hart) : (s.modHart h f).ports = s.ports := rfl
@[simp] theorem modHart_flt (h : HartIx) (f : Hart → Hart) : (s.modHart h f).flt = s.flt := rfl

/-! ### State.modFlt -/

@[simp] theorem modFlt_pending (f : FaultS → FaultS) : (s.modFlt f).pending = s.pending := rfl
@[simp] theorem modFlt_draws (f : FaultS → FaultS) : (s.modFlt f).draws = s.draws := rfl
@[simp] theorem modFlt_out (f : FaultS → FaultS) : (s.modFlt f).out = s.out := rfl
@[simp] theorem modFlt_mem (f : FaultS → FaultS) : (s.modFlt f).mem = s.mem := rfl
@[simp] theorem modFlt_hall (f : FaultS → FaultS) : (s.modFlt f).hall = s.hall := rfl
@[simp] theorem modFlt_wings (f : FaultS → FaultS) : (s.modFlt f).wings = s.wings := rfl
@[simp] theorem modFlt_engines (f : FaultS → FaultS) : (s.modFlt f).engines = s.engines := rfl
@[simp] theorem modFlt_ten (f : FaultS → FaultS) : (s.modFlt f).ten = s.ten := rfl
@[simp] theorem modFlt_hearth (f : FaultS → FaultS) : (s.modFlt f).hearth = s.hearth := rfl
@[simp] theorem modFlt_obs (f : FaultS → FaultS) : (s.modFlt f).obs = s.obs := rfl
@[simp] theorem modFlt_cores (f : FaultS → FaultS) : (s.modFlt f).cores = s.cores := rfl
@[simp] theorem modFlt_ports (f : FaultS → FaultS) : (s.modFlt f).ports = s.ports := rfl

/-! ### A unit after its own update -/

/-- An element of a vector after its own update. -/
@[simp] theorem vmod_get {α : Type} {n : Nat} (v : Vector α n) (i : Fin n) (f : α → α) : (vmod v i f)[i.val] = f v[i.val] := by
  simp [vmod]

/-- Another element of a vector is unchanged. -/
theorem vmod_get_ne {α : Type} {n : Nat} (v : Vector α n) (i j : Fin n) (f : α → α) (h : j ≠ i) :
    (vmod v i f)[j.val] = v[j.val] := by
  have : i.val ≠ j.val := fun e => h (Fin.ext e.symm)
  simp [vmod, this]

@[simp] theorem vset_get {α : Type} {n : Nat} (v : Vector α n) (i : Fin n) (x : α) : (vset v i x)[i.val] = x := by
  simp [vset]

theorem vset_get_ne {α : Type} {n : Nat} (v : Vector α n) (i j : Fin n) (x : α) (h : j ≠ i) : (vset v i x)[j.val] = v[j.val] := by
  have : i.val ≠ j.val := fun e => h (Fin.ext e.symm)
  simp [vset, this]

@[simp] theorem modEng_eng (e : EngIx) (f : Engine → Engine) : (s.modEng e f).eng e = f (s.eng e) := vmod_get _ _ _
theorem modEng_eng_ne (e x : EngIx) (f : Engine → Engine) (h : x ≠ e) : (s.modEng e f).eng x = s.eng x := vmod_get_ne _ _ _ _ h
@[simp] theorem modGlv_glv (gl : GloveRef) (f : Glove → Glove) : (s.modGlv gl f).glv gl = f (s.glv gl) := by
  simp [State.modGlv, State.glv]

/-- Another glove is unchanged. -/
theorem modGlv_glv_ne (gl x : GloveRef) (f : Glove → Glove) (h : x ≠ gl) : (s.modGlv gl f).glv x = s.glv x := by
  by_cases he : x.e = gl.e
  · have hg : x.g ≠ gl.g := fun hg => h (by cases x; cases gl; simp_all)
    simp [State.modGlv, State.glv, he, vmod_get_ne _ _ _ _ hg]
  · simp [State.modGlv, State.glv, modEng_eng_ne _ _ _ _ he]

@[simp] theorem modWing_wing (w : WingIx) (f : Wing → Wing) : (s.modWing w f).wing w = f (s.wing w) := vmod_get _ _ _
theorem modWing_wing_ne (w x : WingIx) (f : Wing → Wing) (h : x ≠ w) : (s.modWing w f).wing x = s.wing x := vmod_get_ne _ _ _ _ h
@[simp] theorem modPort_port (p : PortIx) (f : HostPort → HostPort) : (s.modPort p f).port p = f (s.port p) := vmod_get _ _ _
theorem modPort_port_ne (p x : PortIx) (f : HostPort → HostPort) (h : x ≠ p) : (s.modPort p f).port x = s.port x := vmod_get_ne _ _ _ _ h
@[simp] theorem modTenant_tenant (t : TenIx) (f : Tenant → Tenant) : (s.modTenant t f).tenant t = f (s.tenant t) := vmod_get _ _ _
theorem modTenant_tenant_ne (t x : TenIx) (f : Tenant → Tenant) (h : x ≠ t) : (s.modTenant t f).tenant x = s.tenant x :=
  vmod_get_ne _ _ _ _ h
@[simp] theorem modStream_stream (n : StrmIx) (f : Stream → Stream) : (s.modStream n f).stream n = f (s.stream n) := vmod_get _ _ _
theorem modStream_stream_ne (n x : StrmIx) (f : Stream → Stream) (h : x ≠ n) : (s.modStream n f).stream x = s.stream x :=
  vmod_get_ne _ _ _ _ h
@[simp] theorem modLease_lease (n : LeaseIx) (f : Lease → Lease) : (s.modLease n f).lease n = f (s.lease n) := vmod_get _ _ _
theorem modLease_lease_ne (n x : LeaseIx) (f : Lease → Lease) (h : x ≠ n) : (s.modLease n f).lease x = s.lease x := vmod_get_ne _ _ _ _ h
@[simp] theorem modBolt_bolt (b : BoltIx) (f : Bolt → Bolt) : (s.modBolt b f).bolt b = f (s.bolt b) := vmod_get _ _ _
theorem modBolt_bolt_ne (b x : BoltIx) (f : Bolt → Bolt) (h : x ≠ b) : (s.modBolt b f).bolt x = s.bolt x := vmod_get_ne _ _ _ _ h
@[simp] theorem modMb_mbox (m : MbIx) (f : Mailbox → Mailbox) : (s.modMb m f).mbox m = f (s.mbox m) := vmod_get _ _ _
theorem modMb_mbox_ne (m x : MbIx) (f : Mailbox → Mailbox) (h : x ≠ m) : (s.modMb m f).mbox x = s.mbox x := vmod_get_ne _ _ _ _ h
@[simp] theorem modHart_hart (h : HartIx) (f : Hart → Hart) : (s.modHart h f).hart h = f (s.hart h) := vmod_get _ _ _
theorem modHart_hart_ne (h x : HartIx) (f : Hart → Hart) (k : x ≠ h) : (s.modHart h f).hart x = s.hart x := vmod_get_ne _ _ _ _ k
@[simp] theorem modTick_tick (e : EngIx) (f : TickS → TickS) : ((s.modTick e f).eng e).tick = f (s.eng e).tick := by
  simp [State.modTick]

end Sys2Proof.Machine
end

