-- ==== Sys2Proof/Laws/Ops.lean ====
section
/-!
SUPPORT. The frame of each shared operation: the fields of the state that it leaves as they are.
-/
set_option Elab.async false
namespace Sys2Proof.Machine

variable (s : State)

/-! ### State.engCnt -/

@[simp] theorem engCnt_pending (e : EngIx) (i : Fin 21) (k : Nat) : (s.engCnt e i k).pending = s.pending := by unfold State.engCnt; first | rfl | (split <;> rfl)
@[simp] theorem engCnt_draws (e : EngIx) (i : Fin 21) (k : Nat) : (s.engCnt e i k).draws = s.draws := by unfold State.engCnt; first | rfl | (split <;> rfl)
@[simp] theorem engCnt_out (e : EngIx) (i : Fin 21) (k : Nat) : (s.engCnt e i k).out = s.out := by unfold State.engCnt; first | rfl | (split <;> rfl)
@[simp] theorem engCnt_mem (e : EngIx) (i : Fin 21) (k : Nat) : (s.engCnt e i k).mem = s.mem := by unfold State.engCnt; first | rfl | (split <;> rfl)
@[simp] theorem engCnt_hall (e : EngIx) (i : Fin 21) (k : Nat) : (s.engCnt e i k).hall = s.hall := by unfold State.engCnt; first | rfl | (split <;> rfl)
@[simp] theorem engCnt_wings (e : EngIx) (i : Fin 21) (k : Nat) : (s.engCnt e i k).wings = s.wings := by unfold State.engCnt; first | rfl | (split <;> rfl)
@[simp] theorem engCnt_ten (e : EngIx) (i : Fin 21) (k : Nat) : (s.engCnt e i k).ten = s.ten := by unfold State.engCnt; first | rfl | (split <;> rfl)
@[simp] theorem engCnt_hearth (e : EngIx) (i : Fin 21) (k : Nat) : (s.engCnt e i k).hearth = s.hearth := by unfold State.engCnt; first | rfl | (split <;> rfl)
@[simp] theorem engCnt_obs (e : EngIx) (i : Fin 21) (k : Nat) : (s.engCnt e i k).obs = s.obs := by unfold State.engCnt; first | rfl | (split <;> rfl)
@[simp] theorem engCnt_cores (e : EngIx) (i : Fin 21) (k : Nat) : (s.engCnt e i k).cores = s.cores := by unfold State.engCnt; first | rfl | (split <;> rfl)
@[simp] theorem engCnt_ports (e : EngIx) (i : Fin 21) (k : Nat) : (s.engCnt e i k).ports = s.ports := by unfold State.engCnt; first | rfl | (split <;> rfl)
@[simp] theorem engCnt_flt (e : EngIx) (i : Fin 21) (k : Nat) : (s.engCnt e i k).flt = s.flt := by unfold State.engCnt; first | rfl | (split <;> rfl)

/-! ### State.wingCnt -/

@[simp] theorem wingCnt_pending (w : WingIx) (i : Fin 12) (k : Nat) : (s.wingCnt w i k).pending = s.pending := by unfold State.wingCnt; first | rfl | (split <;> rfl)
@[simp] theorem wingCnt_draws (w : WingIx) (i : Fin 12) (k : Nat) : (s.wingCnt w i k).draws = s.draws := by unfold State.wingCnt; first | rfl | (split <;> rfl)
@[simp] theorem wingCnt_out (w : WingIx) (i : Fin 12) (k : Nat) : (s.wingCnt w i k).out = s.out := by unfold State.wingCnt; first | rfl | (split <;> rfl)
@[simp] theorem wingCnt_mem (w : WingIx) (i : Fin 12) (k : Nat) : (s.wingCnt w i k).mem = s.mem := by unfold State.wingCnt; first | rfl | (split <;> rfl)
@[simp] theorem wingCnt_hall (w : WingIx) (i : Fin 12) (k : Nat) : (s.wingCnt w i k).hall = s.hall := by unfold State.wingCnt; first | rfl | (split <;> rfl)
@[simp] theorem wingCnt_engines (w : WingIx) (i : Fin 12) (k : Nat) : (s.wingCnt w i k).engines = s.engines := by unfold State.wingCnt; first | rfl | (split <;> rfl)
@[simp] theorem wingCnt_ten (w : WingIx) (i : Fin 12) (k : Nat) : (s.wingCnt w i k).ten = s.ten := by unfold State.wingCnt; first | rfl | (split <;> rfl)
@[simp] theorem wingCnt_hearth (w : WingIx) (i : Fin 12) (k : Nat) : (s.wingCnt w i k).hearth = s.hearth := by unfold State.wingCnt; first | rfl | (split <;> rfl)
@[simp] theorem wingCnt_obs (w : WingIx) (i : Fin 12) (k : Nat) : (s.wingCnt w i k).obs = s.obs := by unfold State.wingCnt; first | rfl | (split <;> rfl)
@[simp] theorem wingCnt_cores (w : WingIx) (i : Fin 12) (k : Nat) : (s.wingCnt w i k).cores = s.cores := by unfold State.wingCnt; first | rfl | (split <;> rfl)
@[simp] theorem wingCnt_ports (w : WingIx) (i : Fin 12) (k : Nat) : (s.wingCnt w i k).ports = s.ports := by unfold State.wingCnt; first | rfl | (split <;> rfl)
@[simp] theorem wingCnt_flt (w : WingIx) (i : Fin 12) (k : Nat) : (s.wingCnt w i k).flt = s.flt := by unfold State.wingCnt; first | rfl | (split <;> rfl)

/-! ### State.hallCnt -/

@[simp] theorem hallCnt_pending (i : Fin 7) (k : Nat) : (s.hallCnt i k).pending = s.pending := by unfold State.hallCnt; first | rfl | (split <;> rfl)
@[simp] theorem hallCnt_draws (i : Fin 7) (k : Nat) : (s.hallCnt i k).draws = s.draws := by unfold State.hallCnt; first | rfl | (split <;> rfl)
@[simp] theorem hallCnt_out (i : Fin 7) (k : Nat) : (s.hallCnt i k).out = s.out := by unfold State.hallCnt; first | rfl | (split <;> rfl)
@[simp] theorem hallCnt_mem (i : Fin 7) (k : Nat) : (s.hallCnt i k).mem = s.mem := by unfold State.hallCnt; first | rfl | (split <;> rfl)
@[simp] theorem hallCnt_hall (i : Fin 7) (k : Nat) : (s.hallCnt i k).hall = s.hall := by unfold State.hallCnt; first | rfl | (split <;> rfl)
@[simp] theorem hallCnt_wings (i : Fin 7) (k : Nat) : (s.hallCnt i k).wings = s.wings := by unfold State.hallCnt; first | rfl | (split <;> rfl)
@[simp] theorem hallCnt_engines (i : Fin 7) (k : Nat) : (s.hallCnt i k).engines = s.engines := by unfold State.hallCnt; first | rfl | (split <;> rfl)
@[simp] theorem hallCnt_ten (i : Fin 7) (k : Nat) : (s.hallCnt i k).ten = s.ten := by unfold State.hallCnt; first | rfl | (split <;> rfl)
@[simp] theorem hallCnt_hearth (i : Fin 7) (k : Nat) : (s.hallCnt i k).hearth = s.hearth := by unfold State.hallCnt; first | rfl | (split <;> rfl)
@[simp] theorem hallCnt_cores (i : Fin 7) (k : Nat) : (s.hallCnt i k).cores = s.cores := by unfold State.hallCnt; first | rfl | (split <;> rfl)
@[simp] theorem hallCnt_ports (i : Fin 7) (k : Nat) : (s.hallCnt i k).ports = s.ports := by unfold State.hallCnt; first | rfl | (split <;> rfl)
@[simp] theorem hallCnt_flt (i : Fin 7) (k : Nat) : (s.hallCnt i k).flt = s.flt := by unfold State.hallCnt; first | rfl | (split <;> rfl)

/-! ### State.setAttic -/

@[simp] theorem setAttic_pending (c : Fin 17) (l : List (BitVec 128)) : (s.setAttic c l).pending = s.pending := by unfold State.setAttic; first | rfl | (split <;> rfl)
@[simp] theorem setAttic_draws (c : Fin 17) (l : List (BitVec 128)) : (s.setAttic c l).draws = s.draws := by unfold State.setAttic; first | rfl | (split <;> rfl)
@[simp] theorem setAttic_out (c : Fin 17) (l : List (BitVec 128)) : (s.setAttic c l).out = s.out := by unfold State.setAttic; first | rfl | (split <;> rfl)
@[simp] theorem setAttic_mem (c : Fin 17) (l : List (BitVec 128)) : (s.setAttic c l).mem = s.mem := by unfold State.setAttic; first | rfl | (split <;> rfl)
@[simp] theorem setAttic_hall (c : Fin 17) (l : List (BitVec 128)) : (s.setAttic c l).hall = s.hall := by unfold State.setAttic; first | rfl | (split <;> rfl)
@[simp] theorem setAttic_wings (c : Fin 17) (l : List (BitVec 128)) : (s.setAttic c l).wings = s.wings := by unfold State.setAttic; first | rfl | (split <;> rfl)
@[simp] theorem setAttic_ten (c : Fin 17) (l : List (BitVec 128)) : (s.setAttic c l).ten = s.ten := by unfold State.setAttic; first | rfl | (split <;> rfl)
@[simp] theorem setAttic_hearth (c : Fin 17) (l : List (BitVec 128)) : (s.setAttic c l).hearth = s.hearth := by unfold State.setAttic; first | rfl | (split <;> rfl)
@[simp] theorem setAttic_cores (c : Fin 17) (l : List (BitVec 128)) : (s.setAttic c l).cores = s.cores := by unfold State.setAttic; first | rfl | (split <;> rfl)
@[simp] theorem setAttic_ports (c : Fin 17) (l : List (BitVec 128)) : (s.setAttic c l).ports = s.ports := by unfold State.setAttic; first | rfl | (split <;> rfl)
@[simp] theorem setAttic_flt (c : Fin 17) (l : List (BitVec 128)) : (s.setAttic c l).flt = s.flt := by unfold State.setAttic; first | rfl | (split <;> rfl)

/-! ### State.modTch -/

@[simp] theorem modTch_pending (c : Fin 17) (f : Tch → Tch) : (s.modTch c f).pending = s.pending := rfl
@[simp] theorem modTch_draws (c : Fin 17) (f : Tch → Tch) : (s.modTch c f).draws = s.draws := rfl
@[simp] theorem modTch_out (c : Fin 17) (f : Tch → Tch) : (s.modTch c f).out = s.out := rfl
@[simp] theorem modTch_mem (c : Fin 17) (f : Tch → Tch) : (s.modTch c f).mem = s.mem := rfl
@[simp] theorem modTch_hall (c : Fin 17) (f : Tch → Tch) : (s.modTch c f).hall = s.hall := rfl
@[simp] theorem modTch_wings (c : Fin 17) (f : Tch → Tch) : (s.modTch c f).wings = s.wings := rfl
@[simp] theorem modTch_engines (c : Fin 17) (f : Tch → Tch) : (s.modTch c f).engines = s.engines := rfl
@[simp] theorem modTch_ten (c : Fin 17) (f : Tch → Tch) : (s.modTch c f).ten = s.ten := rfl
@[simp] theorem modTch_hearth (c : Fin 17) (f : Tch → Tch) : (s.modTch c f).hearth = s.hearth := rfl
@[simp] theorem modTch_cores (c : Fin 17) (f : Tch → Tch) : (s.modTch c f).cores = s.cores := rfl
@[simp] theorem modTch_ports (c : Fin 17) (f : Tch → Tch) : (s.modTch c f).ports = s.ports := rfl
@[simp] theorem modTch_flt (c : Fin 17) (f : Tch → Tch) : (s.modTch c f).flt = s.flt := rfl

/-! ### State.dropRecord -/

@[simp] theorem dropRecord_pending (c : Fin 17) : (s.dropRecord c).pending = s.pending := by simp [State.dropRecord]
@[simp] theorem dropRecord_draws (c : Fin 17) : (s.dropRecord c).draws = s.draws := by simp [State.dropRecord]
@[simp] theorem dropRecord_out (c : Fin 17) : (s.dropRecord c).out = s.out := by simp [State.dropRecord]
@[simp] theorem dropRecord_mem (c : Fin 17) : (s.dropRecord c).mem = s.mem := by simp [State.dropRecord]
@[simp] theorem dropRecord_hall (c : Fin 17) : (s.dropRecord c).hall = s.hall := by simp [State.dropRecord]
@[simp] theorem dropRecord_wings (c : Fin 17) : (s.dropRecord c).wings = s.wings := by simp [State.dropRecord]
@[simp] theorem dropRecord_engines (c : Fin 17) : (s.dropRecord c).engines = s.engines := by simp [State.dropRecord]
@[simp] theorem dropRecord_ten (c : Fin 17) : (s.dropRecord c).ten = s.ten := by simp [State.dropRecord]
@[simp] theorem dropRecord_hearth (c : Fin 17) : (s.dropRecord c).hearth = s.hearth := by simp [State.dropRecord]
@[simp] theorem dropRecord_cores (c : Fin 17) : (s.dropRecord c).cores = s.cores := by simp [State.dropRecord]
@[simp] theorem dropRecord_ports (c : Fin 17) : (s.dropRecord c).ports = s.ports := by simp [State.dropRecord]
@[simp] theorem dropRecord_flt (c : Fin 17) : (s.dropRecord c).flt = s.flt := by simp [State.dropRecord]

/-! ### State.trace -/

@[simp] theorem trace_pending (c : Fin 17) (sync cmd : Bool) (t : Option TenIx) (ty src : Nat) (w : Word) : (s.trace c sync cmd t ty src w).pending = s.pending := by
  simp only [State.trace]; (repeat' split) <;> simp
@[simp] theorem trace_draws (c : Fin 17) (sync cmd : Bool) (t : Option TenIx) (ty src : Nat) (w : Word) : (s.trace c sync cmd t ty src w).draws = s.draws := by
  simp only [State.trace]; (repeat' split) <;> simp
@[simp] theorem trace_out (c : Fin 17) (sync cmd : Bool) (t : Option TenIx) (ty src : Nat) (w : Word) : (s.trace c sync cmd t ty src w).out = s.out := by
  simp only [State.trace]; (repeat' split) <;> simp
@[simp] theorem trace_mem (c : Fin 17) (sync cmd : Bool) (t : Option TenIx) (ty src : Nat) (w : Word) : (s.trace c sync cmd t ty src w).mem = s.mem := by
  simp only [State.trace]; (repeat' split) <;> simp
@[simp] theorem trace_hall (c : Fin 17) (sync cmd : Bool) (t : Option TenIx) (ty src : Nat) (w : Word) : (s.trace c sync cmd t ty src w).hall = s.hall := by
  simp only [State.trace]; (repeat' split) <;> simp
@[simp] theorem trace_wings (c : Fin 17) (sync cmd : Bool) (t : Option TenIx) (ty src : Nat) (w : Word) : (s.trace c sync cmd t ty src w).wings = s.wings := by
  simp only [State.trace]; (repeat' split) <;> simp
@[simp] theorem trace_ten (c : Fin 17) (sync cmd : Bool) (t : Option TenIx) (ty src : Nat) (w : Word) : (s.trace c sync cmd t ty src w).ten = s.ten := by
  simp only [State.trace]; (repeat' split) <;> simp
@[simp] theorem trace_hearth (c : Fin 17) (sync cmd : Bool) (t : Option TenIx) (ty src : Nat) (w : Word) : (s.trace c sync cmd t ty src w).hearth = s.hearth := by
  simp only [State.trace]; (repeat' split) <;> simp
@[simp] theorem trace_cores (c : Fin 17) (sync cmd : Bool) (t : Option TenIx) (ty src : Nat) (w : Word) : (s.trace c sync cmd t ty src w).cores = s.cores := by
  simp only [State.trace]; (repeat' split) <;> simp
@[simp] theorem trace_ports (c : Fin 17) (sync cmd : Bool) (t : Option TenIx) (ty src : Nat) (w : Word) : (s.trace c sync cmd t ty src w).ports = s.ports := by
  simp only [State.trace]; (repeat' split) <;> simp
@[simp] theorem trace_flt (c : Fin 17) (sync cmd : Bool) (t : Option TenIx) (ty src : Nat) (w : Word) : (s.trace c sync cmd t ty src w).flt = s.flt := by
  simp only [State.trace]; (repeat' split) <;> simp

/-! ### State.msix -/

@[simp] theorem msix_pending (p : PortIx) (v : Fin 128) : (s.msix p v).pending = s.pending := rfl
@[simp] theorem msix_draws (p : PortIx) (v : Fin 128) : (s.msix p v).draws = s.draws := rfl
@[simp] theorem msix_out (p : PortIx) (v : Fin 128) : (s.msix p v).out = s.out := rfl
@[simp] theorem msix_mem (p : PortIx) (v : Fin 128) : (s.msix p v).mem = s.mem := rfl
@[simp] theorem msix_hall (p : PortIx) (v : Fin 128) : (s.msix p v).hall = s.hall := rfl
@[simp] theorem msix_wings (p : PortIx) (v : Fin 128) : (s.msix p v).wings = s.wings := rfl
@[simp] theorem msix_engines (p : PortIx) (v : Fin 128) : (s.msix p v).engines = s.engines := rfl
@[simp] theorem msix_ten (p : PortIx) (v : Fin 128) : (s.msix p v).ten = s.ten := rfl
@[simp] theorem msix_hearth (p : PortIx) (v : Fin 128) : (s.msix p v).hearth = s.hearth := rfl
@[simp] theorem msix_obs (p : PortIx) (v : Fin 128) : (s.msix p v).obs = s.obs := rfl
@[simp] theorem msix_cores (p : PortIx) (v : Fin 128) : (s.msix p v).cores = s.cores := rfl
@[simp] theorem msix_flt (p : PortIx) (v : Fin 128) : (s.msix p v).flt = s.flt := rfl

/-! ### State.raiseVector -/

@[simp] theorem raiseVector_pending (n : StrmIx) : (s.raiseVector n).pending = s.pending := by
  simp only [State.raiseVector]; (repeat' split) <;> simp
@[simp] theorem raiseVector_draws (n : StrmIx) : (s.raiseVector n).draws = s.draws := by
  simp only [State.raiseVector]; (repeat' split) <;> simp
@[simp] theorem raiseVector_out (n : StrmIx) : (s.raiseVector n).out = s.out := by
  simp only [State.raiseVector]; (repeat' split) <;> simp
@[simp] theorem raiseVector_mem (n : StrmIx) : (s.raiseVector n).mem = s.mem := by
  simp only [State.raiseVector]; (repeat' split) <;> simp
@[simp] theorem raiseVector_hall (n : StrmIx) : (s.raiseVector n).hall = s.hall := by
  simp only [State.raiseVector]; (repeat' split) <;> simp
@[simp] theorem raiseVector_wings (n : StrmIx) : (s.raiseVector n).wings = s.wings := by
  simp only [State.raiseVector]; (repeat' split) <;> simp
@[simp] theorem raiseVector_engines (n : StrmIx) : (s.raiseVector n).engines = s.engines := by
  simp only [State.raiseVector]; (repeat' split) <;> simp
@[simp] theorem raiseVector_ten (n : StrmIx) : (s.raiseVector n).ten = s.ten := by
  simp only [State.raiseVector]; (repeat' split) <;> simp
@[simp] theorem raiseVector_hearth (n : StrmIx) : (s.raiseVector n).hearth = s.hearth := by
  simp only [State.raiseVector]; (repeat' split) <;> simp
@[simp] theorem raiseVector_obs (n : StrmIx) : (s.raiseVector n).obs = s.obs := by
  simp only [State.raiseVector]; (repeat' split) <;> simp
@[simp] theorem raiseVector_flt (n : StrmIx) : (s.raiseVector n).flt = s.flt := by
  simp only [State.raiseVector]; (repeat' split) <;> simp

/-! ### State.mgrVector -/

@[simp] theorem mgrVector_pending : (s.mgrVector ).pending = s.pending := by
  simp only [State.mgrVector]; (repeat' split) <;> simp
@[simp] theorem mgrVector_draws : (s.mgrVector ).draws = s.draws := by
  simp only [State.mgrVector]; (repeat' split) <;> simp
@[simp] theorem mgrVector_out : (s.mgrVector ).out = s.out := by
  simp only [State.mgrVector]; (repeat' split) <;> simp
@[simp] theorem mgrVector_mem : (s.mgrVector ).mem = s.mem := by
  simp only [State.mgrVector]; (repeat' split) <;> simp
@[simp] theorem mgrVector_hall : (s.mgrVector ).hall = s.hall := by
  simp only [State.mgrVector]; (repeat' split) <;> simp
@[simp] theorem mgrVector_wings : (s.mgrVector ).wings = s.wings := by
  simp only [State.mgrVector]; (repeat' split) <;> simp
@[simp] theorem mgrVector_engines : (s.mgrVector ).engines = s.engines := by
  simp only [State.mgrVector]; (repeat' split) <;> simp
@[simp] theorem mgrVector_ten : (s.mgrVector ).ten = s.ten := by
  simp only [State.mgrVector]; (repeat' split) <;> simp
@[simp] theorem mgrVector_hearth : (s.mgrVector ).hearth = s.hearth := by
  simp only [State.mgrVector]; (repeat' split) <;> simp
@[simp] theorem mgrVector_obs : (s.mgrVector ).obs = s.obs := by
  simp only [State.mgrVector]; (repeat' split) <;> simp
@[simp] theorem mgrVector_cores : (s.mgrVector ).cores = s.cores := by
  simp only [State.mgrVector]; (repeat' split) <;> simp
@[simp] theorem mgrVector_flt : (s.mgrVector ).flt = s.flt := by
  simp only [State.mgrVector]; (repeat' split) <;> simp

/-! ### State.routeM -/

@[simp] theorem routeM_pending (v : Event) : (s.routeM v).pending = s.pending := by
  simp only [State.routeM]; (repeat' split) <;> simp
@[simp] theorem routeM_draws (v : Event) : (s.routeM v).draws = s.draws := by
  simp only [State.routeM]; (repeat' split) <;> simp
@[simp] theorem routeM_out (v : Event) : (s.routeM v).out = s.out := by
  simp only [State.routeM]; (repeat' split) <;> simp
@[simp] theorem routeM_mem (v : Event) : (s.routeM v).mem = s.mem := by
  simp only [State.routeM]; (repeat' split) <;> simp
@[simp] theorem routeM_hall (v : Event) : (s.routeM v).hall = s.hall := by
  simp only [State.routeM]; (repeat' split) <;> simp
@[simp] theorem routeM_wings (v : Event) : (s.routeM v).wings = s.wings := by
  simp only [State.routeM]; (repeat' split) <;> simp
@[simp] theorem routeM_engines (v : Event) : (s.routeM v).engines = s.engines := by
  simp only [State.routeM]; (repeat' split) <;> simp
@[simp] theorem routeM_ten (v : Event) : (s.routeM v).ten = s.ten := by
  simp only [State.routeM]; (repeat' split) <;> simp
@[simp] theorem routeM_hearth (v : Event) : (s.routeM v).hearth = s.hearth := by
  simp only [State.routeM]; (repeat' split) <;> simp
@[simp] theorem routeM_obs (v : Event) : (s.routeM v).obs = s.obs := by
  simp only [State.routeM]; (repeat' split) <;> simp
@[simp] theorem routeM_cores (v : Event) : (s.routeM v).cores = s.cores := by
  simp only [State.routeM]; (repeat' split) <;> simp

/-! ### State.setPortEvt -/

@[simp] theorem setPortEvt_pending (p : PortIx) (b : Fin 3) : (s.setPortEvt p b).pending = s.pending := by
  simp only [State.setPortEvt]; (repeat' split) <;> simp
@[simp] theorem setPortEvt_draws (p : PortIx) (b : Fin 3) : (s.setPortEvt p b).draws = s.draws := by
  simp only [State.setPortEvt]; (repeat' split) <;> simp
@[simp] theorem setPortEvt_out (p : PortIx) (b : Fin 3) : (s.setPortEvt p b).out = s.out := by
  simp only [State.setPortEvt]; (repeat' split) <;> simp
@[simp] theorem setPortEvt_mem (p : PortIx) (b : Fin 3) : (s.setPortEvt p b).mem = s.mem := by
  simp only [State.setPortEvt]; (repeat' split) <;> simp
@[simp] theorem setPortEvt_hall (p : PortIx) (b : Fin 3) : (s.setPortEvt p b).hall = s.hall := by
  simp only [State.setPortEvt]; (repeat' split) <;> simp
@[simp] theorem setPortEvt_wings (p : PortIx) (b : Fin 3) : (s.setPortEvt p b).wings = s.wings := by
  simp only [State.setPortEvt]; (repeat' split) <;> simp
@[simp] theorem setPortEvt_engines (p : PortIx) (b : Fin 3) : (s.setPortEvt p b).engines = s.engines := by
  simp only [State.setPortEvt]; (repeat' split) <;> simp
@[simp] theorem setPortEvt_ten (p : PortIx) (b : Fin 3) : (s.setPortEvt p b).ten = s.ten := by
  simp only [State.setPortEvt]; (repeat' split) <;> simp
@[simp] theorem setPortEvt_hearth (p : PortIx) (b : Fin 3) : (s.setPortEvt p b).hearth = s.hearth := by
  simp only [State.setPortEvt]; (repeat' split) <;> simp
@[simp] theorem setPortEvt_obs (p : PortIx) (b : Fin 3) : (s.setPortEvt p b).obs = s.obs := by
  simp only [State.setPortEvt]; (repeat' split) <;> simp
@[simp] theorem setPortEvt_cores (p : PortIx) (b : Fin 3) : (s.setPortEvt p b).cores = s.cores := by
  simp only [State.setPortEvt]; (repeat' split) <;> simp
@[simp] theorem setPortEvt_flt (p : PortIx) (b : Fin 3) : (s.setPortEvt p b).flt = s.flt := by
  simp only [State.setPortEvt]; (repeat' split) <;> simp

/-! ### State.routeT -/

@[simp] theorem routeT_pending (t : TenIx) (b : Fin 3) : (s.routeT t b).pending = s.pending := by
  simp only [State.routeT]; (repeat' split) <;> simp
@[simp] theorem routeT_draws (t : TenIx) (b : Fin 3) : (s.routeT t b).draws = s.draws := by
  simp only [State.routeT]; (repeat' split) <;> simp
@[simp] theorem routeT_out (t : TenIx) (b : Fin 3) : (s.routeT t b).out = s.out := by
  simp only [State.routeT]; (repeat' split) <;> simp
@[simp] theorem routeT_mem (t : TenIx) (b : Fin 3) : (s.routeT t b).mem = s.mem := by
  simp only [State.routeT]; (repeat' split) <;> simp
@[simp] theorem routeT_hall (t : TenIx) (b : Fin 3) : (s.routeT t b).hall = s.hall := by
  simp only [State.routeT]; (repeat' split) <;> simp
@[simp] theorem routeT_wings (t : TenIx) (b : Fin 3) : (s.routeT t b).wings = s.wings := by
  simp only [State.routeT]; (repeat' split) <;> simp
@[simp] theorem routeT_engines (t : TenIx) (b : Fin 3) : (s.routeT t b).engines = s.engines := by
  simp only [State.routeT]; (repeat' split) <;> simp
@[simp] theorem routeT_ten (t : TenIx) (b : Fin 3) : (s.routeT t b).ten = s.ten := by
  simp only [State.routeT]; (repeat' split) <;> simp
@[simp] theorem routeT_hearth (t : TenIx) (b : Fin 3) : (s.routeT t b).hearth = s.hearth := by
  simp only [State.routeT]; (repeat' split) <;> simp
@[simp] theorem routeT_obs (t : TenIx) (b : Fin 3) : (s.routeT t b).obs = s.obs := by
  simp only [State.routeT]; (repeat' split) <;> simp
@[simp] theorem routeT_flt (t : TenIx) (b : Fin 3) : (s.routeT t b).flt = s.flt := by
  simp only [State.routeT]; (repeat' split) <;> simp

/-! ### State.routeB -/

@[simp] theorem routeB_pending (v : Event) : (s.routeB v).pending = s.pending := by
  simp only [State.routeB]; (repeat' split) <;> simp
@[simp] theorem routeB_draws (v : Event) : (s.routeB v).draws = s.draws := by
  simp only [State.routeB]; (repeat' split) <;> simp
@[simp] theorem routeB_out (v : Event) : (s.routeB v).out = s.out := by
  simp only [State.routeB]; (repeat' split) <;> simp
@[simp] theorem routeB_mem (v : Event) : (s.routeB v).mem = s.mem := by
  simp only [State.routeB]; (repeat' split) <;> simp
@[simp] theorem routeB_hall (v : Event) : (s.routeB v).hall = s.hall := by
  simp only [State.routeB]; (repeat' split) <;> simp
@[simp] theorem routeB_wings (v : Event) : (s.routeB v).wings = s.wings := by
  simp only [State.routeB]; (repeat' split) <;> simp
@[simp] theorem routeB_engines (v : Event) : (s.routeB v).engines = s.engines := by
  simp only [State.routeB]; (repeat' split) <;> simp
@[simp] theorem routeB_ten (v : Event) : (s.routeB v).ten = s.ten := by
  simp only [State.routeB]; (repeat' split) <;> simp
@[simp] theorem routeB_obs (v : Event) : (s.routeB v).obs = s.obs := by
  simp only [State.routeB]; (repeat' split) <;> simp
@[simp] theorem routeB_cores (v : Event) : (s.routeB v).cores = s.cores := by
  simp only [State.routeB]; (repeat' split) <;> simp
@[simp] theorem routeB_ports (v : Event) : (s.routeB v).ports = s.ports := by
  simp only [State.routeB]; (repeat' split) <;> simp
@[simp] theorem routeB_flt (v : Event) : (s.routeB v).flt = s.flt := by
  simp only [State.routeB]; (repeat' split) <;> simp

/-! ### State.routeA -/

@[simp] theorem routeA_pending (b : Nat) : (s.routeA b).pending = s.pending := by unfold State.routeA; rfl
@[simp] theorem routeA_draws (b : Nat) : (s.routeA b).draws = s.draws := by unfold State.routeA; rfl
@[simp] theorem routeA_out (b : Nat) : (s.routeA b).out = s.out := by unfold State.routeA; rfl
@[simp] theorem routeA_mem (b : Nat) : (s.routeA b).mem = s.mem := by unfold State.routeA; rfl
@[simp] theorem routeA_hall (b : Nat) : (s.routeA b).hall = s.hall := by unfold State.routeA; rfl
@[simp] theorem routeA_wings (b : Nat) : (s.routeA b).wings = s.wings := by unfold State.routeA; rfl
@[simp] theorem routeA_engines (b : Nat) : (s.routeA b).engines = s.engines := by unfold State.routeA; rfl
@[simp] theorem routeA_ten (b : Nat) : (s.routeA b).ten = s.ten := by unfold State.routeA; rfl
@[simp] theorem routeA_obs (b : Nat) : (s.routeA b).obs = s.obs := by unfold State.routeA; rfl
@[simp] theorem routeA_cores (b : Nat) : (s.routeA b).cores = s.cores := by unfold State.routeA; rfl
@[simp] theorem routeA_ports (b : Nat) : (s.routeA b).ports = s.ports := by unfold State.routeA; rfl
@[simp] theorem routeA_flt (b : Nat) : (s.routeA b).flt = s.flt := by unfold State.routeA; rfl

/-! ### State.routeV -/

@[simp] theorem routeV_pending (v : Event) : (s.routeV v).pending = s.pending := by
  simp only [State.routeV]; (repeat' split) <;> simp
@[simp] theorem routeV_draws (v : Event) : (s.routeV v).draws = s.draws := by
  simp only [State.routeV]; (repeat' split) <;> simp
@[simp] theorem routeV_out (v : Event) : (s.routeV v).out = s.out := by
  simp only [State.routeV]; (repeat' split) <;> simp
@[simp] theorem routeV_mem (v : Event) : (s.routeV v).mem = s.mem := by
  simp only [State.routeV]; (repeat' split) <;> simp
@[simp] theorem routeV_hall (v : Event) : (s.routeV v).hall = s.hall := by
  simp only [State.routeV]; (repeat' split) <;> simp
@[simp] theorem routeV_wings (v : Event) : (s.routeV v).wings = s.wings := by
  simp only [State.routeV]; (repeat' split) <;> simp
@[simp] theorem routeV_engines (v : Event) : (s.routeV v).engines = s.engines := by
  simp only [State.routeV]; (repeat' split) <;> simp
@[simp] theorem routeV_ten (v : Event) : (s.routeV v).ten = s.ten := by
  simp only [State.routeV]; (repeat' split) <;> simp
@[simp] theorem routeV_hearth (v : Event) : (s.routeV v).hearth = s.hearth := by
  simp only [State.routeV]; (repeat' split) <;> simp
@[simp] theorem routeV_obs (v : Event) : (s.routeV v).obs = s.obs := by
  simp only [State.routeV]; (repeat' split) <;> simp
@[simp] theorem routeV_flt (v : Event) : (s.routeV v).flt = s.flt := by
  simp only [State.routeV]; (repeat' split) <;> simp

/-! ### State.routeD -/

@[simp] theorem routeD_pending : (s.routeD ).pending = s.pending := by
  have h (l : List PortIx) (t : State) :
      (l.foldl (fun t p => if bitAt t.flt.errRoute p.val then t.setPortEvt p 0 else t) t).pending = t.pending := by
    induction l generalizing t with
    | nil => rfl
    | cons p l ih => rw [List.foldl_cons, ih]; split <;> simp
  simp only [State.routeD]
  split <;> simp [h]
@[simp] theorem routeD_draws : (s.routeD ).draws = s.draws := by
  have h (l : List PortIx) (t : State) :
      (l.foldl (fun t p => if bitAt t.flt.errRoute p.val then t.setPortEvt p 0 else t) t).draws = t.draws := by
    induction l generalizing t with
    | nil => rfl
    | cons p l ih => rw [List.foldl_cons, ih]; split <;> simp
  simp only [State.routeD]
  split <;> simp [h]
@[simp] theorem routeD_out : (s.routeD ).out = s.out := by
  have h (l : List PortIx) (t : State) :
      (l.foldl (fun t p => if bitAt t.flt.errRoute p.val then t.setPortEvt p 0 else t) t).out = t.out := by
    induction l generalizing t with
    | nil => rfl
    | cons p l ih => rw [List.foldl_cons, ih]; split <;> simp
  simp only [State.routeD]
  split <;> simp [h]
@[simp] theorem routeD_mem : (s.routeD ).mem = s.mem := by
  have h (l : List PortIx) (t : State) :
      (l.foldl (fun t p => if bitAt t.flt.errRoute p.val then t.setPortEvt p 0 else t) t).mem = t.mem := by
    induction l generalizing t with
    | nil => rfl
    | cons p l ih => rw [List.foldl_cons, ih]; split <;> simp
  simp only [State.routeD]
  split <;> simp [h]
@[simp] theorem routeD_hall : (s.routeD ).hall = s.hall := by
  have h (l : List PortIx) (t : State) :
      (l.foldl (fun t p => if bitAt t.flt.errRoute p.val then t.setPortEvt p 0 else t) t).hall = t.hall := by
    induction l generalizing t with
    | nil => rfl
    | cons p l ih => rw [List.foldl_cons, ih]; split <;> simp
  simp only [State.routeD]
  split <;> simp [h]
@[simp] theorem routeD_wings : (s.routeD ).wings = s.wings := by
  have h (l : List PortIx) (t : State) :
      (l.foldl (fun t p => if bitAt t.flt.errRoute p.val then t.setPortEvt p 0 else t) t).wings = t.wings := by
    induction l generalizing t with
    | nil => rfl
    | cons p l ih => rw [List.foldl_cons, ih]; split <;> simp
  simp only [State.routeD]
  split <;> simp [h]
@[simp] theorem routeD_engines : (s.routeD ).engines = s.engines := by
  have h (l : List PortIx) (t : State) :
      (l.foldl (fun t p => if bitAt t.flt.errRoute p.val then t.setPortEvt p 0 else t) t).engines = t.engines := by
    induction l generalizing t with
    | nil => rfl
    | cons p l ih => rw [List.foldl_cons, ih]; split <;> simp
  simp only [State.routeD]
  split <;> simp [h]
@[simp] theorem routeD_ten : (s.routeD ).ten = s.ten := by
  have h (l : List PortIx) (t : State) :
      (l.foldl (fun t p => if bitAt t.flt.errRoute p.val then t.setPortEvt p 0 else t) t).ten = t.ten := by
    induction l generalizing t with
    | nil => rfl
    | cons p l ih => rw [List.foldl_cons, ih]; split <;> simp
  simp only [State.routeD]
  split <;> simp [h]
@[simp] theorem routeD_hearth : (s.routeD ).hearth = s.hearth := by
  have h (l : List PortIx) (t : State) :
      (l.foldl (fun t p => if bitAt t.flt.errRoute p.val then t.setPortEvt p 0 else t) t).hearth = t.hearth := by
    induction l generalizing t with
    | nil => rfl
    | cons p l ih => rw [List.foldl_cons, ih]; split <;> simp
  simp only [State.routeD]
  split <;> simp [h]
@[simp] theorem routeD_obs : (s.routeD ).obs = s.obs := by
  have h (l : List PortIx) (t : State) :
      (l.foldl (fun t p => if bitAt t.flt.errRoute p.val then t.setPortEvt p 0 else t) t).obs = t.obs := by
    induction l generalizing t with
    | nil => rfl
    | cons p l ih => rw [List.foldl_cons, ih]; split <;> simp
  simp only [State.routeD]
  split <;> simp [h]
@[simp] theorem routeD_flt : (s.routeD ).flt = s.flt := by
  have h (l : List PortIx) (t : State) :
      (l.foldl (fun t p => if bitAt t.flt.errRoute p.val then t.setPortEvt p 0 else t) t).flt = t.flt := by
    induction l generalizing t with
    | nil => rfl
    | cons p l ih => rw [List.foldl_cons, ih]; split <;> simp
  simp only [State.routeD]
  split <;> simp [h]

/-! ### State.report -/

@[simp] theorem report_pending (v : Event) : (s.report v).pending = s.pending := by
  simp only [State.report]; (repeat' split) <;> simp
@[simp] theorem report_draws (v : Event) : (s.report v).draws = s.draws := by
  simp only [State.report]; (repeat' split) <;> simp
@[simp] theorem report_out (v : Event) : (s.report v).out = s.out := by
  simp only [State.report]; (repeat' split) <;> simp
@[simp] theorem report_mem (v : Event) : (s.report v).mem = s.mem := by
  simp only [State.report]; (repeat' split) <;> simp
@[simp] theorem report_hall (v : Event) : (s.report v).hall = s.hall := by
  simp only [State.report]; (repeat' split) <;> simp
@[simp] theorem report_wings (v : Event) : (s.report v).wings = s.wings := by
  simp only [State.report]; (repeat' split) <;> simp
@[simp] theorem report_engines (v : Event) : (s.report v).engines = s.engines := by
  simp only [State.report]; (repeat' split) <;> simp
@[simp] theorem report_ten (v : Event) : (s.report v).ten = s.ten := by
  simp only [State.report]; (repeat' split) <;> simp
@[simp] theorem report_obs (v : Event) : (s.report v).obs = s.obs := by
  simp only [State.report]; (repeat' split) <;> simp

/-! ### State.refuseWrite -/

@[simp] theorem refuseWrite_pending (w : Writer) : (s.refuseWrite w).pending = s.pending := by
  unfold State.refuseWrite; split <;> simp
@[simp] theorem refuseWrite_draws (w : Writer) : (s.refuseWrite w).draws = s.draws := by
  unfold State.refuseWrite; split <;> simp
@[simp] theorem refuseWrite_out (w : Writer) : (s.refuseWrite w).out = s.out := by
  unfold State.refuseWrite; split <;> simp
@[simp] theorem refuseWrite_mem (w : Writer) : (s.refuseWrite w).mem = s.mem := by
  unfold State.refuseWrite; split <;> simp
@[simp] theorem refuseWrite_hall (w : Writer) : (s.refuseWrite w).hall = s.hall := by
  unfold State.refuseWrite; split <;> simp
@[simp] theorem refuseWrite_wings (w : Writer) : (s.refuseWrite w).wings = s.wings := by
  unfold State.refuseWrite; split <;> simp
@[simp] theorem refuseWrite_engines (w : Writer) : (s.refuseWrite w).engines = s.engines := by
  unfold State.refuseWrite; split <;> simp
@[simp] theorem refuseWrite_obs (w : Writer) : (s.refuseWrite w).obs = s.obs := by
  unfold State.refuseWrite; split <;> simp

/-! ### State.modCmd -/

@[simp] theorem modCmd_pending (n : StrmIx) (i : BitVec 32) (f : Cmd → Cmd) : (s.modCmd n i f).pending = s.pending := rfl
@[simp] theorem modCmd_draws (n : StrmIx) (i : BitVec 32) (f : Cmd → Cmd) : (s.modCmd n i f).draws = s.draws := rfl
@[simp] theorem modCmd_out (n : StrmIx) (i : BitVec 32) (f : Cmd → Cmd) : (s.modCmd n i f).out = s.out := rfl
@[simp] theorem modCmd_mem (n : StrmIx) (i : BitVec 32) (f : Cmd → Cmd) : (s.modCmd n i f).mem = s.mem := rfl
@[simp] theorem modCmd_hall (n : StrmIx) (i : BitVec 32) (f : Cmd → Cmd) : (s.modCmd n i f).hall = s.hall := rfl
@[simp] theorem modCmd_wings (n : StrmIx) (i : BitVec 32) (f : Cmd → Cmd) : (s.modCmd n i f).wings = s.wings := rfl
@[simp] theorem modCmd_engines (n : StrmIx) (i : BitVec 32) (f : Cmd → Cmd) : (s.modCmd n i f).engines = s.engines := rfl
@[simp] theorem modCmd_hearth (n : StrmIx) (i : BitVec 32) (f : Cmd → Cmd) : (s.modCmd n i f).hearth = s.hearth := rfl
@[simp] theorem modCmd_obs (n : StrmIx) (i : BitVec 32) (f : Cmd → Cmd) : (s.modCmd n i f).obs = s.obs := rfl
@[simp] theorem modCmd_cores (n : StrmIx) (i : BitVec 32) (f : Cmd → Cmd) : (s.modCmd n i f).cores = s.cores := rfl
@[simp] theorem modCmd_ports (n : StrmIx) (i : BitVec 32) (f : Cmd → Cmd) : (s.modCmd n i f).ports = s.ports := rfl
@[simp] theorem modCmd_flt (n : StrmIx) (i : BitVec 32) (f : Cmd → Cmd) : (s.modCmd n i f).flt = s.flt := rfl

/-! ### State.cmdDone -/

@[simp] theorem cmdDone_pending (n : StrmIx) (i : BitVec 32) (st : Byte) (d d2 : Word) : (s.cmdDone n i st d d2).pending = s.pending := rfl
@[simp] theorem cmdDone_draws (n : StrmIx) (i : BitVec 32) (st : Byte) (d d2 : Word) : (s.cmdDone n i st d d2).draws = s.draws := rfl
@[simp] theorem cmdDone_out (n : StrmIx) (i : BitVec 32) (st : Byte) (d d2 : Word) : (s.cmdDone n i st d d2).out = s.out := rfl
@[simp] theorem cmdDone_mem (n : StrmIx) (i : BitVec 32) (st : Byte) (d d2 : Word) : (s.cmdDone n i st d d2).mem = s.mem := rfl
@[simp] theorem cmdDone_hall (n : StrmIx) (i : BitVec 32) (st : Byte) (d d2 : Word) : (s.cmdDone n i st d d2).hall = s.hall := rfl
@[simp] theorem cmdDone_wings (n : StrmIx) (i : BitVec 32) (st : Byte) (d d2 : Word) : (s.cmdDone n i st d d2).wings = s.wings := rfl
@[simp] theorem cmdDone_engines (n : StrmIx) (i : BitVec 32) (st : Byte) (d d2 : Word) : (s.cmdDone n i st d d2).engines = s.engines := rfl
@[simp] theorem cmdDone_hearth (n : StrmIx) (i : BitVec 32) (st : Byte) (d d2 : Word) : (s.cmdDone n i st d d2).hearth = s.hearth := rfl
@[simp] theorem cmdDone_obs (n : StrmIx) (i : BitVec 32) (st : Byte) (d d2 : Word) : (s.cmdDone n i st d d2).obs = s.obs := rfl
@[simp] theorem cmdDone_cores (n : StrmIx) (i : BitVec 32) (st : Byte) (d d2 : Word) : (s.cmdDone n i st d d2).cores = s.cores := rfl
@[simp] theorem cmdDone_ports (n : StrmIx) (i : BitVec 32) (st : Byte) (d d2 : Word) : (s.cmdDone n i st d d2).ports = s.ports := rfl
@[simp] theorem cmdDone_flt (n : StrmIx) (i : BitVec 32) (st : Byte) (d d2 : Word) : (s.cmdDone n i st d d2).flt = s.flt := rfl

/-! ### State.modLaunch -/

@[simp] theorem modLaunch_pending (n : StrmIx) (i : BitVec 32) (f : Launch → Launch) : (s.modLaunch n i f).pending = s.pending := rfl
@[simp] theorem modLaunch_draws (n : StrmIx) (i : BitVec 32) (f : Launch → Launch) : (s.modLaunch n i f).draws = s.draws := rfl
@[simp] theorem modLaunch_out (n : StrmIx) (i : BitVec 32) (f : Launch → Launch) : (s.modLaunch n i f).out = s.out := rfl
@[simp] theorem modLaunch_mem (n : StrmIx) (i : BitVec 32) (f : Launch → Launch) : (s.modLaunch n i f).mem = s.mem := rfl
@[simp] theorem modLaunch_hall (n : StrmIx) (i : BitVec 32) (f : Launch → Launch) : (s.modLaunch n i f).hall = s.hall := rfl
@[simp] theorem modLaunch_wings (n : StrmIx) (i : BitVec 32) (f : Launch → Launch) : (s.modLaunch n i f).wings = s.wings := rfl
@[simp] theorem modLaunch_engines (n : StrmIx) (i : BitVec 32) (f : Launch → Launch) : (s.modLaunch n i f).engines = s.engines := rfl
@[simp] theorem modLaunch_hearth (n : StrmIx) (i : BitVec 32) (f : Launch → Launch) : (s.modLaunch n i f).hearth = s.hearth := rfl
@[simp] theorem modLaunch_obs (n : StrmIx) (i : BitVec 32) (f : Launch → Launch) : (s.modLaunch n i f).obs = s.obs := rfl
@[simp] theorem modLaunch_cores (n : StrmIx) (i : BitVec 32) (f : Launch → Launch) : (s.modLaunch n i f).cores = s.cores := rfl
@[simp] theorem modLaunch_ports (n : StrmIx) (i : BitVec 32) (f : Launch → Launch) : (s.modLaunch n i f).ports = s.ports := rfl
@[simp] theorem modLaunch_flt (n : StrmIx) (i : BitVec 32) (f : Launch → Launch) : (s.modLaunch n i f).flt = s.flt := rfl

/-! ### State.launchCheck -/

@[simp] theorem launchCheck_pending (n : StrmIx) (i : BitVec 32) : (s.launchCheck n i).pending = s.pending := by
  simp only [State.launchCheck]; (repeat' split) <;> simp
@[simp] theorem launchCheck_draws (n : StrmIx) (i : BitVec 32) : (s.launchCheck n i).draws = s.draws := by
  simp only [State.launchCheck]; (repeat' split) <;> simp
@[simp] theorem launchCheck_out (n : StrmIx) (i : BitVec 32) : (s.launchCheck n i).out = s.out := by
  simp only [State.launchCheck]; (repeat' split) <;> simp
@[simp] theorem launchCheck_mem (n : StrmIx) (i : BitVec 32) : (s.launchCheck n i).mem = s.mem := by
  simp only [State.launchCheck]; (repeat' split) <;> simp
@[simp] theorem launchCheck_hall (n : StrmIx) (i : BitVec 32) : (s.launchCheck n i).hall = s.hall := by
  simp only [State.launchCheck]; (repeat' split) <;> simp
@[simp] theorem launchCheck_wings (n : StrmIx) (i : BitVec 32) : (s.launchCheck n i).wings = s.wings := by
  simp only [State.launchCheck]; (repeat' split) <;> simp
@[simp] theorem launchCheck_engines (n : StrmIx) (i : BitVec 32) : (s.launchCheck n i).engines = s.engines := by
  simp only [State.launchCheck]; (repeat' split) <;> simp
@[simp] theorem launchCheck_hearth (n : StrmIx) (i : BitVec 32) : (s.launchCheck n i).hearth = s.hearth := by
  simp only [State.launchCheck]; (repeat' split) <;> simp
@[simp] theorem launchCheck_obs (n : StrmIx) (i : BitVec 32) : (s.launchCheck n i).obs = s.obs := by
  simp only [State.launchCheck]; (repeat' split) <;> simp
@[simp] theorem launchCheck_cores (n : StrmIx) (i : BitVec 32) : (s.launchCheck n i).cores = s.cores := by
  simp only [State.launchCheck]; (repeat' split) <;> simp
@[simp] theorem launchCheck_ports (n : StrmIx) (i : BitVec 32) : (s.launchCheck n i).ports = s.ports := by
  simp only [State.launchCheck]; (repeat' split) <;> simp
@[simp] theorem launchCheck_flt (n : StrmIx) (i : BitVec 32) : (s.launchCheck n i).flt = s.flt := by
  simp only [State.launchCheck]; (repeat' split) <;> simp

/-! ### State.instDone -/

@[simp] theorem instDone_pending (n : StrmIx) (i : BitVec 32) (gl : GloveRef) (st : BitVec 16) : (s.instDone n i gl st).pending = s.pending := by simp [State.instDone]
@[simp] theorem instDone_draws (n : StrmIx) (i : BitVec 32) (gl : GloveRef) (st : BitVec 16) : (s.instDone n i gl st).draws = s.draws := by simp [State.instDone]
@[simp] theorem instDone_out (n : StrmIx) (i : BitVec 32) (gl : GloveRef) (st : BitVec 16) : (s.instDone n i gl st).out = s.out := by simp [State.instDone]
@[simp] theorem instDone_mem (n : StrmIx) (i : BitVec 32) (gl : GloveRef) (st : BitVec 16) : (s.instDone n i gl st).mem = s.mem := by simp [State.instDone]
@[simp] theorem instDone_hall (n : StrmIx) (i : BitVec 32) (gl : GloveRef) (st : BitVec 16) : (s.instDone n i gl st).hall = s.hall := by simp [State.instDone]
@[simp] theorem instDone_wings (n : StrmIx) (i : BitVec 32) (gl : GloveRef) (st : BitVec 16) : (s.instDone n i gl st).wings = s.wings := by simp [State.instDone]
@[simp] theorem instDone_engines (n : StrmIx) (i : BitVec 32) (gl : GloveRef) (st : BitVec 16) : (s.instDone n i gl st).engines = s.engines := by simp [State.instDone]
@[simp] theorem instDone_hearth (n : StrmIx) (i : BitVec 32) (gl : GloveRef) (st : BitVec 16) : (s.instDone n i gl st).hearth = s.hearth := by simp [State.instDone]
@[simp] theorem instDone_obs (n : StrmIx) (i : BitVec 32) (gl : GloveRef) (st : BitVec 16) : (s.instDone n i gl st).obs = s.obs := by simp [State.instDone]
@[simp] theorem instDone_cores (n : StrmIx) (i : BitVec 32) (gl : GloveRef) (st : BitVec 16) : (s.instDone n i gl st).cores = s.cores := by simp [State.instDone]
@[simp] theorem instDone_ports (n : StrmIx) (i : BitVec 32) (gl : GloveRef) (st : BitVec 16) : (s.instDone n i gl st).ports = s.ports := by simp [State.instDone]
@[simp] theorem instDone_flt (n : StrmIx) (i : BitVec 32) (gl : GloveRef) (st : BitVec 16) : (s.instDone n i gl st).flt = s.flt := by simp [State.instDone]

/-! ### State.engineWake -/

@[simp] theorem engineWake_pending (e : EngIx) : (s.engineWake e).pending = s.pending := by
  simp only [State.engineWake]; (repeat' split) <;> simp
@[simp] theorem engineWake_draws (e : EngIx) : (s.engineWake e).draws = s.draws := by
  simp only [State.engineWake]; (repeat' split) <;> simp
@[simp] theorem engineWake_out (e : EngIx) : (s.engineWake e).out = s.out := by
  simp only [State.engineWake]; (repeat' split) <;> simp
@[simp] theorem engineWake_mem (e : EngIx) : (s.engineWake e).mem = s.mem := by
  simp only [State.engineWake]; (repeat' split) <;> simp
@[simp] theorem engineWake_hall (e : EngIx) : (s.engineWake e).hall = s.hall := by
  simp only [State.engineWake]; (repeat' split) <;> simp
@[simp] theorem engineWake_ten (e : EngIx) : (s.engineWake e).ten = s.ten := by
  simp only [State.engineWake]; (repeat' split) <;> simp
@[simp] theorem engineWake_hearth (e : EngIx) : (s.engineWake e).hearth = s.hearth := by
  simp only [State.engineWake]; (repeat' split) <;> simp
@[simp] theorem engineWake_obs (e : EngIx) : (s.engineWake e).obs = s.obs := by
  simp only [State.engineWake]; (repeat' split) <;> simp
@[simp] theorem engineWake_cores (e : EngIx) : (s.engineWake e).cores = s.cores := by
  simp only [State.engineWake]; (repeat' split) <;> simp
@[simp] theorem engineWake_ports (e : EngIx) : (s.engineWake e).ports = s.ports := by
  simp only [State.engineWake]; (repeat' split) <;> simp
@[simp] theorem engineWake_flt (e : EngIx) : (s.engineWake e).flt = s.flt := by
  simp only [State.engineWake]; (repeat' split) <;> simp

/-! ### State.setSteps -/

@[simp] theorem setSteps_pending : (s.setSteps ).pending = s.pending := rfl
@[simp] theorem setSteps_draws : (s.setSteps ).draws = s.draws := rfl
@[simp] theorem setSteps_out : (s.setSteps ).out = s.out := rfl
@[simp] theorem setSteps_mem : (s.setSteps ).mem = s.mem := rfl
@[simp] theorem setSteps_hall : (s.setSteps ).hall = s.hall := rfl
@[simp] theorem setSteps_wings : (s.setSteps ).wings = s.wings := rfl
@[simp] theorem setSteps_ten : (s.setSteps ).ten = s.ten := rfl
@[simp] theorem setSteps_hearth : (s.setSteps ).hearth = s.hearth := rfl
@[simp] theorem setSteps_obs : (s.setSteps ).obs = s.obs := rfl
@[simp] theorem setSteps_cores : (s.setSteps ).cores = s.cores := rfl
@[simp] theorem setSteps_ports : (s.setSteps ).ports = s.ports := rfl
@[simp] theorem setSteps_flt : (s.setSteps ).flt = s.flt := rfl

/-! ### State.passHc, State.advanceTo: the fields that no counter lies in -/

/-- The queue, the draws, the output, memory, tenancy, the ports and fault reporting are the same in two states. -/
def State.sameStill (s t : State) : Prop :=
  t.pending = s.pending ∧ t.draws = s.draws ∧ t.out = s.out ∧ t.mem = s.mem ∧ t.ten = s.ten ∧ t.ports = s.ports ∧ t.flt = s.flt

theorem sameStill_trans {s t u : State} (h : s.sameStill t) (k : t.sameStill u) : s.sameStill u := by
  obtain ⟨a, b, c, d, e, f, g⟩ := h
  obtain ⟨a', b', c', d', e', f', g'⟩ := k
  exact ⟨a'.trans a, b'.trans b, c'.trans c, d'.trans d, e'.trans e, f'.trans f, g'.trans g⟩

/-- A fold keeps what each of its steps keeps. -/
theorem foldl_sameStill {α : Type} (f : State → α → State) (h : ∀ (s : State) (x : α), s.sameStill (f s x)) (l : List α) :
    ∀ s : State, s.sameStill (l.foldl f s) := by
  induction l with
  | nil => exact fun s => ⟨rfl, rfl, rfl, rfl, rfl, rfl, rfl⟩
  | cons x l ih => exact fun s => sameStill_trans (h s x) (ih _)

theorem engCnt_still (e : EngIx) (i : Fin 21) (k : Nat) : s.sameStill (s.engCnt e i k) := by simp [State.sameStill]
theorem wingCnt_still (w : WingIx) (i : Fin 12) (k : Nat) : s.sameStill (s.wingCnt w i k) := by simp [State.sameStill]
theorem hallCnt_still (i : Fin 7) (k : Nat) : s.sameStill (s.hallCnt i k) := by simp [State.sameStill]

theorem engWaits_still (k : Nat) (e : EngIx) : s.sameStill (s.engWaits k e) := by
  unfold State.engWaits
  dsimp only
  split
  · exact ⟨rfl, rfl, rfl, rfl, rfl, rfl, rfl⟩
  · exact sameStill_trans (engCnt_still _ _ _ _) (engCnt_still _ _ _ _)

theorem hbmHeld_still (w : WingIx) (n : Nat) : s.sameStill (s.hbmHeld w n) :=
  sameStill_trans (wingCnt_still s _ _ _) (wingCnt_still _ _ _ _)

theorem countWaits_still (k : Nat) : s.sameStill (s.countWaits k) :=
  sameStill_trans (foldl_sameStill _ (fun t => engWaits_still t k) _ s)
    (sameStill_trans
      (foldl_sameStill _ (fun t _ => sameStill_trans (sameStill_trans (hbmHeld_still t _ _)
        (foldl_sameStill _ (fun u _ => wingCnt_still u _ _ _) _ _)) (wingCnt_still _ _ _ _)) _ _)
      (sameStill_trans (hallCnt_still _ _ _) (hallCnt_still _ _ _)))

theorem passHc_still (k : Nat) : s.sameStill (s.passHc k) := by
  have h : (s.modHearth fun h => { h with time := if h.por then h.time else h.time + BitVec.ofNat 64 (40 * k) }).sameStill
      ((s.modHearth fun h => { h with time := if h.por then h.time else h.time + BitVec.ofNat 64 (40 * k) }).countWaits k) :=
    countWaits_still _ k
  obtain ⟨a, b, c, d, e, f, g⟩ := h
  unfold State.passHc State.sameStill State.clearRsp
  dsimp only
  split
  · exact ⟨rfl, rfl, rfl, rfl, rfl, rfl, rfl⟩
  · split
    · simp only [hallCnt_pending, hallCnt_draws, hallCnt_out, hallCnt_mem, hallCnt_ten, hallCnt_ports, hallCnt_flt]
      exact ⟨a, b, c, d, e, f, g⟩
    · exact ⟨rfl, rfl, rfl, rfl, rfl, rfl, rfl⟩

theorem advanceTo_still (t : Nat) : s.sameStill (s.advanceTo t) := by
  unfold State.advanceTo
  split
  · exact ⟨rfl, rfl, rfl, rfl, rfl, rfl, rfl⟩
  · exact passHc_still s _

@[simp] theorem advanceTo_pending (t : Nat) : (s.advanceTo t).pending = s.pending := (advanceTo_still s t).1
@[simp] theorem advanceTo_draws (t : Nat) : (s.advanceTo t).draws = s.draws := (advanceTo_still s t).2.1
@[simp] theorem advanceTo_out (t : Nat) : (s.advanceTo t).out = s.out := (advanceTo_still s t).2.2.1
@[simp] theorem advanceTo_mem (t : Nat) : (s.advanceTo t).mem = s.mem := (advanceTo_still s t).2.2.2.1
@[simp] theorem advanceTo_ten (t : Nat) : (s.advanceTo t).ten = s.ten := (advanceTo_still s t).2.2.2.2.1
@[simp] theorem advanceTo_ports (t : Nat) : (s.advanceTo t).ports = s.ports := (advanceTo_still s t).2.2.2.2.2.1
@[simp] theorem advanceTo_flt (t : Nat) : (s.advanceTo t).flt = s.flt := (advanceTo_still s t).2.2.2.2.2.2

/-! ### State.issue -/

@[simp] theorem issue_pending (gl : GloveRef) : (s.issue gl).pending = s.pending := by
  simp only [State.issue]; (repeat' split) <;> simp
@[simp] theorem issue_draws (gl : GloveRef) : (s.issue gl).draws = s.draws := by
  simp only [State.issue]; (repeat' split) <;> simp
@[simp] theorem issue_out (gl : GloveRef) : (s.issue gl).out = s.out := by
  simp only [State.issue]; (repeat' split) <;> simp
@[simp] theorem issue_mem (gl : GloveRef) : (s.issue gl).mem = s.mem := by
  simp only [State.issue]; (repeat' split) <;> simp
@[simp] theorem issue_hall (gl : GloveRef) : (s.issue gl).hall = s.hall := by
  simp only [State.issue]; (repeat' split) <;> simp
@[simp] theorem issue_wings (gl : GloveRef) : (s.issue gl).wings = s.wings := by
  simp only [State.issue]; (repeat' split) <;> simp
@[simp] theorem issue_ten (gl : GloveRef) : (s.issue gl).ten = s.ten := by
  simp only [State.issue]; (repeat' split) <;> simp
@[simp] theorem issue_hearth (gl : GloveRef) : (s.issue gl).hearth = s.hearth := by
  simp only [State.issue]; (repeat' split) <;> simp
@[simp] theorem issue_obs (gl : GloveRef) : (s.issue gl).obs = s.obs := by
  simp only [State.issue]; (repeat' split) <;> simp
@[simp] theorem issue_cores (gl : GloveRef) : (s.issue gl).cores = s.cores := by
  simp only [State.issue]; (repeat' split) <;> simp
@[simp] theorem issue_ports (gl : GloveRef) : (s.issue gl).ports = s.ports := by
  simp only [State.issue]; (repeat' split) <;> simp
@[simp] theorem issue_flt (gl : GloveRef) : (s.issue gl).flt = s.flt := by
  simp only [State.issue]; (repeat' split) <;> simp

/-! ### State.nextPc -/

@[simp] theorem nextPc_pending (gl : GloveRef) : (s.nextPc gl).pending = s.pending := rfl
@[simp] theorem nextPc_draws (gl : GloveRef) : (s.nextPc gl).draws = s.draws := rfl
@[simp] theorem nextPc_out (gl : GloveRef) : (s.nextPc gl).out = s.out := rfl
@[simp] theorem nextPc_mem (gl : GloveRef) : (s.nextPc gl).mem = s.mem := rfl
@[simp] theorem nextPc_hall (gl : GloveRef) : (s.nextPc gl).hall = s.hall := rfl
@[simp] theorem nextPc_wings (gl : GloveRef) : (s.nextPc gl).wings = s.wings := rfl
@[simp] theorem nextPc_ten (gl : GloveRef) : (s.nextPc gl).ten = s.ten := rfl
@[simp] theorem nextPc_hearth (gl : GloveRef) : (s.nextPc gl).hearth = s.hearth := rfl
@[simp] theorem nextPc_obs (gl : GloveRef) : (s.nextPc gl).obs = s.obs := rfl
@[simp] theorem nextPc_cores (gl : GloveRef) : (s.nextPc gl).cores = s.cores := rfl
@[simp] theorem nextPc_ports (gl : GloveRef) : (s.nextPc gl).ports = s.ports := rfl
@[simp] theorem nextPc_flt (gl : GloveRef) : (s.nextPc gl).flt = s.flt := rfl

/-! ### State.traceBegin -/

@[simp] theorem traceBegin_pending (gl : GloveRef) : (s.traceBegin gl).pending = s.pending := by simp [State.traceBegin]
@[simp] theorem traceBegin_draws (gl : GloveRef) : (s.traceBegin gl).draws = s.draws := by simp [State.traceBegin]
@[simp] theorem traceBegin_out (gl : GloveRef) : (s.traceBegin gl).out = s.out := by simp [State.traceBegin]
@[simp] theorem traceBegin_mem (gl : GloveRef) : (s.traceBegin gl).mem = s.mem := by simp [State.traceBegin]
@[simp] theorem traceBegin_hall (gl : GloveRef) : (s.traceBegin gl).hall = s.hall := by simp [State.traceBegin]
@[simp] theorem traceBegin_wings (gl : GloveRef) : (s.traceBegin gl).wings = s.wings := by simp [State.traceBegin]
@[simp] theorem traceBegin_ten (gl : GloveRef) : (s.traceBegin gl).ten = s.ten := by simp [State.traceBegin]
@[simp] theorem traceBegin_hearth (gl : GloveRef) : (s.traceBegin gl).hearth = s.hearth := by simp [State.traceBegin]
@[simp] theorem traceBegin_cores (gl : GloveRef) : (s.traceBegin gl).cores = s.cores := by simp [State.traceBegin]
@[simp] theorem traceBegin_ports (gl : GloveRef) : (s.traceBegin gl).ports = s.ports := by simp [State.traceBegin]
@[simp] theorem traceBegin_flt (gl : GloveRef) : (s.traceBegin gl).flt = s.flt := by simp [State.traceBegin]

/-! ### State.traceEnd -/

@[simp] theorem traceEnd_pending (gl : GloveRef) (st : Byte) : (s.traceEnd gl st).pending = s.pending := by simp [State.traceEnd]
@[simp] theorem traceEnd_draws (gl : GloveRef) (st : Byte) : (s.traceEnd gl st).draws = s.draws := by simp [State.traceEnd]
@[simp] theorem traceEnd_out (gl : GloveRef) (st : Byte) : (s.traceEnd gl st).out = s.out := by simp [State.traceEnd]
@[simp] theorem traceEnd_mem (gl : GloveRef) (st : Byte) : (s.traceEnd gl st).mem = s.mem := by simp [State.traceEnd]
@[simp] theorem traceEnd_hall (gl : GloveRef) (st : Byte) : (s.traceEnd gl st).hall = s.hall := by simp [State.traceEnd]
@[simp] theorem traceEnd_wings (gl : GloveRef) (st : Byte) : (s.traceEnd gl st).wings = s.wings := by simp [State.traceEnd]
@[simp] theorem traceEnd_ten (gl : GloveRef) (st : Byte) : (s.traceEnd gl st).ten = s.ten := by simp [State.traceEnd]
@[simp] theorem traceEnd_hearth (gl : GloveRef) (st : Byte) : (s.traceEnd gl st).hearth = s.hearth := by simp [State.traceEnd]
@[simp] theorem traceEnd_cores (gl : GloveRef) (st : Byte) : (s.traceEnd gl st).cores = s.cores := by simp [State.traceEnd]
@[simp] theorem traceEnd_ports (gl : GloveRef) (st : Byte) : (s.traceEnd gl st).ports = s.ports := by simp [State.traceEnd]
@[simp] theorem traceEnd_flt (gl : GloveRef) (st : Byte) : (s.traceEnd gl st).flt = s.flt := by simp [State.traceEnd]

/-! ### State.withdraw -/

@[simp] theorem withdraw_pending (b : BoltIx) (who : BoltParty) : (s.withdraw b who).pending = s.pending := rfl
@[simp] theorem withdraw_draws (b : BoltIx) (who : BoltParty) : (s.withdraw b who).draws = s.draws := rfl
@[simp] theorem withdraw_out (b : BoltIx) (who : BoltParty) : (s.withdraw b who).out = s.out := rfl
@[simp] theorem withdraw_mem (b : BoltIx) (who : BoltParty) : (s.withdraw b who).mem = s.mem := rfl
@[simp] theorem withdraw_hall (b : BoltIx) (who : BoltParty) : (s.withdraw b who).hall = s.hall := rfl
@[simp] theorem withdraw_wings (b : BoltIx) (who : BoltParty) : (s.withdraw b who).wings = s.wings := rfl
@[simp] theorem withdraw_engines (b : BoltIx) (who : BoltParty) : (s.withdraw b who).engines = s.engines := rfl
@[simp] theorem withdraw_hearth (b : BoltIx) (who : BoltParty) : (s.withdraw b who).hearth = s.hearth := rfl
@[simp] theorem withdraw_obs (b : BoltIx) (who : BoltParty) : (s.withdraw b who).obs = s.obs := rfl
@[simp] theorem withdraw_cores (b : BoltIx) (who : BoltParty) : (s.withdraw b who).cores = s.cores := rfl
@[simp] theorem withdraw_ports (b : BoltIx) (who : BoltParty) : (s.withdraw b who).ports = s.ports := rfl
@[simp] theorem withdraw_flt (b : BoltIx) (who : BoltParty) : (s.withdraw b who).flt = s.flt := rfl

/-! ### State.endGloveWait -/

@[simp] theorem endGloveWait_pending (gl : GloveRef) (ok : Bool) : (s.endGloveWait gl ok).pending = s.pending := by
  simp only [State.endGloveWait]; (repeat' split) <;> simp
@[simp] theorem endGloveWait_draws (gl : GloveRef) (ok : Bool) : (s.endGloveWait gl ok).draws = s.draws := by
  simp only [State.endGloveWait]; (repeat' split) <;> simp
@[simp] theorem endGloveWait_out (gl : GloveRef) (ok : Bool) : (s.endGloveWait gl ok).out = s.out := by
  simp only [State.endGloveWait]; (repeat' split) <;> simp
@[simp] theorem endGloveWait_mem (gl : GloveRef) (ok : Bool) : (s.endGloveWait gl ok).mem = s.mem := by
  simp only [State.endGloveWait]; (repeat' split) <;> simp
@[simp] theorem endGloveWait_hall (gl : GloveRef) (ok : Bool) : (s.endGloveWait gl ok).hall = s.hall := by
  simp only [State.endGloveWait]; (repeat' split) <;> simp
@[simp] theorem endGloveWait_ten (gl : GloveRef) (ok : Bool) : (s.endGloveWait gl ok).ten = s.ten := by
  simp only [State.endGloveWait]; (repeat' split) <;> simp
@[simp] theorem endGloveWait_hearth (gl : GloveRef) (ok : Bool) : (s.endGloveWait gl ok).hearth = s.hearth := by
  simp only [State.endGloveWait]; (repeat' split) <;> simp
@[simp] theorem endGloveWait_obs (gl : GloveRef) (ok : Bool) : (s.endGloveWait gl ok).obs = s.obs := by
  simp only [State.endGloveWait]; (repeat' split) <;> simp
@[simp] theorem endGloveWait_cores (gl : GloveRef) (ok : Bool) : (s.endGloveWait gl ok).cores = s.cores := by
  simp only [State.endGloveWait]; (repeat' split) <;> simp
@[simp] theorem endGloveWait_ports (gl : GloveRef) (ok : Bool) : (s.endGloveWait gl ok).ports = s.ports := by
  simp only [State.endGloveWait]; (repeat' split) <;> simp
@[simp] theorem endGloveWait_flt (gl : GloveRef) (ok : Bool) : (s.endGloveWait gl ok).flt = s.flt := by
  simp only [State.endGloveWait]; (repeat' split) <;> simp

end Sys2Proof.Machine
end

