-- ==== Sys2Proof/Laws/Issue.lean ====
section
/-!
SUPPORT. What issuing an instruction leaves of the gloves, and when two updates of a glove agree.
-/
namespace Sys2Proof.Machine

variable (s : State)

theorem vmod_congr {α : Type} {n : Nat} (v : Vector α n) (i : Fin n) (f g : α → α) (h : f v[i.val] = g v[i.val]) :
    vmod v i f = vmod v i g := by
  simp [vmod, h]

/-- Two updates of an engine agree when they do on the engine it holds. -/
theorem modEng_congr (e : EngIx) (f g : Engine → Engine) (h : f (s.eng e) = g (s.eng e)) : s.modEng e f = s.modEng e g := by
  simp only [State.modEng]
  rw [vmod_congr _ _ f g h]

/-- Two updates of a glove agree when they do on the glove it holds. -/
theorem modGlv_congr (gl : GloveRef) (f g : Glove → Glove) (h : f (s.glv gl) = g (s.glv gl)) : s.modGlv gl f = s.modGlv gl g := by
  apply modEng_congr
  rw [vmod_congr _ _ f g h]

/-- An update of an engine that keeps its gloves keeps every glove. -/
theorem modEng_glv (e : EngIx) (f : Engine → Engine) (h : (f (s.eng e)).gloves = (s.eng e).gloves) (x : GloveRef) :
    (s.modEng e f).glv x = s.glv x := by
  by_cases he : x.e = e
  · subst he
    simp [State.glv, h]
  · simp [State.glv, modEng_eng_ne _ _ _ _ he]

@[simp] theorem engCnt_glv (e : EngIx) (i : Fin 21) (k : Nat) (x : GloveRef) : (s.engCnt e i k).glv x = s.glv x := by
  unfold State.engCnt
  split
  · rfl
  · exact modEng_glv s e _ rfl x

/-- The glove that issues: only its time of progress. -/
@[simp] theorem issue_glv (gl : GloveRef) : (s.issue gl).glv gl = { s.glv gl with progressAt := s.hearth.time } := by
  simp only [State.issue, modGlv_glv]
  split
  · simp
  · rw [modEng_glv _ _ _ rfl]
    simp

/-- Another glove is unchanged. -/
theorem issue_glv_ne (gl x : GloveRef) (h : x ≠ gl) : (s.issue gl).glv x = s.glv x := by
  simp only [State.issue]
  rw [modGlv_glv_ne _ _ _ _ h]
  split
  · simp
  · rw [modEng_glv _ _ _ rfl]
    simp

@[simp] theorem nextPc_glv (gl : GloveRef) : (s.nextPc gl).glv gl = { s.glv gl with pc := (s.glv gl).pc + 8 } := modGlv_glv _ _ _

/-- S[n] after a write to it: the value, and zero for S0 (R56). -/
@[simp] theorem setS_sreg (g : Glove) (n : Fin 32) (v : Word) : (g.setS n v).sreg n = if n = 0 then 0 else v := by
  unfold Glove.setS Glove.sreg
  split <;> simp

/-- Another S register is unchanged. -/
theorem setS_sreg_ne (g : Glove) (n m : Fin 32) (v : Word) (h : m ≠ n) : (g.setS n v).sreg m = g.sreg m := by
  unfold Glove.setS Glove.sreg
  by_cases hn : n = 0
  · simp [hn]
  · simp only [if_neg hn]
    rw [vset_get_ne _ _ _ _ h]

@[simp] theorem sreg_progress (g : Glove) (t : Word) (n : Fin 32) : ({ g with progressAt := t } : Glove).sreg n = g.sreg n := rfl
@[simp] theorem opB_progress (g : Glove) (t : Word) (w : JFields) : ({ g with progressAt := t } : Glove).opB w = g.opB w := rfl

/-! ### Trace records and the waking of an engine leave every glove -/

theorem glv_of_engines {s t : State} (h : t.engines = s.engines) (x : GloveRef) : t.glv x = s.glv x := by
  simp [State.glv, State.eng, h]

@[simp] theorem setAttic_glv (c : Fin 17) (l : List (BitVec 128)) (x : GloveRef) : (s.setAttic c l).glv x = s.glv x := by
  unfold State.setAttic
  split
  · exact modEng_glv s _ _ rfl x
  · rfl

@[simp] theorem trace_glv (c : Fin 17) (sync cmd : Bool) (t : Option TenIx) (ty src : Nat) (w : Word) (x : GloveRef) :
    (s.trace c sync cmd t ty src w).glv x = s.glv x := by
  have tch (u : State) (f : Tch → Tch) : (u.modTch c f).glv x = u.glv x := rfl
  have drop (u : State) : (u.dropRecord c).glv x = u.glv x := glv_of_engines (by simp) x
  simp only [State.trace]
  repeat' split
  all_goals simp [tch, drop]

@[simp] theorem engineWake_glv (e : EngIx) (x : GloveRef) : (s.engineWake e).glv x = s.glv x := by
  unfold State.engineWake
  split
  · rfl
  · exact modEng_glv s e _ rfl x

@[simp] theorem report_glv (v : Event) (x : GloveRef) : (s.report v).glv x = s.glv x := glv_of_engines (by simp) x

/-! ### Write-back of the combining buffers -/

/-- Writing lines of a combining buffer back changes only that wing (R29, R43). -/
theorem cleanLines_frame (w : WingIx) (f : CombLine → Bool) :
    (s.cleanLines w f).mem = s.mem ∧ (s.cleanLines w f).engines = s.engines ∧ (s.cleanLines w f).ten = s.ten
      ∧ (s.cleanLines w f).hearth = s.hearth ∧ (s.cleanLines w f).obs = s.obs ∧ (s.cleanLines w f).hall = s.hall
      ∧ (s.cleanLines w f).cores = s.cores ∧ (s.cleanLines w f).ports = s.ports ∧ (s.cleanLines w f).flt = s.flt := by
  simp only [State.cleanLines]
  split <;> simp

/-- The whole buffer of a wing is written back. -/
theorem cleanWing_frame (w : WingIx) :
    (s.cleanWing w).mem = s.mem ∧ (s.cleanWing w).engines = s.engines ∧ (s.cleanWing w).ten = s.ten
      ∧ (s.cleanWing w).hearth = s.hearth ∧ (s.cleanWing w).obs = s.obs ∧ (s.cleanWing w).hall = s.hall
      ∧ (s.cleanWing w).cores = s.cores ∧ (s.cleanWing w).ports = s.ports ∧ (s.cleanWing w).flt = s.flt :=
  cleanLines_frame s w _

end Sys2Proof.Machine
end

