-- ==== Sys2Proof/Laws/Memory.lean ====
section
/-!
SUPPORT. Memory contents: a byte that is written reads back, other bytes stay, and every operation keeps the canonical form.
-/
namespace Sys2Proof.Machine

/-! ### One byte -/

/-- Every address of a list lies above a bound. -/
def above (a : Nat) (l : List Host.Cell) : Prop := ∀ c ∈ l, a < c.1

theorem rising_cons {a : Nat} {l : List Nat} : rising (a :: l) = true ↔ (∀ x ∈ l, a < x) ∧ rising l = true := by
  induction l generalizing a with
  | nil => simp [rising]
  | cons b l ih =>
    simp only [rising, Bool.and_eq_true, decide_eq_true_eq, List.mem_cons, forall_eq_or_imp]
    constructor
    · rintro ⟨h, k⟩
      exact ⟨⟨h, fun x hx => Nat.lt_trans h ((ih.1 k).1 x hx)⟩, k⟩
    · rintro ⟨⟨h, -⟩, k⟩
      exact ⟨h, k⟩

/-- The addresses of a list rise, in terms of its cells. -/
theorem rising_cells_cons {c : Host.Cell} {l : List Host.Cell} :
    rising ((c :: l).map (·.1)) = true ↔ above c.1 l ∧ rising (l.map (·.1)) = true := by
  rw [List.map_cons, rising_cons]
  simp [above]

theorem cellGet_above {l : List Host.Cell} {a : Nat} (h : above a l) : cellGet l a = 0 := by
  induction l with
  | nil => rfl
  | cons c l ih =>
    have hc : a < c.1 := h c (by simp)
    simp only [cellGet]
    rw [if_neg (by omega), ih fun x hx => h x (by simp [hx])]

/-- A written byte reads back. -/
theorem cellGet_put_same {l : List Host.Cell} (a : Nat) (v : Byte) (h : rising (l.map (·.1)) = true) :
    cellGet (cellPut l a v) a = v := by
  induction l with
  | nil => by_cases hv : v = 0#8 <;> simp [cellPut, cellGet, hv]
  | cons c l ih =>
    obtain ⟨k, b⟩ := c
    obtain ⟨hab, hr⟩ := rising_cells_cons.1 h
    simp only [cellPut]
    split
    · rename_i hlt
      have : cellGet ((k, b) :: l) a = 0 := cellGet_above (by
        intro x hx
        rcases List.mem_cons.1 hx with rfl | hx
        · exact hlt
        · exact Nat.lt_trans hlt (hab x hx))
      split <;> simp_all [cellGet]
    · split
      · rename_i h1 h2
        subst h2
        split
        · rename_i hv; rw [cellGet_above hab, hv]
        · simp [cellGet]
      · rename_i h1 h2
        simp only [cellGet]
        rw [if_neg (by omega)]
        exact ih hr

/-- Every other byte stays. -/
theorem cellGet_put_ne {l : List Host.Cell} {a x : Nat} (v : Byte) (hx : x ≠ a) : cellGet (cellPut l a v) x = cellGet l x := by
  induction l with
  | nil => by_cases hv : v = 0#8 <;> simp [cellPut, cellGet, hv, Ne.symm hx]
  | cons c l ih =>
    obtain ⟨k, b⟩ := c
    simp only [cellPut]
    split
    · split
      · rfl
      · simp [cellGet, Ne.symm hx]
    · split
      · rename_i h1 h2
        subst h2
        split <;> simp [cellGet, Ne.symm hx]
      · simp only [cellGet]
        rw [ih]

/-! ### The canonical form -/

theorem above_put {l : List Host.Cell} {k a : Nat} (v : Byte) (h : above k l) (ha : k < a) : above k (cellPut l a v) := by
  induction l with
  | nil => by_cases hv : v = 0#8 <;> simp_all [cellPut, above]
  | cons c l ih =>
    have hc : k < c.1 := h c (by simp)
    have hl : above k l := fun x hx => h x (by simp [hx])
    simp only [cellPut]
    split
    · split
      · exact h
      · intro x hx
        rcases List.mem_cons.1 hx with rfl | hx
        · exact ha
        · exact h x hx
    · split
      · split
        · exact hl
        · intro x hx
          rcases List.mem_cons.1 hx with rfl | hx
          · exact ha
          · exact hl x hx
      · intro x hx
        rcases List.mem_cons.1 hx with rfl | hx
        · exact hc
        · exact ih hl x hx

/-- A write keeps the addresses rising. -/
theorem cellPut_rising {l : List Host.Cell} (a : Nat) (v : Byte) (h : rising (l.map (·.1)) = true) :
    rising ((cellPut l a v).map (·.1)) = true := by
  induction l with
  | nil => by_cases hv : v = 0#8 <;> simp [cellPut, hv, rising]
  | cons c l ih =>
    obtain ⟨k, b⟩ := c
    obtain ⟨hab, hr⟩ := rising_cells_cons.1 h
    simp only [cellPut]
    split
    · rename_i hlt
      split
      · exact h
      · refine rising_cells_cons.2 ⟨?_, h⟩
        intro x hx
        rcases List.mem_cons.1 hx with rfl | hx
        · exact hlt
        · exact Nat.lt_trans hlt (hab x hx)
    · split
      · rename_i h1 h2
        subst h2
        split
        · exact hr
        · exact rising_cells_cons.2 ⟨hab, hr⟩
      · rename_i h1 h2
        have hk : k < a := by omega
        exact rising_cells_cons.2 ⟨above_put v hab hk, ih hr⟩

/-- A write lists no zero byte. -/
theorem cellPut_nonzero {l : List Host.Cell} (a : Nat) (v : Byte) (h : l.all (fun c => c.2 != 0) = true) :
    (cellPut l a v).all (fun c => c.2 != 0) = true := by
  induction l with
  | nil => by_cases hv : v = 0#8 <;> simp [cellPut, hv]
  | cons c l ih =>
    obtain ⟨k, b⟩ := c
    have hc := h
    rw [List.all_cons, Bool.and_eq_true] at hc
    have put (x : Host.Cell) (hx : (x.2 != 0) = true) {m : List Host.Cell} (hm : m.all (fun c => c.2 != 0) = true) :
        (x :: m).all (fun c => c.2 != 0) = true := by rw [List.all_cons, hx, hm]; rfl
    simp only [cellPut]
    split
    · split
      · exact h
      · rename_i hv
        exact put (a, v) (by simpa using hv) h
    · split
      · split
        · exact hc.2
        · rename_i hv
          exact put (a, v) (by simpa using hv) hc.2
      · exact put (k, b) hc.1 (ih hc.2)

theorem rising_filter {l : List Nat} (f : Nat → Bool) (h : rising l = true) : rising (l.filter f) = true := by
  induction l with
  | nil => rfl
  | cons a l ih =>
    obtain ⟨hab, hr⟩ := rising_cons.1 h
    by_cases hf : f a = true
    · rw [List.filter_cons_of_pos hf]
      exact rising_cons.2 ⟨fun x hx => hab x (List.mem_filter.1 hx).1, ih hr⟩
    · rw [List.filter_cons_of_neg hf]
      exact ih hr

theorem mem_addrPut {l : List Nat} {a x : Nat} : x ∈ addrPut l a ↔ x = a ∨ x ∈ l := by
  induction l with
  | nil => simp [addrPut]
  | cons k l ih =>
    simp only [addrPut]
    split
    · simp
    · split
      · rename_i h; subst h; simp
      · simp only [List.mem_cons, ih]
        exact or_left_comm

theorem addrPut_rising {l : List Nat} (a : Nat) (h : rising l = true) : rising (addrPut l a) = true := by
  induction l with
  | nil => rfl
  | cons k l ih =>
    obtain ⟨hab, hr⟩ := rising_cons.1 h
    simp only [addrPut]
    split
    · rename_i hlt
      exact rising_cons.2 ⟨fun x hx => by
        rcases List.mem_cons.1 hx with rfl | hx
        · exact hlt
        · exact Nat.lt_trans hlt (hab x hx), h⟩
    · split
      · exact h
      · rename_i h1 h2
        exact rising_cons.2 ⟨fun x hx => by
          rcases mem_addrPut.1 hx with rfl | hx
          · omega
          · exact hab x hx, ih hr⟩

theorem poisonAfter_rising {p : List Nat} (keys : List Nat) (b : Bool) (h : rising p = true) :
    rising (poisonAfter p keys b) = true := by
  cases b
  · exact rising_filter _ h
  · simp only [poisonAfter, if_true]
    induction keys generalizing p with
    | nil => exact h
    | cons k l ih => exact ih (addrPut_rising _ h)

theorem putBytes_wf {remap : Bool} (bs : List Byte) {l : List Host.Cell} (a : Nat) (h : rising (l.map (·.1)) = true)
    (k : l.all (fun c => c.2 != 0) = true) :
    rising ((putBytes remap l a bs).map (·.1)) = true ∧ (putBytes remap l a bs).all (fun c => c.2 != 0) = true := by
  induction bs generalizing l a with
  | nil => exact ⟨h, k⟩
  | cons b bs ih =>
    simp only [putBytes]
    split
    · exact ih _ (cellPut_rising _ _ h) (cellPut_nonzero _ _ k)
    · exact ih _ h k

theorem wf_iff {m : MemS} : Memory.wf m = true ↔
    rising (m.cells.map (·.1)) = true ∧ m.cells.all (fun c => c.2 != 0) = true ∧ rising m.poison = true := by
  simp [Memory.wf, and_assoc]

/-- Storing bytes keeps the canonical form. -/
theorem poke_wf {s : State} (a : Nat) (bs : List Byte) (b : Bool) (h : Memory.wf s.mem = true) :
    Memory.wf (s.poke a bs b).mem = true := by
  obtain ⟨h1, h2, h3⟩ := wf_iff.1 h
  obtain ⟨k1, k2⟩ := putBytes_wf (remap := s.hall.remap) bs a h1 h2
  exact wf_iff.2 ⟨k1, k2, poisonAfter_rising _ _ h3⟩

theorem rising_map_filter {l : List Host.Cell} (f : Host.Cell → Bool) (h : rising (l.map (·.1)) = true) :
    rising ((l.filter f).map (·.1)) = true := by
  induction l with
  | nil => rfl
  | cons c l ih =>
    obtain ⟨hab, hr⟩ := rising_cells_cons.1 h
    by_cases hf : f c = true
    · rw [List.filter_cons_of_pos hf]
      exact rising_cells_cons.2 ⟨fun x hx => hab x (List.mem_filter.1 hx).1, ih hr⟩
    · rw [List.filter_cons_of_neg hf]
      exact ih hr

/-- Zeroing a range keeps the canonical form. -/
theorem zeroRange_wf {s : State} (lo hi : Nat) (h : Memory.wf s.mem = true) : Memory.wf (s.zeroRange lo hi).mem = true := by
  obtain ⟨h1, h2, h3⟩ := wf_iff.1 h
  refine wf_iff.2 ⟨rising_map_filter _ h1, ?_, rising_filter _ h3⟩
  simp only [State.zeroRange, cellZero, List.all_eq_true, List.mem_filter] at h2 ⊢
  exact fun c hc => h2 c hc.1

end Sys2Proof.Machine
end

