-- ==== Sys2Proof/Laws/Shared.lean ====
section
/-!
SUPPORT. What the operations that many commands share can do: the accesses that wait and the answer of a mailbox.
-/
namespace Sys2Proof.Machine

variable (s : State)

/-! ### Accesses that wait -/

/-- With no access that waits there is nothing to serve. -/
@[simp] theorem serveHeld_nil (h : s.hall.held = []) : s.serveHeld = s := by
  have e : (s.modHall fun x => { x with held := [] }) = s := by
    change ({ s with hall := { s.hall with held := [] } } : State) = s
    rw [← h]
  rw [State.serveHeld, h, e]
  rfl

@[simp] theorem heldLine_nil (h : s.hall.held = []) (keys : List Nat) : s.heldLine keys = false := by simp [State.heldLine, h]
@[simp] theorem writeAhead_nil (h : s.hall.held = []) (p : PortIx) : s.writeAhead p = false := by simp [State.writeAhead, h]

/-- An access that need not wait is served at once. -/
theorem take_serve (a : HeldAcc) (h : s.mustWait a = false) : s.take a = s.serve a := by simp [State.take, h]

/-! ### The answer of a mailbox -/

@[simp] theorem mbInterrupt_mbox (m x : MbIx) : (s.mbInterrupt m).mbox x = s.mbox x := by unfold State.mbInterrupt; split <;> rfl

/-- RSP, DONE_SEQ and BUSY after an answer (R181, R182). -/
theorem mbReply_answered (m : MbIx) (st : MbSt) (v : Nat) : (s.mbReply m st v).answered m (s.mbox m).go st.code v := by
  simp only [State.mbReply, State.answered, mbInterrupt_mbox, modMb_mbox]
  simp [at_]

/-- An answer changes its mailbox, and the port or the interrupt that it signals. -/
theorem mbReply_frame (m : MbIx) (st : MbSt) (v : Nat) :
    let t := s.mbReply m st v
    t.mem = s.mem ∧ t.ten.tenants = s.ten.tenants ∧ t.ten.streams = s.ten.streams ∧ t.ten.leases = s.ten.leases
      ∧ t.ten.bolts = s.ten.bolts ∧ t.engines = s.engines ∧ t.wings = s.wings ∧ t.hall = s.hall ∧ t.hearth = s.hearth
      ∧ ∀ x, x ≠ m → t.mbox x = s.mbox x := by
  simp only [State.mbReply, State.mbInterrupt]
  split <;> exact ⟨rfl, rfl, rfl, rfl, rfl, rfl, rfl, rfl, rfl, fun x hx => modMb_mbox_ne s m x _ hx⟩

/-- GO on a mailbox that is not BUSY acts on the copy of REQ that it takes (R181). -/
theorem go_free (m : MbIx) (v : Word) (f : State → MbOut) (h : s.mbFree m) :
    s.go m v f = (f (if m = 4 then (s.modMb m fun x => x.take v).modCores fun c => { c with mailboxIrq := false }
      else s.modMb m fun x => x.take v)).finish m := by
  simp [State.go, h.1, h.2]

end Sys2Proof.Machine
end

