-- ==== Sys2Proof/Tests/Slice0.lean ====
section
/-!
SUPPORT. Tests: an ill-formed command for each check of well-formedness, instruction words written out from their encodings, and for
each statement of Obligations a state and operands that meet its hypotheses, clause by clause.
-/
set_option Elab.async false
namespace Sys2Proof.Tests
open Sys2Proof.Machine

/-! ### Well-formedness: the refused term of each check -/

def gl0 : GloveRef := ⟨0, 0⟩
def p0 : Pace := ⟨0, false⟩

/-- Fields of an instruction word. -/
def fw (flags a b d imm : Nat) : JFields :=
  ⟨BitVec.ofNat 4 flags, BitVec.ofNat 6 a, BitVec.ofNat 6 b, BitVec.ofNat 6 d, BitVec.ofNat 34 imm⟩

def req0 (tenant w1 w2 w3 : Nat) : MbReq := ⟨0, 7, BitVec.ofNat 6 tenant, BitVec.ofNat 64 w1, BitVec.ofNat 64 w2, BitVec.ofNat 64 w3⟩

theorem test_wf_refuses_assigned_opcode : (Instr.reservedOpcode gl0 0x08 (fw 0 0 0 0 0)).wellFormed = false := by decide
theorem test_wf_refuses_variants : (Instr.suniqCnt gl0 (fw 0 0 0 0 0x40) p0).wellFormed = false
    ∧ (Instr.suniq gl0 (fw 0 0 0 0 0) p0).wellFormed = false ∧ (Instr.sboxRoots gl0 (fw 0 0 0 0 1) p0).wellFormed = false
    ∧ (Instr.sboxFold gl0 (fw 0 0 0 0 2) p0).wellFormed = false ∧ (Instr.sboxFinish gl0 (fw 0 0 0 0 0) p0).wellFormed = false
    ∧ (Instr.snear gl0 (fw 0 0 0 0 0x200) p0).wellFormed = false ∧ (Instr.snearR gl0 (fw 0 0 0 0 0) p0).wellFormed = false := by decide
theorem test_wf_refuses_register_address : (Instr.registerWrite (.port 0) 0x40000004 0).wellFormed = false
    ∧ (Instr.registerWrite (.port 0) 0x4D000000 0).wellFormed = false := by decide
theorem test_wf_refuses_host_requests : (Instr.hostInboundRead 0 0 0x1FFFFFFF 2).wellFormed = false
    ∧ (Instr.hostInboundWrite 0 1 0 [] false).wellFormed = false ∧ (Instr.hostInboundRead 0 1 0xFFE 4).wellFormed = false := by decide
theorem test_wf_refuses_empty_transaction : (Instr.targetGrant (.hall 0) [⟨0, 0, none, 0, 0, 0, false, false, 0, 0, 0⟩]).wellFormed = false := by
  decide
theorem test_wf_refuses_dmi_op : (Instr.dmi 3 0 0).wellFormed = false := by decide
theorem test_wf_refuses_config_offset : (Instr.configurationRequest 0 2 none).wellFormed = false
    ∧ (Instr.configurationRequest 0 4096 none).wellFormed = false := by decide
theorem test_wf_refuses_listed_tap_code : (Instr.bypass 1 false).wellFormed = false := by decide
theorem test_wf_refuses_listed_mailbox_code : (Instr.badRequest (req0 0 0 0 0) 1).wellFormed = false
    ∧ (Instr.badRequest (req0 0 0 0 0) 0x10).wellFormed = false := by decide
theorem test_wf_refuses_link_rates : (Instr.portLinkChange 0 0 4).wellFormed = false
    ∧ (Instr.portLinkChange 0 5 4).wellFormed = false ∧ (Instr.portLinkChange 0 4 3).wellFormed = false := by decide

/-! ### Instruction words from their encodings (R79): opcode, flags, a, b, d, immediate -/

/-- An instruction word with its fields written out bit by bit. -/
def word (op : BitVec 8) (flags : BitVec 4) (a b d : BitVec 6) (imm : BitVec 34) : Word := op ++ flags ++ a ++ b ++ d ++ imm

/-- The worked words of R83: `add s7, s3, #-5` and `bc.lt s3, s4` back by six instructions. -/
theorem test_decode_worked_words : decodeJenli gl0 p0 0x0810C01FFFFFFFFB = .add gl0 (fw 1 3 0 7 0x3FFFFFFFB)
    ∧ decodeJenli gl0 p0 0x0300C40002FFFFFA = .bc gl0 (fw 0 3 4 0 0x2FFFFFA) := by decide
/-- One word of each class: control, tenant bolts, memory, descriptors, scalar memory. -/
theorem test_decode_control_and_memory :
    decodeJenli gl0 p0 (word 0b00000001 0b0000 0 0 0 0x1234) = .endI gl0 (fw 0 0 0 0 0x1234)
    ∧ decodeJenli gl0 p0 (word 0b00011011 0b0000 0b000010 0 0 3) = .bsig gl0 (fw 0 2 0 0 3)
    ∧ decodeJenli gl0 p0 (word 0b00100000 0b0001 0b000101 0 0b100011 0x20) = .ld gl0 (fw 1 5 0 35 0x20) p0
    ∧ decodeJenli gl0 p0 (word 0b00101000 0b0000 0b000101 0 0 7) = .dld gl0 (fw 0 5 0 0 7) p0
    ∧ decodeJenli gl0 p0 (word 0b00110001 0b0000 0b000001 0b000010 0 0b1011) = .sst gl0 (fw 0 1 2 0 11) p0 := by decide
/-- One word of each class: reorder, contraction, vector, spatial, observation. -/
theorem test_decode_arrays :
    decodeJenli gl0 p0 (word 0b01000000 0b0001 0b100000 0 0b100001 0x10000005) = .perm gl0 (fw 1 32 0 33 0x10000005) p0
    ∧ decodeJenli gl0 p0 (word 0b01100000 0b0000 0b100000 0b100001 0b110000 0) = .mma gl0 (fw 0 32 33 48 0) p0
    ∧ decodeJenli gl0 p0 (word 0b01100100 0b1000 0b100010 0b100011 0b100100 0x10000000) = .vadd gl0 (fw 8 34 35 36 0x10000000) p0
    ∧ decodeJenli gl0 p0 (word 0b10001001 0b0000 0b000001 0b100001 0b100010 0x200) = .snearR gl0 (fw 0 1 33 34 0x200) p0
    ∧ decodeJenli gl0 p0 (word 0b10000111 0b0000 0b000001 0b100001 0b100010 3) = .reservedOpcode gl0 0x87 (fw 0 1 33 34 3)
    ∧ decodeJenli gl0 p0 (word 0b10010010 0b0000 0 0 0b000111 1) = .cread gl0 (fw 0 0 0 7 1) p0 := by decide
/-- The opcode table gives no bits to any row. -/
theorem test_no_table_words (n w : Nat) : decodeTableWord n w = none := rfl

/-! ### Small states -/

/-- A room over the whole address space with every permission but HOST. -/
def room0 : Room := ⟨true, 0xF, 0, 0xFFFFFFFFF, 0, false⟩
/-- Tenant 0 is open on port 0 with one room. -/
def open0 : State := State.reset.modTenant 0 fun t => { t with isOpen := true, share := 64, rooms := vset t.rooms 0 room0 }
/-- A launch of tenant 0 runs on glove 0 of engine 0, at PC 0x40 of a region of 4,096 bytes in Hall SRAM. -/
def runG (g : Glove) : Glove :=
  { g with kind := .launch, state := 1, pc := 0x40, regionLen := 0x1000, prog := 0x10000000 }
def runs : State := open0.modGlv gl0 runG
/-- The first instruction of the region, in the instruction buffer of glove 0. -/
def withOp (op : BitVec 8) (w : JFields) (s : State) : State :=
  s.modGlv gl0 fun g => { g with ibuf := [⟨0x40, (packWord op w).setWidth 512, 0⟩] }
/-- The non-tile instruction of an opcode and fields goes on, on glove 0 of a state that holds its word. -/
abbrev goesOn (s : State) (op : BitVec 8) (w : JFields) : Prop := (withOp op w s).mayRun gl0 op w

/-- No tick run of a state waits for a seal when every tick lease is idle. -/
theorem noGrace_of_idle {s : State} (h : ∀ e : EngIx, (s.eng e).tick.phase = .idle) : s.noGrace := by
  intro e d; rw [h e]; nofun

theorem runs_noGrace : runs.noGrace := noGrace_of_idle (by decide)

/-! ### The block as a whole -/

theorem witness_StepRunsTheFrontCommand : ({ State.reset with pending := [.powerOnReset] } : State).pending = [.powerOnReset] := rfl
theorem witness_IdleStepIsAHearthCycle : State.reset.pending = [] ∧ State.reset.hall.held = [] := ⟨rfl, rfl⟩

/-! ### Non-tile instructions -/

theorem witness_ScalarArithmeticResults : ∀ w ∈ [fw 1 3 0 7 0x3FFFFFFFB, fw 0 3 4 0 0], aluLegal w = true
    ∧ ∀ op ∈ [(0x08 : BitVec 8), 0x09, 0x0A, 0x0B, 0x0C, 0x0D, 0x0E, 0x0F, 0x10], goesOn runs op w := by
  simp only [State.mayRun]; decide +kernel

theorem witness_ScalarMoveResults :
    ((clsOf 7).isS = true ∧ goesOn runs 0x11 (fw 0 0 0 7 5)) ∧ goesOn runs 0x12 (fw 0 0 0 7 5)
    ∧ (goesOn runs 0x07 (fw 0 3 4 7 0) ∧ aluLegal (fw 0 3 4 7 0) = true
      ∧ branchCond 0 ((runs.glv gl0).sreg 3) ((runs.glv gl0).opB (fw 0 3 4 7 0)) = some true)
    ∧ goesOn runs 0x15 (fw 0 0 0 7 0x2F) ∧ goesOn runs 0x17 (fw 0 0 0 7 7)
    ∧ ((clsOf 0x3B).isM = true ∧ goesOn runs 0x19 (fw 0 0x3B 0 7 3)) ∧ (imf (fw 0 0 0 7 4) 7 0 ≤ 4 ∧ goesOn runs 0x1E (fw 0 0 0 7 4)) := by
  simp only [State.mayRun]; decide +kernel

theorem witness_RegisterSetupWrites : (clsOf 3).isS = true ∧ goesOn runs 0x14 (fw 0 3 0 0 0x7F) ∧ goesOn runs 0x16 (fw 0 3 0 0 7)
    ∧ ((clsOf 0x3B).isM = true ∧ goesOn runs 0x18 (fw 0 3 0 0x3B 3)) := by
  simp only [State.mayRun]; decide +kernel

/-- S1 holds the address of the first instruction. -/
def runs1 : State := runs.modGlv gl0 fun g => g.setS 1 0x40
theorem witness_ControlTransfers :
    let g := runs1.glv gl0
    let can (op : BitVec 8) (w : JFields) : Bool := (withOp op w runs1).mayIssue gl0 op w
    goesOn runs1 0x00 (fw 0 0 0 0 0) ∧ can 0x02 (fw 0 0 0 0 1) = true ∧ can 0x03 (fw 0 3 4 0 1) = true ∧ can 0x04 (fw 0 0 0 7 1) = true
    ∧ can 0x05 (fw 0 1 0 0 0) = true ∧ can 0x06 (fw 0 1 0 0 1) = true ∧ can 0x06 (fw 0 0 0 0 1) = true
    ∧ (0x40 : Int) ≤ (g.pc.toNat : Int) + 8 * sgn 24 (imf (fw 0 0 0 0 1) 23 0)
    ∧ (g.pc.toNat : Int) + 8 * sgn 24 (imf (fw 0 0 0 0 1) 23 0) < g.regionLen.toNat
    ∧ branchCond 0 (g.sreg 3) (g.sreg 4) = some true ∧ (g.sreg 1).toNat % 8 = 0 ∧ 0x40 ≤ (g.sreg 1).toNat % 2 ^ 32
    ∧ (g.sreg 1).toNat % 2 ^ 32 < g.regionLen.toNat ∧ (clsOf 1).isS = true := by
  simp only [State.mayRun]; decide +kernel

/-- One `vadd` of T0 and T1 into T2 is in flight. -/
def vaddRec : Rec := newRec (runs.glv gl0) .vadd (fw 0 32 33 34 0x10000000) false []
def busy : State := runs.modGlv gl0 fun g => { g with inflight := [vaddRec] }
/-- Bolt 5 belongs to tenant 0, and S2 names it. -/
def bolted (g : Glove → Glove) (b : Bolt → Bolt) : State :=
  (runs.modBolt 5 fun x => b { x with alloc := true, owner := 0 }).modGlv gl0 fun x => g (x.setS 2 5)
theorem witness_WaitingInstructionsBegin : (withOp 0x01 (fw 0 0 0 0 3) runs).mayIssue gl0 0x01 (fw 0 0 0 0 3) = true
    ∧ goesOn runs 0x1C (fw 0 0 0 0 0)
    ∧ (goesOn busy 0x1D (fw 0 0 0 0 4) ∧ (busy.glv gl0).uses (trelT (fw 0 0 0 0 4)) (trelA (fw 0 0 0 0 4)) = true)
    ∧ (goesOn runs 0x1D (fw 0 0 0 0 4) ∧ (runs.glv gl0).uses (trelT (fw 0 0 0 0 4)) (trelA (fw 0 0 0 0 4)) = false)
    ∧ (goesOn (bolted id id) 0x1A (fw 0 2 0 7 1) ∧ ((bolted id id).glv gl0).kind ≠ .tick ∧ imf (fw 0 2 0 7 1) 15 0 ≠ 0
      ∧ (bolted id id).ownsBolt (boltOf ((bolted id id).glv gl0) (fw 0 2 0 7 1)) ((bolted id id).glv gl0).tenant = true) := by
  simp only [State.mayRun]; decide +kernel

theorem witness_WaitsOfAGloveEnd :
    (((runs.modGlv gl0 fun g => { g with wait := .trel 1 0 }).glv gl0).wait = .trel 1 0 ∧ (runs.glv gl0).uses 1 0 = false)
    ∧ ((runs.modGlv gl0 fun g => { g with wait := .fence 0, state := 2 }).glv gl0).state = 2
    ∧ (∀ m ∈ [MasterRef.hall 15 9, MasterRef.wing 3 7 9], runs.hasOpen m = false)
    ∧ (let s := runs.modGlv gl0 fun g => { g with wait := .ending 3 };
      (s.glv gl0).wait = .ending 3 ∧ s.alive = true ∧ (s.glv gl0).inflight = [] ∧ (s.glv gl0).kind = .launch
        ∧ (s.glv gl0).hang.frozen = false ∧ (s.glv gl0).hang.freezing = false ∧ (s.glv gl0).swapping = false) := by decide

/-! ### Bolts -/

def waiter (n : Nat) (dl : Option Nat) : BWaiter := ⟨.glove gl0, BitVec.ofNat 32 n, 0, dl, 0⟩
def boltWaits (count : BitVec 32) (dl : Option Nat) : State :=
  bolted (fun g => { g with wait := .bolt 5 3 dl 0 7 0, state := 2 }) fun b => { b with count := count, fifo := [waiter 3 dl] }
theorem witness_BoltOperations :
    ((bolted id id).ownsBolt 5 ((bolted id id).glv gl0).tenant = true ∧ boltOf ((bolted id id).glv gl0) (fw 0 2 0 0 1) = 5
      ∧ goesOn (bolted id id) 0x1B (fw 0 2 0 0 1) ∧ (bolted id id).fabricOn = true)
    ∧ ((boltWaits 3 none).ownsBolt 5 ((boltWaits 3 none).glv gl0).tenant = true ∧ (boltWaits 3 none).fabricOn = true
      ∧ ((boltWaits 3 none).glv gl0).wait = .bolt 5 3 none 0 7 0 ∧ ((boltWaits 3 none).eng 0).saved[0] = false
      ∧ ((boltWaits 3 none).bolt 5).fifo = [waiter 3 none] ∧ (waiter 3 none).n.toNat ≤ ((boltWaits 3 none).bolt 5).count.toNat)
    ∧ (((boltWaits 2 (some 9)).bolt 5).fifo = [waiter 3 (some 9)]
      ∧ ((boltWaits 2 (some 9)).bolt 5).count.toNat < (waiter 3 (some 9)).n.toNat) := by
  simp only [State.mayRun]; decide +kernel

/-! ### Tile instructions -/

/-- Whether a tile instruction of some fields enters flight on glove 0 of a state that holds its word. -/
abbrev enters (s : State) (op : TOp) (w : JFields) : Prop := (withOp op.code w s).mayEnter gl0 op w []
theorem witness_TileInstructionsEnterFlight : (∀ x ∈ [(TOp.vadd, fw 0 32 33 34 0x10000000), (.mma, fw 0 32 33 48 0), (.sld, fw 0 1 0 7 9)],
    enters runs x.1 x.2 ∧ runs.pcompHit gl0 x.1 x.2 = false) ∧ runs.noGrace :=
  ⟨by simp only [State.mayEnter]; decide +kernel, runs_noGrace⟩
theorem witness_ObservationInstructionsComplete : (runs.glv gl0).inflight = [] ∧ runs.noGrace ∧ enters runs .tmark (fw 0 3 0 0 5)
    ∧ enters runs .cread (fw 0 0 0 7 0) := by
  refine ⟨by decide, runs_noGrace, ?_, ?_⟩ <;> simp only [State.mayEnter] <;> decide +kernel
theorem witness_VectorIntegerElements : (8 = 8 ∨ 8 = 16 ∨ 8 = 32) ∧ 255 < 2 ^ 8 ∧ 0 < 2 ^ 8 := by decide
theorem witness_VectorRowsAreComputed :
    (let w := fw 0 32 33 34 0x10000000;
      enters runs .vadd w ∧ (∀ x, x ≠ 0 → (runs.glv ⟨0, x⟩).inflight = []) ∧ nrows w = 1 ∧ flag52 w = false ∧ flag53 w = false ∧ reuseA w = false ∧ reuseB w = false ∧ (clsOf w.a).isT = true
        ∧ (clsOf w.b).isT = true ∧ (clsOf w.d).isT = true ∧ ((runs.glv gl0).tileOf (clsOf w.a)).bad = 0
        ∧ ((runs.glv gl0).tileOf (clsOf w.b)).bad = 0)
    ∧ (busy.stepsGoOn gl0 = true ∧ (∀ x, x ≠ 0 → (busy.glv ⟨0, x⟩).inflight = []) ∧ (busy.glv gl0).inflight = [vaddRec]
      ∧ (busy.glv gl0).kind = .launch ∧ (busy.glv gl0).dying = none ∧ vaddRec.op = .vadd ∧ vaddRec.row < vaddRec.rows ∧ vaddRec.resp = []) := by
  simp only [State.mayEnter]; decide +kernel
theorem witness_NetworkPassMovesLanes : (List.replicate 256 256).length = 256 ∧ (List.replicate 256 256)[0]? = some 256 :=
  ⟨List.length_replicate, rfl⟩
/-- S1 holds an address in Hall SRAM. -/
def stores : State := runs.modGlv gl0 fun g => g.setS 1 0x10000100
theorem stores_noGrace : stores.noGrace := noGrace_of_idle (by decide)
theorem witness_ScalarStoresAndLoads : enters stores .sst (fw 0 1 2 0 9) ∧ (stores.glv gl0).inflight = []
    ∧ scalarAddr (stores.glv gl0) (fw 0 1 2 0 9) = .ok 0x10000102 ∧ (withOp 0x31 (fw 0 1 2 0 9) stores).glovePath gl0 0x10000102 2 .w = .ok .mem
    ∧ stores.accessFree gl0 0x10000102 2 true ∧ Memory.wf stores.mem = true := by
  simp only [State.mayEnter, State.accessFree]; decide +kernel
theorem witness_ScalarStoresAndLoads_load : enters stores .sld (fw 0 1 0 7 9) ∧ scalarAddr (stores.glv gl0) (fw 0 1 0 7 9) = .ok 0x10000102
    ∧ (withOp 0x30 (fw 0 1 0 7 9) stores).glovePath gl0 0x10000102 2 .r = .ok .mem ∧ stores.accessFree gl0 0x10000102 2 false
    ∧ stores.poisoned 0x10000102 2 = false := by
  simp only [State.mayEnter, State.accessFree]; decide +kernel
theorem open0_noShadow (k : Nat) : ¬open0.inShadow k := by
  have h : ∀ w : WingIx, ∀ i : Fin 4, bitAt ((open0.wing w).det[i.val]).ctl 0 = false := by decide +kernel
  rintro ⟨w, i, a, hh, _⟩
  simp [DetWin.holds, h] at hh

/-- The launch of stream 0 that runs on glove 0. -/
def launch0 : Launch := ⟨0, 0, [(gl0, 0, false)], 0, none, none, false, 0, 0, 0⟩
def launched (f : Glove → Glove) : State := (runs.modGlv gl0 f).modTen fun x => { x with launches := [launch0] }
theorem witness_ReservedOpcodeRaisesIllegalOp : (withOp 0xFF noFields (launched id)).mayIssue gl0 0xFF noFields = true ∧ ((launched id).glv gl0).kind = .launch
    ∧ ((launched id).glv gl0).inflight = []
    ∧ (launched id).launchOf ((launched id).glv gl0).strm ((launched id).glv gl0).cmdIx = some launch0
    ∧ launch0.fault = none ∧ ∀ x ∈ launch0.insts, x.1 = gl0 ∨ x.2.2 = true := by decide +kernel

/-- An `sld` into S7 whose row step is done waits for its response. -/
def sldResp : Resp := ⟨0, .sreg 7, 0x55, false, 0, [⟨0x10000102, 2, false⟩], 1⟩
def sldRec : Rec := { newRec (runs.glv gl0) .sld (fw 0 1 0 7 9) false [] with row := 1, resp := [sldResp] }
def loads : State := (runs.modGlv gl0 fun g => { g with inflight := [sldRec] })
/-- Transaction of Hall master 4 with memory ID 9. -/
def txn0 : Txn := ⟨.hall 0, ⟨4, 0, none, 0, 0x10000000, 64, false, false, 9, 0, 0⟩⟩
/-- A response of an `sld` to Hall SRAM comes back over a link of the wing with all its credits; so does that of another master. -/
theorem loads_credits : ∀ q l, (loads.glv gl0).lastReq = some q → (loads.reqLink gl0 q.addr).map linkBack = some l →
    (loads.link l).rspUsed + flitsFor (!q.write) q.bytes ≤ 124 := by
  intro q l hq hl
  have h1 : (loads.glv gl0).lastReq = some ⟨0x10000102, 2, false⟩ := by decide +kernel
  cases h1.symm.trans hq
  have h2 : (loads.reqLink gl0 0x10000102).map linkBack = some (.hallTo 0) := by decide +kernel
  cases h2.symm.trans hl
  decide +kernel
theorem witness_ResponsesAndFillsArrive :
    (loads.alive = true ∧ (loads.glv gl0).kind = .launch ∧ (loads.glv gl0).dying = none ∧ (loads.glv gl0).inflight = [sldRec] ∧ sldRec.op = .sld
      ∧ sldRec.rows ≤ sldRec.row ∧ sldRec.slots = [] ∧ sldRec.resp = [sldResp] ∧ sldResp.dest = .sreg 7 ∧ sldResp.err = 0
      ∧ sldResp.poisoned = false ∧ sldResp.reqs.drop sldResp.ids = [] ∧ loads.noGrace)
    ∧ ((runs.modHall fun h => { h with txns := [txn0] }).nextTxn (.hall 4 9) = some txn0
      ∧ ∀ l, portLink txn0.port = some l → (runs.link (linkBack l)).rspUsed + flitsFor (!txn0.req.write) txn0.req.bytes ≤ 124)
    ∧ (runs.glv gl0).lineOk 0x40 false = true ∧ (runs.glv gl0).ibuf = [] ∧ (runs.glv gl0).hang.frozen = false
    ∧ (runs.glv gl0).swapping = false ∧ (runs.glv gl0).dying = none
    ∧ runs.glovePath gl0 ((runs.glv gl0).prog + 0x40) 64 .x = .ok .mem
    ∧ runs.accessFree gl0 ((runs.glv gl0).prog + 0x40) 64 false
    ∧ runs.poisoned ((runs.glv gl0).prog + 0x40) 64 = false :=
  ⟨⟨by decide, by decide, by decide, rfl, rfl, by decide, rfl, rfl, rfl, rfl, rfl, rfl, noGrace_of_idle (by decide)⟩,
    ⟨by decide +kernel, fun l hl => by cases hl⟩, by decide, by decide, by decide, by decide, by decide,
    by decide +kernel, by simp only [State.accessFree]; decide +kernel, by simp [State.poisoned, runs, open0, State.reset]⟩

/-! ### Tables of 512 entries: a check of the whole table answers for each entry -/

theorem leases_all {s : State} {p : Lease → Bool} (h : s.ten.leases.toList.all p = true) (x : LeaseIx) : p (s.lease x) = true :=
  List.all_eq_true.1 h _ (by simp [State.lease])
theorem streams_all {s : State} {p : Stream → Bool} (h : s.ten.streams.toList.all p = true) (x : StrmIx) : p (s.stream x) = true :=
  List.all_eq_true.1 h _ (by simp [State.stream])
theorem leasesOn_nil {s : State} (h : s.ten.leases.toList.all (fun l => !l.valid) = true) (k e : Nat) : s.leasesOn k e = [] := by
  simp only [State.leasesOn, List.filter_eq_nil_iff]; intro x _
  have := leases_all h x; simp at this; simp [this]
theorem holder_none {s : State} (h : s.ten.leases.toList.all (fun l => l.resident.isNone) = true) (gl : GloveRef) : s.holder gl = none := by
  simp only [State.holder, List.find?_eq_none]; intro x _
  have := leases_all h x; simp at this; simp [this]
theorem leaseClaimed_no {s : State} (h : s.ten.streams.toList.all (fun l => l.cmds.isEmpty) = true) (b : Option (StrmIx × BitVec 32))
    (l : LeaseIx) : s.leaseClaimed b l = false := by
  simp only [State.leaseClaimed, List.any_eq_false]; intro x _
  have := streams_all h x; simp at this; simp [this]
theorem ready_none {s : State} (h : s.ten.streams.toList.all (fun l => l.ready.isNone) = true) (m : StrmIx) : (s.stream m).ready = none := by
  have := streams_all h m; simpa using this
theorem readyList_nil {s : State} (h : s.ten.streams.toList.all (fun l => l.ready.isNone) = true) : s.readyList = [] := by
  simp only [State.readyList, List.filterMap_eq_nil_iff]; intro x _
  simp [ready_none h x]
theorem nextSaved_none {s : State} (h : s.ten.leases.toList.all (fun l => l.savedRun.isNone) = true) (e : EngIx) : s.nextSaved e = none := by
  have hl : (allFin 512).filterMap (fun n : LeaseIx => if (s.lease n).valid && (s.lease n).engine == e then
      (s.lease n).savedRun.map fun r => (n, r) else none) = [] := by
    rw [List.filterMap_eq_nil_iff]; intro x _
    have := leases_all h x; simp at this; simp [this]
  unfold State.nextSaved
  rw [hl]; rfl
theorem others_ready {s : State} (h : s.ten.streams.toList.all (fun l => l.ready.isNone) = true) (n : StrmIx) (f : Stream → Stream) :
    ∀ m, m ≠ n → ((s.modStream n f).stream m).ready = none := fun m hm => by rw [modStream_stream_ne s n m f hm]; exact ready_none h m
theorem no_freeing {s : State} (h : s.ten.leases.toList.all (fun l => l.freeing.isNone) = true) (x : LeaseIx) : (s.lease x).freeing = none := by
  have := leases_all h x; simpa using this

/-! ### Mailbox requests -/

/-- A request of mailbox 0 for tenant 0. -/
def req1 (w1 w2 w3 : Nat) : MbReq := req0 0 w1 w2 w3
theorem open0_acts (a b c : Nat) : open0.mbFree (req1 a b c).mb ∧ open0.actsFor (req1 a b c) := by
  have h : (open0.tenant 0).isOpen = true ∧ (open0.tenant 0).port = 0 ∧ (open0.tenant 0).evicting = false := by decide
  exact ⟨by simp only [State.mbFree, req1, req0]; decide, h⟩

theorem witness_MailboxOpenShareAndBadRequest :
    (open0.mbFree 0 ∧ (∀ x ∈ open0.portTenants 0, (open0.tenant x).evicting = false) ∧ (open0.portTenants 0).length < open0.qTenants 0
      ∧ (255 : Nat) ≤ open0.qShare 0 ∧ open0.qApprove 0 = false ∧ (open0.tenant 1).isOpen = false
      ∧ ∀ x < (1 : TenIx), (open0.tenant x).isOpen = true)
    ∧ (open0.mbFree (req1 255 0 0).mb ∧ open0.actsFor (req1 255 0 0) ∧ (req1 255 0 0).w1.extractLsb' 0 8 ≠ 0
      ∧ ((req1 255 0 0).w1.extractLsb' 0 8).toNat ≤ open0.qShare 0)
    ∧ (Instr.badRequest (req1 0 0 0) 0x0C).wellFormed = true ∧ (Instr.badRequest (req1 0 0 0) 0xFF).wellFormed = true := by
  refine ⟨⟨(open0_acts 0 0 0).1, ?_⟩, ⟨(open0_acts 255 0 0).1, (open0_acts 255 0 0).2, ?_⟩, ?_⟩ <;> decide

/-- A host-ring stream of class 1 of tenant 0. -/
def strm1 : Stream := { Stream.closed with isOpen := true, tenant := 0, cls := 1, qos := 4, vector := 4, ringBase := 0x1000, complBase := 0x2000 }
def withStream (f : Stream → Stream) : State := open0.modStream 0 fun _ => f strm1
theorem withStream_acts (f : Stream → Stream) (a b c : Nat) : (withStream f).mbFree (req1 a b c).mb ∧ (withStream f).actsFor (req1 a b c) :=
  open0_acts a b c

/-- W1 of ROOM_SET for room 15 with R and W; of STREAM_SET for stream 0, QOS 4, vector 127; of STREAM_OPEN; of BOLT_FREE. -/
theorem witness_MailboxRoomsStreamsAndBolts :
    (open0.mbFree (req1 0x3F 0x1000 0xFFFFFFFFFFFF).mb ∧ open0.actsFor (req1 0x3F 0x1000 0xFFFFFFFFFFFF)
      ∧ (let r := req1 0x3F 0x60000000 0xFFFFFFFFFFFF
        r.w1.extractLsb' 4 5 ≠ 0 ∧ r.w2.extractLsb' 0 12 = 0 ∧ r.w3.extractLsb' 0 12 = 0xFFF ∧ r.w2.extractLsb' 48 16 = 0
        ∧ r.w3.extractLsb' 48 16 = 0 ∧ r.w2.toNat ≤ r.w3.toNat ∧ open0.roomAllowed (reqTen r) 15 (reqRoom (reqWords 0x03 r)) = true))
    ∧ (req1 0xF 0 0).w1.extractLsb' 4 5 = 0
    ∧ ((withStream id).mbFree (req1 0x3F8800 0 0).mb ∧ (withStream id).actsFor (req1 0x3F8800 0 0)
      ∧ ((withStream id).stream 0).isOpen = true ∧ ((withStream id).stream 0).tenant = reqTen (req1 0x3F8800 0 0)
      ∧ reqLow9 (req1 0x3F8800 0 0) = 0 ∧ qosOk 1 ((req1 0x3F8800 0 0).w1.extractLsb' 9 4).toNat = true
      ∧ 4 ≤ ((req1 0x3F8800 0 0).w1.extractLsb' 15 7).toNat)
    ∧ (∀ r ∈ [req1 0xF9811 0x1000 0x2000, req1 0xF9911 0x10001000 0x10002000],
      (r.w1.extractLsb' 9 4).toNat ≤ 12 ∧ 4 ≤ (r.w1.extractLsb' 13 7).toNat
      ∧ qosOk (r.w1.extractLsb' 0 2).toNat (r.w1.extractLsb' 2 4).toNat = true ∧ r.w1.extractLsb' 0 2 ≠ 0
      ∧ open0.ringsOk { Stream.closed with loc := r.w1.getLsbD 8, logSize := r.w1.extractLsb' 9 4, ringBase := r.w2, complBase := r.w3 } = true
      ∧ (open0.stream 0).isOpen = false)
    ∧ (∀ x < (0 : StrmIx), (open0.stream x).isOpen = true) := by
  refine ⟨⟨(open0_acts _ _ _).1, (open0_acts _ _ _).2, ?_⟩, ?_, ⟨(withStream_acts _ _ _ _).1, (withStream_acts _ _ _ _).2, ?_⟩, ?_,
    fun x hx => absurd hx (Fin.not_lt_zero x)⟩ <;> decide +kernel

theorem tenStreams_nil {s : State} (h : s.ten.streams.toList.all (fun x => !x.isOpen) = true) (t : TenIx) : s.tenStreams t = [] := by
  simp only [State.tenStreams, List.filter_eq_nil_iff]; intro x _
  have := streams_all h x; simp at this; simp [this]
/-- Bolts 4095 and below: a run of two bolts at the top of the table belongs to tenant 0. -/
def bolts2 : State := (open0.modBolt 4094 fun b => { b with alloc := true }).modBolt 4095 fun b => { b with alloc := true }
theorem bolts2_acts : bolts2.mbFree (req1 0x1FFE 0 0).mb ∧ bolts2.actsFor (req1 0x1FFE 0 0) := by
  simp only [State.mbFree, State.actsFor, req1, req0]; decide +kernel
theorem open0_bolt (b : BoltIx) : open0.bolt b = Bolt.free := by simp [open0, State.bolt, State.modTenant, State.modTen, State.reset, Tenancy.reset]
theorem freeBolts : open0.freeRun 128 = some 0 := by decide +kernel
theorem qBolts0 : open0.qBolts 0 = 4096 := rfl
theorem noBolts : open0.portBolts 0 = 0 := by decide +kernel
/-- STREAM_OPEN of class 0 by a tenant that holds a tick lease. -/
theorem witness_MailboxRoomsStreamsAndBolts_tick : (req1 0xF9838 0x1000 0x2000).w1.extractLsb' 0 2 = 0
    ∧ qosOk 0 ((req1 0xF9838 0x1000 0x2000).w1.extractLsb' 2 4).toNat = true
    ∧ (open0.modLease 0 fun _ => { Lease.free with valid := true, kind := 2, emask := 1 }).tenHoldsTick 0 = true := by
  refine ⟨by decide, by decide, List.any_eq_true.2 ⟨0, List.mem_filter.2 ⟨List.mem_finRange 0, ?_⟩, ?_⟩⟩ <;> decide +kernel
theorem witness_MailboxRoomsStreamsAndBolts_quotas :
    ((open0.portTenants 0).map fun u => (open0.tenStreams u).length).sum < open0.qStreams 0
    ∧ (((req1 0x700000007F 0 0).w1.extractLsb' 0 7).toNat + 1 = 128 ∧ open0.portBolts 0 + 128 ≤ open0.qBolts 0
      ∧ open0.freeRun 128 = some 0)
    ∧ (bolts2.mbFree (req1 0x1FFE 0 0).mb ∧ bolts2.actsFor (req1 0x1FFE 0 0) ∧ (4094 : Nat) + ((req1 0x1FFE 0 0).w1.extractLsb' 12 7).toNat + 1 ≤ 4096
      ∧ ((req1 0x1FFE 0 0).w1.extractLsb' 0 12).toNat = 4094
      ∧ ∀ b : BoltIx, 4094 ≤ b.val → b.val < 4096 → bolts2.ownsBolt b 0 = true ∧ (bolts2.bolt b).fifo = []) := by
  refine ⟨?_, ⟨by decide, by rw [noBolts, qBolts0]; decide, freeBolts⟩, bolts2_acts.1, bolts2_acts.2, Nat.le_of_ble_eq_true rfl, by decide, ?_⟩
  · have : (fun u => (open0.tenStreams u).length) = fun _ => 0 := funext fun u => by rw [tenStreams_nil (by decide +kernel)]; rfl
    rw [this]; decide
  · intro b h1 h2
    have hb : b = 4094 ∨ b = 4095 := by
      rcases Nat.lt_or_ge b.val 4095 with h | h
      · left; apply Fin.ext; show b.val = 4094; omega
      · right; apply Fin.ext; show b.val = 4095; omega
    have h4 : bolts2.bolt 4094 = { Bolt.free with alloc := true } := by
      rw [bolts2, modBolt_bolt_ne _ _ _ _ (by decide), modBolt_bolt, open0_bolt]
    have h5 : bolts2.bolt 4095 = { Bolt.free with alloc := true } := by
      rw [bolts2, modBolt_bolt, modBolt_bolt_ne _ _ _ _ (by decide), open0_bolt]
    rcases hb with rfl | rfl
    · rw [State.ownsBolt, h4]; decide
    · rw [State.ownsBolt, h5]; decide

/-- Save slots of wing 0; lease 0 is a glove lease of tenant 0 on engine 0, its context resident on glove 1. -/
def saves : State := open0.modTen fun t => { t with save := vset t.save 0 (0x10100000 ||| (8 <<< 48)) }
def leaseOf (k : BitVec 2) : Lease := { Lease.free with valid := true, kind := k, emask := 1 }
def leased (f : Lease → Lease) : State := saves.modLease 0 fun _ => f (leaseOf 0)
theorem witness_MailboxLeaseAndLeaseFree :
    (let r := req1 0 0 0;
      saves.mbFree r.mb ∧ saves.actsFor r ∧ r.w1.extractLsb' 0 2 = 0 ∧ (r.w1.extractLsb' 2 8).toNat = (0 : EngIx).val ∧ r.w2.extractLsb' 0 16 = 0
      ∧ saves.qEngine r.mb 0 = true ∧ saves.qApprove r.mb = false ∧ saves.leasesOn 1 0 = [] ∧ (saves.leasesOn 0 0).length < 16
      ∧ saves.freeSlot (wingOf 0) = some 0 ∧ (saves.lease 0).valid = false ∧ ∀ x < (0 : LeaseIx), (saves.lease x).valid = true)
    ∧ (let r := req1 0 0 0;
      (leased id).mbFree r.mb ∧ (leased id).actsFor r ∧ ((leased id).lease (reqLow9 r)).valid = true
      ∧ ((leased id).lease (reqLow9 r)).tenant = reqTen r ∧ ((leased id).lease (reqLow9 r)).kind = 0
      ∧ (leased id).leaseWork (reqLow9 r) = false ∧ (∀ x, ((leased id).lease x).freeing = none)
      ∧ ∀ x, ((leased id).stream x).isOpen = true → ((leased id).stream x).abort = false) := by
  refine ⟨⟨(open0_acts 0 0 0).1, (open0_acts 0 0 0).2, by decide +kernel, by decide +kernel, by decide +kernel, by decide +kernel, by decide +kernel, leasesOn_nil (by decide +kernel) _ _, ?_,
    by decide +kernel, by decide +kernel, fun x hx => absurd hx (Fin.not_lt_zero x)⟩, (open0_acts 0 0 0).1, (open0_acts 0 0 0).2, by decide +kernel, by decide +kernel, by decide +kernel,
    by decide +kernel, no_freeing (by decide +kernel), fun x _ => ?_⟩
  · rw [leasesOn_nil (by decide +kernel)]; decide
  · simpa using streams_all (s := leased id) (p := fun l => !l.abort) (by decide +kernel) x

/-- Tenant 0 is EVICTING. -/
def evicts : State := open0.modTenant 0 fun t => { t with evicting := true }
theorem open0_bare (t : TenIx) : open0.tenBare t ∧ evicts.tenBare t := by
  have h : open0.tenBare t := ⟨fun n h => by simpa [h] using streams_all (s := open0) (p := fun l => !l.isOpen) (by decide +kernel) n,
    fun n h => by simpa [h] using leases_all (s := open0) (p := fun l => !l.valid) (by decide +kernel) n⟩
  exact ⟨h, h⟩
theorem witness_TenantsAndStreamsClose :
    (open0.tenBare (reqTen (req1 0 0 0)) ∧ open0.mbFree (req1 0 0 0).mb ∧ open0.actsFor (req1 0 0 0)
      ∧ (req1 0 0 0).mb = mgrMb open0.hearth.mgrSel)
    ∧ (evicts.tenBare 0 ∧ evicts.fabricOn = true ∧ (evicts.tenant 0).evicting = true)
    ∧ (let s := open0.modTen fun t => { t with pend := 0x10 };
      s.fabricOn = true ∧ s.isManager (.port 0) = true ∧ s.ten.pend.getLsbD (4 : MbIx).val = true)
    ∧ (let s := withStream id;
      let n := reqLow9 (req1 0 0 0)
      (s.stream n).isOpen = true ∧ (s.stream n).tenant = reqTen (req1 0 0 0) ∧ (s.stream n).cmds = [] ∧ (s.stream n).fetchIx = (s.stream n).tail
      ∧ s.mbFree (req1 0 0 0).mb ∧ s.actsFor (req1 0 0 0) ∧ (s.stream n).reply = none ∧ s.fabricOn = true)
    ∧ ((withStream fun st => { st with reply := some 0 }).stream 0).reply = some 0 :=
  ⟨⟨(open0_bare _).1, (open0_acts _ _ _).1, (open0_acts _ _ _).2, by decide⟩, ⟨(open0_bare _).2, by decide, by decide⟩, by decide,
    ⟨by decide, by decide, by decide, by decide, (open0_acts _ _ _).1, (open0_acts _ _ _).2, by decide, by decide⟩, by decide⟩

/-! ### Streams -/

/-- Whether a read of a header is answered with a header that passes a check. -/
def okHead (r : Res (ProgHead × State)) (p : ProgHead → Bool) : Bool :=
  match r with
  | .ok x => p x.1
  | _ => false
theorem okHead_some {r : Res (ProgHead × State)} {p : ProgHead → Bool} (h : okHead r p = true) : ∃ h t, r = .ok (h, t) ∧ p h = true := by
  unfold okHead at h
  split at h
  · exact ⟨_, _, rfl, h⟩
  · cases h

/-- A command record from its fields: byte offset and value. -/
def recOf (l : List (Nat × Nat)) : BitVec 512 := BitVec.ofNat 512 (l.map fun x => x.2 * 2 ^ (8 * x.1)).sum

/-- The doorbell page: TAIL at SIZE entries past HEAD is the last that is taken, one further the first that is not. -/
theorem witness_DoorbellPageWrites : (withStream id).doorOpen (.port 0) 0 = true ∧ ((withStream id).stream 0).size = 16
    ∧ ((16 : BitVec 32) - ((withStream id).stream 0).head).toNat ≤ ((withStream id).stream 0).size
    ∧ (((withStream id).stream 0).tail - ((withStream id).stream 0).head).toNat ≤ ((16 : BitVec 32) - ((withStream id).stream 0).head).toNat
    ∧ ((withStream id).stream 0).size < ((17 : BitVec 32) - ((withStream id).stream 0).head).toNat
    ∧ ((withStream id).stream 0).cmds = [] ∧ ((withStream id).stream 0).fetchIx = ((withStream id).stream 0).tail := by decide

/-- One record waits in the ring; port 0 carries requests. -/
def rings (loc : Bool) : State :=
  (withStream fun st => { st with tail := 1, loc := loc, ringBase := if loc then 0x10000000 else 0x1000 }).modPort 0 fun p => { p with lstate := 1 }
theorem witness_CommandFetchTakesTheRecord :
    (((rings false).mayFetch 0 = true ∧ ((rings false).stream 0).loc = false) ∧ (rings false).ringReach 0 = true)
    ∧ ((rings true).mayFetch 0 = true ∧ ((rings true).stream 0).loc = true ∧ (rings true).ready none 0x10000000 = .ok)
    ∧ ((rings true).stream 0).ringBase.toNat + 64 * (((rings true).stream 0).fetchIx.toNat % 2 ^ (((rings true).stream 0).logSize.toNat + 4))
      = 0x10000000 := by decide
theorem witness_CommandFetch_poison : (rings true).poisoned 0x10000000 64 = false := by
  simp [State.poisoned, rings, withStream, open0, State.reset]

/-- Stream 0 holds one command, of a record. -/
def cmdOf (r : BitVec 512) : Cmd := newCmd 0 r
def begunOf (r : BitVec 512) : Cmd := { cmdOf r with phase := .started, boundAt := 40 }
def holds (s : State) (c : Cmd) : State := s.modStream 0 fun _ => { strm1 with cmds := [c], fetchIx := 1, tail := 1 }

theorem witness_TheReadyCommandIsBound :
    let c := cmdOf (recOf [(0, 8)])
    let s := holds open0 c
    s.fabricOn = true ∧ (s.stream 0).ready = some c ∧ (∀ m, m ≠ 0 → (s.stream m).ready = none) ∧ s.bindable 0 c = true ∧ ∀ e, s.nextSaved e = none :=
  ⟨by decide +kernel, by decide +kernel, others_ready (by decide +kernel) 0 _, by decide +kernel, nextSaved_none (by decide +kernel)⟩

/-! ### Commands of a stream -/

/-- Lease 0 is a glove lease with its context on glove 0 of engine 0; a program stands at 0x1000_0000, descriptors of tensors of 64 bytes
at 0x1000_1000 and 0x1000_1040. -/
def head1 (flags : Nat) : List Byte := toBytes 24 (0x4C4E454A + 2 ^ 32 * (1 + 2 ^ 16 + 2 ^ 24) + 0x40 * 2 ^ 64 + 0x1000 * 2 ^ 96 + flags * 2 ^ 160)
def desc1 (base : Nat) : List Byte := toBytes 64 (base + 2 ^ 48 + 64 * 2 ^ 64)
def home (c : Cmd) : State :=
  holds ((((leased fun l => { l with resident := some 0 }).poke 0x10000000 (head1 0)).poke 0x10001000 (desc1 0x10010000)).poke 0x10001040
    (desc1 0x10020000)) c
def launchC : Cmd := begunOf (recOf [(0, 1), (8, 0x10000000), (0x18, 7)])
def copyC (len : Nat) : Cmd := begunOf (recOf [(0, 2), (8, 0x10010000), (0x10, 0x10020000), (0x18, len)])
def relayC : Cmd := begunOf (recOf [(0, 3), (8, 0x10001000), (0x10, 0x10001040)])

theorem witness_GloveCommandsStart_launch :
    let s := home launchC
    (s.homeOf 0 launchC gl0 ∧ s.noGrace ∧ s.begun 0 launchC 1 ∧ s.progPlace (s.stream 0).tenant (recFld launchC.record 8 8) = true)
    ∧ (∃ h t, s.readHead (s.stream 0) (recFld launchC.record 8 8) = .ok (h, t)
      ∧ (h.ok && h.engines == 1 && h.gloves == 1) = true)
    ∧ ∀ l, s.cmdLease 0 launchC = some l → (s.lease l).emask = 1 <<< gl0.e.val := by
  refine ⟨⟨⟨0, by decide +kernel, by decide +kernel, by decide +kernel, by decide +kernel, by decide +kernel, by decide +kernel⟩,
    noGrace_of_idle (by decide +kernel), ⟨by decide +kernel, by decide +kernel, rfl, by decide +kernel⟩, by decide +kernel⟩,
    okHead_some (by decide +kernel), fun l hl => ?_⟩
  have : (home launchC).cmdLease 0 launchC = some 0 := by decide +kernel
  cases this.symm.trans hl
  decide +kernel
theorem witness_GloveCommandsStart_copy :
    let c := copyC (2 ^ 40)
    (home c).homeOf 0 c gl0 ∧ (home c).noGrace ∧ (home c).begun 0 c 2 ∧ recFld c.record 0x18 8 = 2 ^ 40 :=
  ⟨⟨0, by decide +kernel, by decide +kernel, by decide +kernel, by decide +kernel, by decide +kernel, by decide +kernel⟩,
    noGrace_of_idle (by decide +kernel), ⟨by decide +kernel, by decide +kernel, rfl, by decide +kernel⟩, by decide +kernel⟩
theorem witness_GloveCommandsStart_relayout :
    let s := home relayC
    let t := s.startLaunch 0 relayC 0 .relayout [gl0] 0 .none
    let k : Desc := BitVec.ofNat 512 (ofBytes (s.physBytes 0x10001000 64))
    let d : Desc := BitVec.ofNat 512 (ofBytes (s.physBytes 0x10001040 64))
    s.homeOf 0 relayC gl0 ∧ s.noGrace ∧ s.begun 0 relayC 3 ∧ s.cmdLease 0 relayC = some 0
    ∧ recFld relayC.record 0x08 8 = 0x10001000 ∧ recFld relayC.record 0x10 8 = 0x10001040 ∧ t.glovePath gl0 0x10001000 64 .r = .ok .mem
    ∧ t.glovePath gl0 0x10001040 64 .r = .ok .mem ∧ s.poisoned 0x10001000 64 = false ∧ s.poisoned 0x10001040 64 = false
    ∧ relayoutCheck (relayoutFields relayC) k d = none ∧ relayoutRows (relayoutFields relayC) k ≠ 0 ∧ s.hall.held = [] :=
  ⟨⟨0, by decide +kernel, by decide +kernel, by decide +kernel, by decide +kernel, by decide +kernel, by decide +kernel⟩,
    noGrace_of_idle (by decide +kernel), ⟨by decide +kernel, by decide +kernel, rfl, by decide +kernel⟩, by decide +kernel⟩

/-- Bolt 5 belongs to tenant 0; stream 0 holds a scheduler command of a kind. -/
def sched (c : Cmd) : State := holds (open0.modBolt 5 fun b => { b with alloc := true, owner := 0 }) c
def schedC (kind : Nat) : Cmd := begunOf (recOf [(0, kind), (8, 5), (0x0C, 3), (0x10, 9)])
theorem schedC_begun : ∀ kind ∈ [4, 5, 8, 9, 0, 10, 255], (sched (schedC kind)).fabricOn = true
    ∧ ((sched (schedC kind)).stream 0).cmd? (schedC kind).index = some (schedC kind) ∧ (schedC kind).phase = .started
    ∧ recKind (schedC kind).record = kind ∧ (sched (schedC kind)).olderOpen 0 (schedC kind).index = false := by decide +kernel
theorem witness_SchedulerCommandsRun : ∀ kind ∈ [4, 5], recBolt (schedC kind).record = some 5
    ∧ (sched (schedC kind)).ownsBolt 5 ((sched (schedC kind)).stream 0).tenant = true ∧ recFld (schedC kind).record 0x0C 4 ≠ 0
    ∧ (sched (schedC kind)).begun 0 (schedC kind) kind ∧ (sched (schedC kind)).olderOpen 0 (schedC kind).index = false := by
  intro kind h
  have h1 := schedC_begun kind (by simp at h ⊢; omega)
  have h2 : ∀ kind ∈ [4, 5], recBolt (schedC kind).record = some 5
    ∧ (sched (schedC kind)).ownsBolt 5 ((sched (schedC kind)).stream 0).tenant = true ∧ recFld (schedC kind).record 0x0C 4 ≠ 0 := by
    decide +kernel
  have h3 := h2 kind h
  exact ⟨h3.1, h3.2.1, h3.2.2, ⟨h1.1, h1.2.1, h1.2.2.1, h1.2.2.2.1⟩, h1.2.2.2.2⟩

/-- Lease 0 is a tick lease of page 0 of wing 0 on engine 0, with a program that fits it; stream 0 has class 0. -/
def tickHome (c : Cmd) (f : TickS → TickS) : State :=
  ((((open0.modLease 0 fun _ => { leaseOf 2 with pages := 1 }).poke 0x20000000 (head1 1)).modStream 0 fun _ =>
    { strm1 with cls := 0, cmds := [c], fetchIx := 1, tail := 1 })).modTick 0 f
def armC : Cmd := begunOf (recOf [(0, 6), (8, 0x20000000), (0x12, 3), (0x1C, 5)])
def disarmC : Cmd := begunOf (recOf [(0, 7)])
theorem witness_TickLeasesArm :
    let s := tickHome armC id
    (s.cmdLease 0 armC = some 0 ∧ s.begun 0 armC 6 ∧ s.armFields 0 armC 0 = true ∧ s.armBusy 0 3 0 = false ∧ recFld armC.record 0x12 1 % 4 = 3
      ∧ s.progPlace (s.stream 0).tenant (recFld armC.record 8 8) = true)
    ∧ ∃ h t, s.readHead (s.stream 0) (recFld armC.record 8 8) = .ok (h, t)
      ∧ (h.ok && h.flags % 2 == 1 && h.engines == 1 && h.gloves == 1
        && decide (recFld armC.record 8 8 + h.regionLen ≤ (s.lease 0).pageRange.2)
        && decide (h.regionLen + h.residentData ≤ (s.lease 0).quota)) = true :=
  ⟨⟨by decide +kernel, ⟨by decide +kernel, by decide +kernel, rfl, by decide +kernel⟩, by decide +kernel⟩, okHead_some (by decide +kernel)⟩
theorem witness_TickLeasesDisarm : ∀ f ∈ [id, fun t : TickS => { t with armed := true, lease := 0 }],
    let s := tickHome disarmC f
    s.cmdLease 0 disarmC = some 0 ∧ (s.fabricOn = true ∧ (s.stream 0).cmd? 0 = some disarmC ∧ recKind disarmC.record = 7)
      ∧ (s.lease 0).kind = 2 ∧ (s.stream 0).cls = 0 ∧ (s.eng 0).tick.lease = 0 ∧ (s.eng 0).tick.disarm = none ∧ (s.eng 0).tick.phase = .idle
      ∧ (s.glv (tickGlove 0)).hang.frozen = false ∧ s.ten.leases.toList.all (fun l => l.freeing.isNone) = true := by decide +kernel
theorem witness_TickLeasesArmAndDisarm : (tickHome disarmC id).begun 0 disarmC 7 ∧ ((tickHome disarmC id).eng 0).tick.armed = false
    ∧ (let s := tickHome disarmC fun t => { t with armed := true, lease := 0 };
      s.begun 0 disarmC 7 ∧ (s.eng 0).tick.armed = true ∧ ∀ x, (s.lease x).freeing = none) :=
  ⟨⟨by decide +kernel, by decide +kernel, rfl, by decide +kernel⟩, by decide +kernel,
    ⟨by decide +kernel, by decide +kernel, rfl, by decide +kernel⟩, by decide +kernel,
    no_freeing (witness_TickLeasesDisarm _ (List.mem_cons_of_mem _ (List.mem_singleton.2 rfl))).2.2.2.2.2.2.2.2⟩

/-- A command of a host-ring stream has done its work; port 0 carries requests. -/
def doneC : Cmd := { begunOf (recOf [(0, 8)]) with phase := .done, status := 1 }
def finished : State := (holds open0 doneC).modPort 0 fun p => { p with lstate := 1 }
theorem witness_CompletionWriteRetiresACommand : finished.fabricOn = true ∧ (finished.stream 0).isOpen = true
    ∧ (finished.stream 0).nextDone = some doneC ∧ (finished.stream 0).loc = false ∧ (finished.streamPort 0).val = (0 : PortIx).val
    ∧ (finished.port 0).carries = true ∧ recFlag doneC.record 0 = false ∧ ∀ x, (finished.lease x).freeing = none :=
  ⟨by decide, by decide +kernel, by decide +kernel, by decide +kernel, by decide +kernel, by decide +kernel, by decide +kernel,
    no_freeing (by decide +kernel)⟩

/-! ### Contexts -/

theorem allFin_512 : allFin 512 = 0 :: (List.finRange 511).map Fin.succ := List.finRange_succ
theorem holder_head {s : State} {gl : GloveRef} (h : ((s.lease 0).valid && (s.lease 0).kind == 0 && (s.lease 0).engine == gl.e
    && (s.lease 0).resident == some gl.g) = true) : s.holder gl = some 0 := by
  rw [State.holder, allFin_512, List.find?_cons]; simp only [h]
theorem res_all_ok {f : Nat → Res Unit} {l : List Nat} (h : ∀ x ∈ l, f x = .ok ()) : ((Res.all (l.map f)).bind fun _ => .ok ()) = Res.ok () := by
  have : ∃ u, Res.all (l.map f) = .ok u := by
    induction l with
    | nil => exact ⟨[], rfl⟩
    | cons x l ih =>
      obtain ⟨u, hu⟩ := ih fun y hy => h y (List.mem_cons_of_mem _ hy)
      exact ⟨() :: u, by rw [List.map_cons, Res.all, hu, h x List.mem_cons_self]; rfl⟩
  obtain ⟨u, hu⟩ := this
  rw [hu]; rfl
/-- The save areas of Hall SRAM answer while the wing's links to the hall are up and the remap is at rest. -/
theorem ctxReady_sram {s : State} {gl : GloveRef} {a n : Nat} (h0 : s.hall.remap = false) (h1 : s.hall.remapNew = none)
    (h2 : (s.wing (wingOf gl.e)).links[3].down = false) (h3 : s.hall.toWing[(wingOf gl.e).val].down = false)
    (ha : 0x10000000 ≤ a) (hb : a + n ≤ 0x11000000) : s.ctxReady gl a n = .ok () := by
  unfold State.ctxReady
  apply res_all_ok
  intro x hx
  have hs : 0x10000000 ≤ x ∧ x < 0x11000000 := by
    unfold spots at hx
    split at hx
    · cases hx
    · rcases List.mem_cons.1 hx with rfl | hx
      · omega
      · simp at hx; obtain ⟨⟨k, _, rfl⟩, h⟩ := hx; omega
  have hd : decodeAddr s.hall.remap x = .sram (x - 0x10000000) := by
    rw [h0]; unfold decodeAddr
    rw [if_neg (by omega), if_pos (by omega)]; simp only [Bool.false_eq_true, if_false]; rw [if_pos (by omega)]
  simp [hd, State.readyRes, State.ready, State.remapHolds, h1, State.linkOk, Tgt.wing, h2, h3]

/-- The context of lease 0 runs a launch on glove 0 of engine 0; gloves 1 and 2 are frozen; lease 1 has no glove, and its launch waits. -/
def waitC : Cmd := { cmdOf (recOf [(0, 1), (0x10, 1)]) with readyAt := 1 }
def swapBase : State :=
  ((((leased fun l => { l with resident := some 0 }).modLease 1 fun _ => leaseOf 0).modGlv gl0 fun g => { runG g with swapping := false }).modGlv
    ⟨0, 1⟩ fun g => { g with hang := { g.hang with frozen := true } }).modGlv ⟨0, 2⟩ fun g => { g with hang := { g.hang with frozen := true } }
def swapWaits : State := holds swapBase waitC
/-- The time at which the slice is over. -/
def swapLate : State := swapWaits.advanceTo (max (swapWaits.glv gl0).boundAt.toNat (waitC.readyAt - 1) + swapWaits.slice)
theorem swapBusy : swapWaits.ctxBusy 0 waitC.index 1 = false := by
  have h : swapWaits.leaseClaimed (some (0, waitC.index)) 1 = false := by
    simp only [State.leaseClaimed, List.any_eq_false]; intro x _
    have := streams_all (s := swapWaits) (p := fun l => l.cmds.all fun c => c.phase != .started) (by decide +kernel) x
    simp only [List.all_eq_true] at this
    simp only [Bool.and_eq_true, List.any_eq_true, not_and]
    rintro _ ⟨c, hc, h1, h2⟩
    have := this c hc; simp_all
  rw [State.ctxBusy, h]; decide +kernel
theorem swap_combiners (x : GloveRef) : (swapWaits.glv x).combiner = [] := by
  have h : ∀ e : EngIx, ∀ g : GlvIx, (swapWaits.glv ⟨e, g⟩).combiner = [] := by decide +kernel
  exact h x.e x.g
theorem witness_ContextsSwap_expiry :
    swapWaits.fabricOn = true ∧ swapWaits.noGrace ∧ (swapWaits.stream 0).ready = some waitC ∧ (∀ m, m ≠ 0 → (swapWaits.stream m).ready = none)
    ∧ waitC.onGlove = true ∧ swapWaits.cmdLease 0 waitC = some 1
    ∧ ((swapWaits.lease 1).kind = 0 ∧ (swapWaits.lease 1).engine = gl0.e ∧ (swapWaits.lease 1).freeing = none ∧ (swapWaits.lease 1).resident = none)
    ∧ swapWaits.ctxBusy 0 waitC.index 1 = false ∧ swapWaits.freeGlove gl0.e = none ∧ (∀ x, (swapWaits.glv ⟨gl0.e, x⟩).swapping = false)
    ∧ (swapWaits.stream 0).cls.toNat = swapWaits.gloveCls gl0 ∧ (swapWaits.glv gl0).kind ≠ .none
    ∧ (∀ x, (swapWaits.glv x).combiner = []) ∧ swapLate.victim gl0.e (swapWaits.stream 0).cls.toNat (waitC.readyAt - 1) = some (gl0, false) := by
  have h0 : swapLate.holder gl0 = some 0 := holder_head (by decide +kernel)
  refine ⟨by decide, noGrace_of_idle (by decide +kernel), by decide +kernel, others_ready (by decide +kernel) 0 _, by decide +kernel,
    by decide +kernel, by decide +kernel, swapBusy, ?_, by decide +kernel, by decide +kernel, by decide +kernel, swap_combiners, ?_⟩
  · have h : ∀ g : GlvIx, g.val < 3 → swapWaits.gloveIdle ⟨gl0.e, g⟩ = false := by decide +kernel
    simp [State.freeGlove, h 0 (by decide), h 1 (by decide), h 2 (by decide)]
  · have hs : swapLate.swappable gl0.e = [gl0] := by
      have h1 : (swapLate.glv ⟨gl0.e, 1⟩).hang.frozen = true := by decide +kernel
      have h2 : (swapLate.glv ⟨gl0.e, 2⟩).hang.frozen = true := by decide +kernel
      have h3 : (swapLate.glv gl0).hang.frozen = false ∧ (swapLate.glv gl0).hang.freezing = false ∧ (swapLate.glv gl0).swapping = false
          ∧ (swapLate.glv gl0).kind = .launch ∧ (swapLate.glv gl0).dying = none := by decide +kernel
      have e : (⟨gl0.e, 0⟩ : GloveRef) = gl0 := rfl
      have hk : ∀ b : Bool, (!(RunKind.launch == RunKind.none && b)) = true := by decide
      simp only [State.swappable, List.map_cons, List.map_nil, List.filter_cons, List.filter_nil, e, h0, h1, h2, h3.1, h3.2.1, h3.2.2.1,
        h3.2.2.2.1, h3.2.2.2.2, hk]
      rfl
    rw [State.victim, hs]; decide +kernel

def swapping : State := (leased fun l => { l with resident := some 0 }).modGlv gl0 fun g => { runG g with swapping := true }
theorem witness_ContextsSwap_save :
    swapping.fabricOn = true ∧ swapping.noGrace ∧ (swapping.glv gl0).swapping = true ∧ (∀ r ∈ (swapping.glv gl0).inflight, r.resp = [])
    ∧ swapping.holder gl0 = some 0 ∧ ∃ t, swapping.ctxSave gl0 (swapping.slotAddr 0) (swapping.glv gl0).swapQos.toNat = .ok t := by
  have hv : (swapping.glv gl0).validTiles.length = 0 := by decide +kernel
  have ha : swapping.slotAddr 0 = 0x10100000 := by decide +kernel
  refine ⟨by decide, noGrace_of_idle (by decide +kernel), by decide +kernel, by decide +kernel, holder_head (by decide +kernel), ?_⟩
  rw [State.ctxSave, hv, ha, ctxReady_sram (by decide) (by decide) (by decide +kernel) (by decide) (by decide) (by decide)]
  exact ⟨_, rfl⟩

/-- The context of lease 0 is saved with its launch in progress. -/
def run0 : SavedRun := ⟨0, 0, gl0, 0, 0, 0, 0x10000000, 0x1000, false, 0, false, []⟩
def savedCtx : State := saves.modLease 0 fun _ => { leaseOf 0 with saved := true, savedRun := some run0 }
theorem savedRuns (n : LeaseIx) : (savedCtx.lease n).savedRun = if n = 0 then some run0 else none := by
  by_cases hn : n = 0
  · subst hn; rfl
  · rw [savedCtx, modLease_lease_ne _ _ _ _ hn, if_neg hn]
    simpa using leases_all (s := saves) (p := fun l => l.savedRun.isNone) (by decide +kernel) n
theorem savedOf0 : (savedCtx.lease 0).valid = true ∧ (savedCtx.lease 0).engine = gl0.e := by decide +kernel
theorem nextSaved0 : savedCtx.nextSaved gl0.e = some (0, run0) := by
  have h : (fun n => if (savedCtx.lease n).valid && (savedCtx.lease n).engine == gl0.e then (savedCtx.lease n).savedRun.map fun r => (n, r)
      else none) = fun n : LeaseIx => if n = 0 then some (0, run0) else none := by
    funext n
    by_cases hn : n = 0
    · subst hn; simp [savedRuns, savedOf0]
    · simp [savedRuns, hn]
  have hl : (allFin 512).filterMap (fun n : LeaseIx => if n = 0 then some ((0 : LeaseIx), run0) else none) = [(0, run0)] := by
    rw [allFin_512, List.filterMap_cons, List.filterMap_map]; simp [Function.comp_def, Fin.succ_ne_zero]
  unfold State.nextSaved
  rw [h, hl]
  simp [least]
theorem witness_ContextsSwap_restore :
    savedCtx.fabricOn = true ∧ savedCtx.noGrace ∧ savedCtx.holder gl0 = none ∧ savedCtx.gloveIdle gl0 = true ∧ gl0.g ≠ 3
    ∧ savedCtx.engRuns gl0.e = true ∧ savedCtx.nextSaved gl0.e = some (0, run0)
    ∧ savedCtx.higherWaits gl0.e run0 = false
    ∧ (∀ k ≤ saveBytes, savedCtx.ctxReady gl0 (savedCtx.slotAddr 0) k = .ok ()) ∧ savedCtx.poisoned (savedCtx.slotAddr 0) saveBytes = false := by
  have ha : savedCtx.slotAddr 0 = 0x10100000 := by decide +kernel
  have hk : ∀ k ≤ saveBytes, savedCtx.ctxReady gl0 (savedCtx.slotAddr 0) k = .ok () := by
    intro k hk
    rw [ha]; unfold saveBytes at hk
    exact ctxReady_sram (by decide) (by decide) (by decide +kernel) (by decide) (by decide) (by omega)
  have hp : savedCtx.poisoned (savedCtx.slotAddr 0) saveBytes = false := by
    have : savedCtx.mem.poison = [] := rfl
    simp [State.poisoned, this]
  have hr : savedCtx.readyList = [] := readyList_nil (by decide +kernel)
  refine ⟨?_, ?_, ?_, ?_, ?_, ?_, ?_, ?_, hk, hp⟩
  · decide
  · exact noGrace_of_idle (by decide +kernel)
  · exact holder_none (by decide +kernel) _
  · decide +kernel
  · decide
  · decide +kernel
  · exact nextSaved0
  · rw [State.higherWaits, hr]; rfl

/-! ### The fabric -/

/-- A request of Hall master 4 for 64 bytes of Hall SRAM at QoS 15, of stream 0; and one of a wing's master for the last bytes of a lane. -/
def ask : Req := ⟨4, 15, some 0, 0, 0x10000000, 64, false, false, 9, 0, 0⟩
def askWing : Req := ⟨7, 3, none, 0, 0x23000FC0, 64, true, true, 9, 0, 0⟩
theorem witness_PortsGrantAndRequestsAge :
    open0.fabricOn = true ∧ open0.portDown (.hall 0) = false ∧ (open0.portSt (.hall 0)).waiting = [] ∧ open0.leadsTo (.hall 0) ask = true
    ∧ open0.laneParts (.hall 0) (open0.reqClamp (.hall 0) ask) 8 0x10000000 64 = [(.hall 0, open0.reqClamp (.hall 0) ask)]
    ∧ open0.mayGrant (.hall 0) { open0.reqClamp (.hall 0) ask with since := open0.now, order := open0.hall.issued } = true
    ∧ ask.master.val < portMasters (.hall 0) ∧ ask.tick = false
    ∧ (let p : PortId := .wing 3 0 15
      open0.portDown p = false ∧ open0.leadsTo p askWing = true
      ∧ open0.laneParts p (open0.reqClamp p askWing) 8 0x23000FC0 64 = [(p, open0.reqClamp p askWing)]
      ∧ open0.mayGrant p { open0.reqClamp p askWing with since := open0.now, order := open0.hall.issued } = true
      ∧ askWing.master.val < portMasters p ∧ askWing.tick = true ∧ open0.actsForTick p askWing = false)
    ∧ (let s := open0.setPort { PortSt.fresh (.hall 0) with waiting := [ask] }
      (s.portSt (.hall 0)).waiting[0]? = some ask ∧ ask.since + 3454 < 2 ^ 64 ∧ (s.portSt (.hall 0)).waiting ≠ []
        ∧ (∀ r ∈ (s.portSt (.hall 0)).waiting, r.since ≤ s.now) ∧ s.now + 300 < 2 ^ 64) := by decide +kernel

def linkAt (n : Nat) : State := open0.modLink (.hallTo 2) fun x => { x with fails := n, failAt := 0 }
theorem witness_LinksFallAndRemapChanges :
    (∀ n ∈ [7, 8], (linkAt n).fabricOn = true ∧ ((linkAt n).link (.hallTo 2)).down = false)
    ∧ ((linkAt 7).link (.hallTo 2)).failRun (linkAt 7).now < 8 ∧ 8 ≤ ((linkAt 8).link (.hallTo 2)).failRun (linkAt 8).now
    ∧ (open0.isManager (.port 0) = true ∧ bitAt (1 : Word) 0 ≠ open0.hall.remap ∧ open0.hall.remapNew = none ∧ open0.hall.held = [])
    ∧ (open0.isManager (.port 1) = false ∧ open0.acts (.port 1) = true) ∧ (open0.isManager (.hart 0) = false ∧ open0.acts (.hart 0) = true)
    ∧ (let s := open0.modHall fun h => { h with remapNew := some true }; s.hall.remapNew = some true ∧ s.lowBusy = false) := by
  decide +kernel

/-! ### The memories of a wing -/

def acc0 (k : AccKind) : AccAccess := ⟨0x217FFFFC, 0, some 0, k, .clean, false, false⟩
/-- The last four bytes of the pantry of wing 1. -/
theorem witness_AccumulateUnitAccesses : open0.fabricOn = true ∧ open0.noGrace ∧ (∀ k, (acc0 k).ecc = .clean)
    ∧ decodeAddr open0.hall.remap 0x217FFFFC = .pantry 1 0x7FFFFC ∧ 0x7FFFFC + 4 ≤ 0x800000 ∧ (open0.wing 1).pwrState = 0
    ∧ Memory.wf open0.mem = true ∧ (open0.keysOf 0x217FFFFC 4).any open0.detHeld = false ∧ open0.hall.held = []
    ∧ open0.remapHolds 0x217FFFFC = false
    ∧ (acc0 (.write [1, 2, 3, 4])).kind = .write [1, 2, 3, 4] ∧ (acc0 (.update 0 0 0)).kind = .update 0 0 0
    ∧ accPair (0 : BitVec 4).toNat (0 : BitVec 3).toNat = true ∧ accWidth (0 : BitVec 3).toNat = 4 ∧ open0.poisoned 0x217FFFFC 4 = false
    ∧ ∀ k, (decodeAddr open0.hall.remap 0x217FFFFC).key = some k → (open0.wing 1).detAt k = none :=
  ⟨by decide, noGrace_of_idle (by decide), fun _ => rfl, by decide, by decide, by decide, by decide, by decide +kernel, rfl, by decide, rfl, rfl, by decide,
    by decide, by decide +kernel, fun k hk => by
      have h : (decodeAddr open0.hall.remap 0x217FFFFC).key = some 0x217FFFFC := by decide
      cases h.symm.trans hk
      decide +kernel⟩

theorem witness_WindowsAndErrorCounters : open0.isManager (.port 0) = true
    ∧ ((open0.modWing 3 fun w => { w with det := vmod w.det 3 fun d => { d with initing := true } }).wing 3).det[3].initing = true ∧ open0.hall.held = []
    ∧ (let s := open0.modWing 3 fun w => { w with scrub := 1 };
      s.fabricOn = true ∧ fld (s.wing 3).scrub 15 0 ≠ 0 ∧ decodeAddr s.hall.remap 0x1FFFFFFFFF = .hbm 3 0x3FFFFFFFF
        ∧ decodeAddr s.hall.remap 0x2FFFFFFFFF = .hbm 3 0x3FFFFFFFF ∧ 0x3FFFFFFFF < 2 ^ 34) := by decide

theorem witness_HbmStackLife : open0.alive = true ∧ open0.hall.held = [] ∧ ((open0.modWing 3 fun w => { w with training := true }).wing 3).training = true
    ∧ (let s := open0.modWing 3 fun w => { w with trained := true, pwrState := 1 }; (s.wing 3).pwrState = 1 ∧ (s.wing 3).trained = true)
    ∧ (open0.wing 3).pwrState ≠ 1
    ∧ (let s := open0.modWing 3 fun w => { w with trained := true };
      (s.wing 3).trained = true ∧ (s.wing 3).filled = false ∧ Memory.wf s.mem = true)
    ∧ decodeAddr false 0x1C00000000 = .hbm 3 0 := by decide

/-! ### The tick path -/

def cand0 : EdgeCand := ⟨40, [0], []⟩
theorem witness_EdgesLaneWakeAndSyncEvents : open0.hearth.por = false ∧ open0.hearth.tpin[3].level ≠ true
    ∧ (open0.modPin 3 fun p => { p with cand := some cand0, edges := 1, any := true }).hearth.tpin[3].cand = some cand0 := by decide

/-- The tick lease of engine 0 is armed on pin 3 with SEAL_EN; its tick glove is in tick idle; the seal of memory is 0. -/
def tickSt (f : TickS → TickS) : State :=
  (((open0.modLease 0 fun _ => { leaseOf 2 with pages := 1 }).modTick 0 fun t =>
    f { t with armed := true, lease := 0, pin := 3, sealEn := true }).modGlv (tickGlove 0) fun g => { g with state := 5 }).modPin 3 fun p =>
      { p with fifo := [⟨40, false, []⟩] }
theorem witness_TickRunsFireAndSeal :
    (let s := tickSt id;
      s.alive = true ∧ s.armedOn 3 = [0] ∧ (s.hearth.tpin[3]).unserved 0 = [⟨40, false, []⟩] ∧ (s.glv (tickGlove 0)).state = 5
      ∧ (s.glv (tickGlove 0)).hang.frozen = false ∧ (s.eng 0).tick.disarm = none ∧ (s.eng 0).tick.phase = .idle ∧ (s.eng 0).tick.sealEn = true)
    ∧ (let s := tickSt fun t => { t with phase := .sealRead }; (s.eng 0).tick.phase = .sealRead ∧ s.sealFresh 0 = true)
    ∧ (let s := tickSt fun t => { t with phase := .sealRead, expect := 1 }; (s.eng 0).tick.phase = .sealRead ∧ s.sealFresh 0 = false)
    ∧ (∀ skip, let s := tickSt fun t => { t with phase := .grace 80, expect := 1, skip := skip };
      (s.eng 0).tick.phase = .grace 80 ∧ s.sealFresh 0 = false ∧ (s.eng 0).tick.skip = skip ∧ (s.eng 0).tick.disarm = none) := by
  decide +kernel

/-- Entry 63 of the wake schedule: a single one that holds engine 0, a periodic one that holds engine 7. -/
def wakes (ctl : Word) : State := open0.modHearth fun h => { h with wake := vset h.wake 63 ⟨80, ctl, 40⟩ }
theorem witness_EdgesLaneWakeAndSyncEvents_lane :
    (let s := open0.modPort 3 fun p => { p with lane := [⟨0, [1], false, true, some 0, 0⟩], lstate := 1 };
      s.alive = true ∧ (s.port 3).lane = [⟨0, [1], false, true, some 0, 0⟩] ∧ (s.port 3).lstate = 1 ∧ (s.port 3).d3hot = false)
    ∧ (let s := open0.modHearth fun h => { h with syncCtl := 2 }; s.hearth.por = false ∧ fld s.hearth.syncCtl 1 0 = 2
        ∧ s.now + max 10000 (fld s.hearth.syncCtl 39 8) + 40 < 2 ^ 64) := by decide +kernel
theorem wake_fields (ctl : Word) : (wakes ctl).hearth.wake[63] = ⟨80, ctl, 40⟩ := Vector.getElem_set_self _
theorem witness_EdgesLaneWakeAndSyncEvents_entries : (∀ ctl ∈ [(0x141 : Word), 0x80B3],
    (wakes ctl).hearth.por = false ∧ (wakes ctl).hearth.wake[63] = ⟨80, ctl, 40⟩ ∧ bitAt ctl 0 = true ∧ bitAt ctl 2 = false
      ∧ (80 : Word).toNat + (⟨80, ctl, 40⟩ : WakeEnt).per < 2 ^ 63 ∧ (wakes ctl).now + (⟨80, ctl, 40⟩ : WakeEnt).per < 2 ^ 63)
    ∧ (∀ d ∈ [(1 : BitVec 2), 2, 3], let s := (wakes 0x145).modHearth fun h => { h with devState := d }
      s.hearth.por = false ∧ s.hearth.wake[63] = ⟨80, 0x145, 40⟩ ∧ bitAt (0x145 : Word) 0 = true ∧ bitAt (0x145 : Word) 2 = true
        ∧ s.hearth.devState = d) := by
  refine ⟨fun ctl h => ⟨rfl, wake_fields ctl, ?_, ?_, by simp [WakeEnt.per], ?_⟩, fun d _ => ⟨rfl, wake_fields _, by decide, by decide, rfl⟩⟩
  · simp only [List.mem_cons, List.not_mem_nil, or_false] at h; rcases h with rfl | rfl <;> decide
  · simp only [List.mem_cons, List.not_mem_nil, or_false] at h; rcases h with rfl | rfl <;> decide
  · have : (wakes ctl).now = 0 := rfl
    rw [this]; simp [WakeEnt.per]

/-! ### Power, temperature and resets -/

/-- Engine 0 in a power state, with DEEPEST 3, NAP_US and SLEEP_US 1. -/
def powered (st : BitVec 3) : State := open0.modEng 0 fun x => { x with pwr := 3 ||| (1 <<< 16) ||| (1 <<< 32), pwrState := st }
def standing (w : Wing → Wing) : State :=
  ({ open0 with engines := Vector.replicate 16 { Engine.reset with pwrState := 3 } } : State).modWing 0 w
theorem witness_EnginesAndWingsChangePower :
    (let s := powered 0; let x := s.eng 0
      s.alive = true ∧ x.pwrState = 0 ∧ x.waking = false ∧ 1 ≤ x.deepest ∧ x.gloves.toList.all Glove.quiet = true ∧ x.holdUntil ≤ s.now
        ∧ x.tickHold = false)
    ∧ (let x := (powered 1).eng 0
      x.pwrState = 1 ∧ x.waking = false ∧ 2 ≤ x.deepest ∧ x.napUs ≠ 0 ∧ x.tick.armed = false ∧ x.gloves.toList.all Glove.quiet = true)
    ∧ (let s := powered 2; let x := s.eng 0
      x.pwrState = 2 ∧ x.waking = false ∧ x.deepest = 3 ∧ x.sleepUs ≠ 0 ∧ x.tick.armed = false ∧ x.drainOnSleep = false
        ∧ ∀ g, s.sleepGlove ⟨0, g⟩ = true)
    ∧ (let s := (powered 0).modEng 0 fun x => { x with waking := true };
      (s.eng 0).waking = true ∧ (s.wing (wingOf 0)).pwrState = 0 ∧ (s.eng 0).saved = Vector.replicate 4 false)
    ∧ (let s := standing fun w => { w with pwr := 1, training := false };
      (s.wing 0).standbyEn = true ∧ (s.wing 0).pwrState = 0 ∧ (s.wing 0).training = false
        ∧ ∀ y, wingOf y = 0 → (s.eng y).pwrState = 3 ∧ (s.eng y).waking = false)
    ∧ ((standing fun w => { w with pwrState := 2 }).wing 0).pwrState = 2 := by decide +kernel
theorem witness_EngineSleep : (powered 2).hall.held = [] ∧ (powered 2).noGrace ∧ ∀ g, (powered 2).gloveHolds ⟨0, g⟩ = false := by
  refine ⟨rfl, noGrace_of_idle (by decide +kernel), fun g => ?_⟩
  have h : ∀ g, ((powered 2).glv ⟨0, g⟩).kind = .none := by decide +kernel
  rw [State.gloveHolds, h, holder_none (by decide +kernel)]; rfl

/-- The device on its way to a power state. -/
def device (st toward : BitVec 2) : State := State.reset.modHearth fun h => { h with devState := st, toward := toward }
theorem witness_DeviceChangesPower :
    (open0.alive = true ∧ open0.isManager (.port 0) = true ∧ open0.armedCount = 0 ∧ ¬(open0.hearth.devState = 1 ∧ open0.hearth.toward = 2))
    ∧ (∀ t, (State.reset.tenant t).isOpen = false) ∧ 0 < (tickSt id).armedCount
    ∧ (let s : State := (({ device 1 1 with wings := Vector.replicate 4 { Wing.reset with pwrState :=
        1 } } : State).modHart 0 fun h => { h with wfi := true })
      s.alive = true ∧ s.hearth.devState = 1 ∧ s.hearth.toward = 1 ∧ s.standbyReady = true)
    ∧ (let s := device 1 2;
      s.alive = true ∧ s.hearth.devState = 1 ∧ s.hearth.toward = 2 ∧ ∀ t, (s.tenant t).isOpen = false)
    ∧ (let s : State := { device 1 0 with wings := Vector.replicate 4 { Wing.reset with training := false } }
      s.alive = true ∧ s.hearth.devState = 1 ∧ s.hearth.toward = 0 ∧ ∀ w, (s.wing w).training = false) := by decide +kernel

/-- Every sensor reads one temperature. -/
def temps (t : BitVec 8) : TempSample := ⟨Vector.replicate 5 (Vector.replicate 4 t), Vector.replicate 4 t⟩
theorem witness_GovernorThermalAndHearthWatchdog :
    (open0.alive = true ∧ open0.hearth.lowWindows = 0 ∧ open0.budget < ((0xFFFF : BitVec 16).toNat : Int)
      ∧ open0.budget - 200 < ((7500 : BitVec 16).toNat : Int) ∧ ((7500 : BitVec 16).toNat : Int) ≤ open0.budget
      ∧ ((7300 : BitVec 16).toNat : Int) ≤ open0.budget - 200)
    ∧ (open0.hearth.por = false ∧ open0.hearth.pinReset = false ∧ open0.hearth.gated = false ∧ 115 ≤ (hottest (dieMax (temps 115)).toList).toInt
      ∧ (hottest (dieMax (temps 114)).toList).toInt < 115)
    ∧ (let s := open0.modHearth fun h => { h with coolSince := some 0, emerg := true };
      s.hearth.coolSince = some 0 ∧ s.hearth.emerg = true ∧ 0 + 1000040 < 2 ^ 64)
    ∧ (let s := open0.modHearth fun h => { h with rstCtl := 2 };
      s.fabricOn = true ∧ s.isManager (.port 0) = true ∧ bitAt s.hearth.rstCtl 1 = true)
    ∧ (let s := open0.modHearth fun h => { h with hwdt := some 1000 };
      s.hearth.hwdt = some 1000 ∧ s.alive = true) := by decide +kernel

theorem witness_ResetsOfThePart :
    (State.reset.modHearth fun h => { h with por := true }).hearth.por = true
    ∧ (open0.hearth.por = false ∧ open0.hearth.devState ≠ 3 ∧ (∀ h : HartIx, open0.cores.dirty[h.val] = []) ∧ (9 : Fin 10) ≠ 0
      ∧ open0.hearth.pwrGood = true)
    ∧ (let s := open0.modHearth fun h => { h with pinReset := true, gated := true, tj := 94 };
      s.hearth.por = false ∧ s.hearth.pinReset = true ∧ (s.hearth.gated = true → s.hearth.tj.toInt < 95) ∧ s.hearth.pwrGood = true
        ∧ s.hearth.resetN = true)
    ∧ (open0.fabricOn = true ∧ open0.isManager (.port 0) = true ∧ (∀ g, (open0.glv ⟨0, g⟩).kind = .none)) := by decide +kernel
theorem witness_EngineReset : ∀ n, (open0.lease n).freeing = none := no_freeing (by decide +kernel)

/-! ### The cores -/

/-- An image of a header without a payload, at 0x1000_0000. -/
def image0 : List Byte := toBytes 256 (0x31465753 + 0x10000000 * 2 ^ 64)
theorem witness_HartsStartAndBoot :
    (open0.fabricOn = true ∧ open0.isManager (.port 0) = true ∧ open0.hearth.bootSrc ≠ 3 ∧ (0xF : BitVec 4) ≠ 0
      ∧ ∀ t, (open0.tenant t).isOpen = true → (open0.tenant t).port ≠ 4)
    ∧ ((3 : HartIx) ≠ 0 ∧ (open0.hart 3).inRom = true ∧ (open0.hart 3).wfi = true ∧ (open0.hart 3).inReset = false)
    ∧ (open0.bootRuns = true ∧ open0.cores.bootSram = false ∧ open0.hearth.bootSrc = 0)
    ∧ (imgPlaced image0 = true ∧ imgTotal image0 ≤ image0.length) := by decide +kernel
theorem witness_BootImage : imgHeader (some image0) = .ok image0 ∧ open0.noGrace :=
  ⟨by
    have h : image0.length = 256 ∧ imgNat image0 0 4 = 0x31465753 := by decide +kernel
    simp [imgHeader, h], noGrace_of_idle (by decide)⟩

theorem witness_TimerAndPlic : open0.fabricOn = true ∧ (∀ h : HartIx, 40 * (open0.hart h).mtimecmp.toNat < 2 ^ 64)
    ∧ (open0.modCores fun c => { c with plicEn := vset c.plicEn 7 (1 <<< 159) }).cores.enabled 7 159 = true := by decide +kernel

/-- Whether an access of a core passes as a cached one. -/
def cachedOk (r : Res (CAttr × Option TenIx)) : Bool :=
  match r with
  | .ok k => k.1 == .cache
  | _ => false
theorem cachedOk_some {r : Res (CAttr × Option TenIx)} (h : cachedOk r = true) : ∃ k, r = .ok k ∧ k.1 = .cache := by
  unfold cachedOk at h
  split at h
  · exact ⟨_, rfl, by simpa using h⟩
  · cases h
theorem witness_CoresAccessMemory :
    (open0.fabricOn = true ∧ (open0.hart 0).inReset = false ∧ (open0.hart 0).halted = false ∧ (open0.hart 0).wfi = false
      ∧ open0.mem.poison = [] ∧ open0.noGrace)
    ∧ (∃ k, open0.coreCheck 0 0x10FFFFFC 4 .r = .ok k ∧ k.1 = .cache) ∧ (∃ k, open0.coreCheck 0 0x10FFFFFC 4 .x = .ok k ∧ k.1 = .cache)
    ∧ (∃ k, open0.coreCheck 0 0x10FFFFFC 4 .w = .ok k ∧ k.1 = .cache) ∧ (open0.hart 0).effPriv .r = 3
    ∧ (∀ x : Nat, ¬open0.inShadow x) ∧ Memory.wf open0.mem = true :=
  ⟨⟨by decide, by decide, by decide, by decide, rfl, noGrace_of_idle (by decide)⟩, cachedOk_some (by decide +kernel),
    cachedOk_some (by decide +kernel), cachedOk_some (by decide +kernel), by decide, open0_noShadow, by decide⟩
/-- Hart 1 holds the line at 0x1000_0040 as its owner; hart 0 waits for it. -/
def dirSt : State :=
  open0.modCores fun c => ({ c with cached := vset c.cached 1 [0x10000040], dirty := vset c.dirty 1 [(0x10000040, 0)] }).setEntry 0x10000040 (.owned 1)
theorem witness_CoresAccessMemory_lines :
    (open0.cacheLine 0x1000007F = some 0x10000040 ∧ open0.cores.dirPend = [] ∧ open0.cores.dirHeld = [] ∧ open0.cores.victim = []
      ∧ open0.cores.entry 0x10000040 = none ∧ open0.lineReady 0x10000040 = .ok)
    ∧ (0x10000040 ∈ dirSt.cores.cached[1] ∧ dirSt.cores.isDirty 1 0x10000040 = true)
    ∧ (let s := dirSt.modCores fun c => { c with dirPend := [⟨0x10000040, 0, true⟩] };
      s.cacheLine 0x1000007F = some 0x10000040 ∧ (1 : HartIx) ≠ 0 ∧ s.cores.dirPend = [⟨0x10000040, 0, true⟩] ∧ s.cores.victim = []
        ∧ s.cores.dirHeld = [] ∧ s.cores.owing = [] ∧ s.cores.entry 0x10000040 = some (.owned 1)) := by decide +kernel

/-- Whether a fetch of a hart is answered. -/
def fetched (r : HRes Nat) : Bool :=
  match r with
  | .ok _ _ => true
  | _ => false
theorem fetched_some {r : HRes Nat} (h : fetched r = true) : ∃ v u, r = .ok v u := by
  unfold fetched at h
  split at h
  · exact ⟨_, _, rfl⟩
  · cases h
theorem witness_HartsRunInstructions : open0.hartRuns 0 = true ∧ (open0.hart 0).wfi = false ∧ open0.takeIrq 0 = none
    ∧ (∃ v u, open0.hFetch 0 0x00000013 = .ok v u) ∧ ∃ v u, open0.hFetch 0 0x05B02013 = .ok v u :=
  ⟨by decide, by decide, by decide +kernel, fetched_some (by decide +kernel), fetched_some (by decide +kernel)⟩

/-! ### Host ports -/

/-- A port whose link is in L0. -/
def linkedAt (p : PortIx) (f : HostPort → HostPort) : State := open0.modPort p fun x => f { x with lstate := 1, perst := false }
/-- The last bytes of Hall SRAM through BAR2/3 of port 0. -/
theorem witness_HostsReadAndWrite :
    let s := linkedAt 0 id
    (s.linked 0 = true ∧ s.fabricOn = true ∧ s.hearth.devState = 0 ∧ (s.port 0).d3hot = false ∧ 0x10FFFFFE + 2 ≤ barSize 1
      ∧ inRegs (barBase 1 + 0x10FFFFFE) = false ∧ barBase 1 + 0x10FFFFFE = 0x10FFFFFE)
    ∧ s.mapped 0x10FFFFFE 2 = true ∧ s.inboundReady 0x10FFFFFE 2 = .ok ∧ s.inboundTenant 0 0x10FFFFFE 2 .r = some 0
    ∧ s.inboundTenant 0 0x10FFFFFE 2 .w = some 0 ∧ s.readOnly 0x10FFFFFE 2 = false ∧ s.hall.held = []
    ∧ Memory.wf s.mem = true := by decide +kernel
theorem witness_HostsReadAndWrite_noGrace : (linkedAt 0 id).noGrace := noGrace_of_idle (by decide +kernel)

theorem witness_PortResetsAndLinkStates :
    (let s := linkedAt 3 id;
      s.alive = true ∧ (∀ t, (s.tenant t).isOpen = true → (s.tenant t).port ≠ portMb 3) ∧ (s.port 3).perst = false ∧ (s.port 3).lstate ≠ 0
        ∧ s.linked 3 = true ∧ (s.port 3).d3hot = false ∧ s.l1Held 3 = false ∧ linkOk 4 4 = true ∧ s.fabricOn = true)
    ∧ (open0.port 3).perst = true
    ∧ (let s := linkedAt 3 fun x => { x with cfg := [(0x60, 2)] };
      s.linked 3 = true ∧ (s.port 3).lstate = 1 ∧ bitAt ((s.port 3).cfgStored 0x60 0) 1 = true ∧ s.l1Held 3 = false ∧ (s.port 3).d3hot = false
        ∧ (s.port 3).lane = [] ∧ (s.port 3).egress = [])
    ∧ (let s := linkedAt 3 fun x => { x with cfg := [(0xB0, 0x80000000)], pba := 1 <<< 127 };
      (s.port 3).msixOn = true ∧ bitAt (s.port 3).pba (127 : Fin 128).val = true) := by decide +kernel

/-! ### The board -/

theorem witness_FlashAndUartMoveBytes :
    (let s := open0.modHart 0 fun h => { h with inRom := false };
      s.fabricOn = true ∧ s.flashWriter (.port 0) = true ∧ s.cores.flashBusy = false ∧ s.bootReads = false)
    ∧ (open0.modCores fun c => { c with flashBusy := true }).cores.flashBusy = true
    ∧ (open0.reachesPlatform (.port 0) = true ∧ open0.cores.uartTx.length < 64)
    ∧ (open0.modCores fun c => { c with uartRx := [7, 8], uartTx := [7] }).cores.uartRx = 7 :: [8]
    ∧ (open0.modCores fun c => { c with uartRx := [7, 8], uartTx := [7] }).cores.uartTx = 7 :: [] := by decide +kernel

theorem witness_SmbusAndTapCommandsAnswer : State.reset.hearth.por = false ∧ (device 2 0).hearth.devState = 2
    ∧ (State.reset.modHearth fun h => { h with alertStat := 1 }).hearth.alertN = false ∧ State.reset.tapOn = true := by decide +kernel

/-! ### Observation and hangs -/

/-- Sixteen records wait in the trace buffer of engine 0, which streams; a sample waits for the meter. -/
def observed : State :=
  ((open0.modEng 0 fun x => { x with attic := List.replicate 16 5 }).modTch 0 fun c => { c with ctl := 0x18 }).modObs fun o =>
    { o with samp := vmod o.samp 3 fun x => { x with period := 10000, pend := some 9 } }
theorem witness_ObservationMovesRecords : observed.fabricOn = true ∧ observed.isManager (.port 0) = true
    ∧ 16 * ((observed.attic 0).length + 1) ≤ observed.obs.tch[0].space ∧ observed.chunkDue 0 = true
    ∧ observed.nextObs = some (.samp 3) ∧ (observed.obsBytes (.samp 3)).2.length ≤ observed.obs.tokens
    ∧ (observed.ringWrite (observed.obsBytes (.samp 3)).1 (observed.obsBytes (.samp 3)).2).isSome = true
    ∧ observed.obs.samp[3].period ≠ 0 := by decide +kernel
theorem witness_ObservationMovesRecords_noGrace : observed.noGrace := noGrace_of_idle (by decide +kernel)

/-- The launch on glove 0 of engine 0 in a state of its watchdog; wing 0 has a dump area of one slot. -/
def hung (h : HangS → HangS) : State :=
  ((launched fun g => { g with hang := h g.hang }).modWing 0 fun w => { w with cellar := 0x10200000 ||| (1 <<< 48) })
theorem witness_HungGlovesFreezeAndAreReleased :
    (let s := hung id;
      s.fabricOn = true ∧ s.hall.held = [] ∧ s.idleCounts gl0 = true ∧ (s.glv gl0).combiner = [] ∧ (s.eng gl0.e).saved[gl0.g.val] = false)
    ∧ (let s := hung fun h => { h with freezing := true };
      (s.glv gl0).hang.freezing = true ∧ (∀ r ∈ (s.glv gl0).inflight, r.resp = []) ∧ (s.eng gl0.e).saved[gl0.g.val] = false)
    ∧ (let s := (hung fun h => { h with frozen := true, dump := 1 }).modObs fun o => { o with dumpQueue := [gl0] };
      s.obs.dumping = none ∧ s.obs.dumpQueue = [gl0] ∧ (s.glv gl0).hang.frozen = true ∧ (s.glv gl0).hang.dump = 1
        ∧ bitAt s.obs.censusCtl 4 = true ∧ (s.wing (wingOf gl0.e)).cellarFree = some 0)
    ∧ (let s := ((hung fun h => { h with frozen := true, dump := 1 }).modObs fun o => { o with dumpQueue := [gl0] }).modWing 0 fun w =>
        { w with cellarUsed := 1 };
      s.obs.dumping = none ∧ s.obs.dumpQueue = [gl0] ∧ (s.glv gl0).hang.frozen = true ∧ (s.glv gl0).hang.dump = 1
        ∧ (s.wing (wingOf gl0.e)).cellarFree = none)
    ∧ (let s := (hung fun h => { h with frozen := true, dump := 2 }).modObs fun o => { o with dumping := some gl0 };
      s.obs.dumping = some gl0 ∧ (s.glv gl0).hang.frozen = true ∧ (s.glv gl0).hang.dump = 2
        ∧ s.ready none ((s.wing (wingOf gl0.e)).slotAddr (s.glv gl0).hang.slot) = .ok)
    ∧ (let s := hung fun h => { h with frozen := true, dump := 3 };
      s.isManager (.port 0) = true ∧ s.hangOpen gl0 = true ∧ (s.glv gl0).kind = .launch ∧ (s.glv gl0).dying = none
        ∧ (s.glv gl0).hang.bolt = none ∧ s.launchOf (s.glv gl0).strm (s.glv gl0).cmdIx = some launch0 ∧ launch0.fault = none
        ∧ ∀ x ∈ launch0.insts, x.1 = gl0 ∨ x.2.2 = true) := by decide +kernel
/-- The release of a glove that was frozen in a `bwait`, and of a frozen tick glove. -/
theorem witness_HungGlovesFreezeAndAreReleased_more :
    (let s := (hung fun h => { h with frozen := true, dump := 3, bolt := some (5, 3, 9, 7) }).modBolt 5 fun b => { b with alloc := true };
      s.hangOpen gl0 = true ∧ (s.glv gl0).hang.bolt = some (5, 3, 9, 7) ∧ s.ownsBolt 5 (s.glv gl0).tenant = true)
    ∧ (let s := (tickSt fun t => { t with phase := .running }).modGlv (tickGlove 0) fun g =>
        { g with kind := .tick, state := 4, hang := { g.hang with frozen := true, dump := 3 } };
      let gl : GloveRef := ⟨0, 3⟩
      s.fabricOn = true ∧ s.hall.held = [] ∧ s.hangOpen gl = true ∧ gl = tickGlove gl.e ∧ (s.glv gl).kind = .tick ∧ (s.glv gl).dying = none
        ∧ (s.eng gl.e).tick.disarm = none) := by decide +kernel
theorem witness_HungGloves_noGrace : (hung id).noGrace ∧ (hung fun h => { h with freezing := true }).noGrace
    ∧ (hung fun h => { h with frozen := true, dump := 3 }).noGrace :=
  ⟨noGrace_of_idle (by decide +kernel), noGrace_of_idle (by decide +kernel), noGrace_of_idle (by decide +kernel)⟩

/-! ### Registers, invariants and encodings -/

theorem witness_RegistersAreWrittenAndRead : open0.fabricOn = true ∧ open0.isManager (.port 0) = true ∧ open0.isManager (.port 1) = false
    ∧ open0.acts (.port 0) = true ∧ open0.acts (.port 1) = true ∧ open0.hall.held = [] := by
  decide
def fencing (l : List Rec) : State := runs.modGlv gl0 fun g => { g with wait := .fence 0, state := 2, inflight := l }
theorem witness_FenceHoldsIssue : goesOn runs 0x1C (fw 0 0 0 0 0)
    ∧ ((fencing [vaddRec]).glv gl0).wait = .fence 0 ∧ ((fencing [vaddRec]).glv gl0).inflight ≠ []
    ∧ jenliParts (.add gl0 (fw 0 1 2 3 0)) = some (gl0, 0x08, fw 0 1 2 3 0) ∧ ((fencing []).glv gl0).inflight = []
    ∧ ((fencing []).glv gl0).state = 2
    ∧ ((fencing []).modGlv gl0 fun g => { g with wait := .none, state := 1 }).gloveReady gl0 = true := by
  simp only [State.mayRun]; decide +kernel
theorem witness_MtimeFollowsTheTimebase : State.reset.hearth.time.toNat + 1000000000 * 3 = BitVec.toNat (3000000000 : Word)
    ∧ State.reset.pending = [] ∧ open0.hearth.por = false ∧ open0.hearth.time.toNat + 40 < 2 ^ 64 ∧ open0.pending = []
    ∧ open0.fabricOn = true ∧ open0.reachesPlatform (.port 0) = true ∧ open0.reachesPlatform (.hart 0) = true ∧ open0.hall.held = []
    ∧ (open0.hart 3).counterOn 1 = true := by decide
def watched (l : BitVec 20) : State := (hung id).modGlv gl0 fun g => { g with wdogLimit := l }
theorem watched_at (l : BitVec 20) : ((watched l).glv gl0).progressAt = 0 ∧ ((watched l).glv gl0).wdogLimit = l
    ∧ (watched l).alive = true ∧ (watched l).idleCounts gl0 = true ∧ (watched l).hearth.time = 0 := ⟨rfl, rfl, rfl, rfl, rfl⟩
theorem witness_WatchdogExpiresAtItsLimit : open0.fabricOn = true ∧ open0.isManager (.port 0) = true ∧ open0.hall.held = []
    ∧ ((watched 0).glv gl0).combiner = []
    ∧ (0 : Word).toNat + 1000 * 50 + 39 < 2 ^ 64 ∧ (0 : Word).toNat + 1000 * 1000000 + 39 < 2 ^ 64 := by decide
theorem witness_EveryStepKeepsMemoryCanonical : State.reset.inv ∧ ∃ t, step State.reset = .next t := ⟨by unfold State.inv; decide, _, rfl⟩
theorem witness_JenliWordsRoundTrip :
    (Instr.snearR gl0 (fw 15 63 63 63 0x3FFFFFFFF) p0).wellFormed = true
    ∧ jenliParts (.snearR gl0 (fw 15 63 63 63 0x3FFFFFFFF) p0) = some (gl0, 0x89, fw 15 63 63 63 0x3FFFFFFFF)
    ∧ (Instr.reservedOpcode gl0 0xFF (fw 0 0 0 0 0)).wellFormed = true := by decide

end Sys2Proof.Tests
end

section
/-!
The memories of a wing (R35-R52): what the accesses at the accumulate unit, the deterministic-order windows, the error counters, the patrol
scrubber and the life of an HBM stack change and what they leave.
-/
namespace Sys2Proof.WingMemories
open Sys2Proof.Machine

/-! ### The cells of memory -/

theorem rising_iff_pairwise {l : List Nat} : rising l = true ↔ l.Pairwise (· < ·) := by
  induction l with
  | nil => simp [rising]
  | cons a l ih => rw [rising_cons, List.pairwise_cons, ih]

theorem cellGet_of_not_listed {l : List Host.Cell} {a : Nat} (h : ∀ c ∈ l, c.1 ≠ a) : cellGet l a = 0 := by
  induction l with
  | nil => rfl
  | cons c l ih =>
    simp only [List.mem_cons, forall_eq_or_imp] at h
    rw [cellGet, if_neg h.1, ih h.2]

theorem cellGet_append_of_not_left {l m : List Host.Cell} {a : Nat} (h : ∀ c ∈ l, c.1 ≠ a) : cellGet (l ++ m) a = cellGet m a := by
  induction l with
  | nil => rfl
  | cons c l ih =>
    simp only [List.mem_cons, forall_eq_or_imp] at h
    rw [List.cons_append, cellGet, if_neg h.1, ih h.2]

theorem cellGet_append_of_not_right {l m : List Host.Cell} {a : Nat} (h : ∀ c ∈ m, c.1 ≠ a) : cellGet (l ++ m) a = cellGet l a := by
  induction l with
  | nil => exact cellGet_of_not_listed h
  | cons c l ih => rw [List.cons_append, cellGet, cellGet, ih]

theorem cellGet_filter_of_pass {l : List Host.Cell} {a : Nat} (p : Nat → Bool) (h : p a = true) :
    cellGet (l.filter fun c => p c.1) a = cellGet l a := by
  induction l with
  | nil => rfl
  | cons c l ih =>
    by_cases hc : p c.1 = true
    · rw [List.filter_cons_of_pos (p := fun c : Host.Cell => p c.1) hc, cellGet, cellGet, ih]
    · have hne : c.1 ≠ a := fun e => hc (e ▸ h)
      rw [List.filter_cons_of_neg (p := fun c : Host.Cell => p c.1) hc, ih, cellGet, if_neg hne]

/-- A byte of a range that is zeroed. -/
theorem cellGet_zero_inside {l : List Host.Cell} {lo hi a : Nat} (h : lo ≤ a ∧ a < hi) : cellGet (cellZero l lo hi) a = 0 :=
  cellGet_of_not_listed fun c hc e => by
    have := (List.mem_filter.1 hc).2
    simp only [e, h.1, h.2, decide_true, Bool.and_self, Bool.not_true, Bool.false_eq_true] at this

/-- The cells that a fill lists lie in its range. -/
theorem mem_fill {lo n : Nat} {f : Nat → Byte} {c : Host.Cell}
    (h : c ∈ (List.range n).filterMap fun i => if f i = 0 then none else some (lo + i, f i)) : lo ≤ c.1 ∧ c.1 < lo + n := by
  obtain ⟨i, hi, hc⟩ := List.mem_filterMap.1 h
  have hi := List.mem_range.1 hi
  split at hc
  · cases hc
  · cases hc; exact ⟨by omega, by omega⟩

/-- A byte outside the range of a fill stays. -/
theorem cellGet_fill_outside {l : List Host.Cell} {lo n a : Nat} (f : Nat → Byte) (h : ¬(lo ≤ a ∧ a < lo + n)) :
    cellGet (cellFill l lo n f) a = cellGet l a := by
  have hfill : ∀ c ∈ (List.range n).filterMap fun i => if f i = 0 then none else some (lo + i, f i), c.1 ≠ a :=
    fun c hc e => h (e ▸ mem_fill hc)
  unfold cellFill
  rcases Nat.lt_or_ge a lo with ha | ha
  · rw [cellGet_append_of_not_right, cellGet_append_of_not_right hfill, cellGet_filter_of_pass (fun k => decide (k < lo)) (by simpa using ha)]
    intro c hc
    have := of_decide_eq_true (List.mem_filter.1 hc).2
    omega
  · rw [cellGet_append_of_not_left, cellGet_filter_of_pass (fun k => decide (lo + n ≤ k)) (by simp; omega)]
    intro c hc
    rcases List.mem_append.1 hc with hc | hc
    · have := of_decide_eq_true (List.mem_filter.1 hc).2
      omega
    · exact hfill c hc

/-- A fill keeps the addresses rising. -/
theorem cellFill_rising {l : List Host.Cell} (lo n : Nat) (f : Nat → Byte) (h : rising (l.map (·.1)) = true) :
    rising ((cellFill l lo n f).map (·.1)) = true := by
  rw [rising_iff_pairwise, List.pairwise_map] at h ⊢
  have hnew : ((List.range n).filterMap fun i => if f i = 0 then none else some (lo + i, f i)).Pairwise (·.1 < ·.1) := by
    refine List.pairwise_filterMap.2 (List.pairwise_lt_range.imp fun {i j} hij b hb c hc => ?_)
    split at hb <;> cases hb
    split at hc <;> cases hc
    exact Nat.add_lt_add_left hij lo
  refine List.pairwise_append.2 ⟨List.pairwise_append.2 ⟨h.filter _, hnew, fun c hc d hd => ?_⟩, h.filter _, fun c hc d hd => ?_⟩
  · exact Nat.lt_of_lt_of_le (of_decide_eq_true (List.mem_filter.1 hc).2) (mem_fill hd).1
  · have hd := of_decide_eq_true (List.mem_filter.1 hd).2
    rcases List.mem_append.1 hc with hc | hc
    · have := of_decide_eq_true (List.mem_filter.1 hc).2
      omega
    · have := (mem_fill hc).2
      omega

/-- A byte at which no written address leads stays. -/
theorem cellGet_putBytes_outside {r : Bool} {x : Nat} (bs : List Byte) :
    ∀ {l : List Host.Cell} {a : Nat}, (∀ i < bs.length, (decodeAddr r (a + i)).key ≠ some x) →
      cellGet (putBytes r l a bs) x = cellGet l x := by
  induction bs with
  | nil => intro l a _; rfl
  | cons b bs ih =>
    intro l a h
    have hrest : ∀ i < bs.length, (decodeAddr r (a + 1 + i)).key ≠ some x := fun i hi => by
      rw [Nat.add_assoc, Nat.add_comm 1]
      exact h (i + 1) (by simpa using hi)
    have hhead := h 0 (by simp)
    simp only [putBytes]
    split
    · rename_i k hk
      have hne : x ≠ k := fun e => hhead (by rw [Nat.add_zero, hk, e])
      rw [ih hrest, cellGet_put_ne b hne]
    · exact ih hrest

/-- Bytes written at consecutive canonical addresses read back. -/
theorem cellGet_putBytes {r : Bool} (bs : List Byte) :
    ∀ {l : List Host.Cell} {a k : Nat}, rising (l.map (·.1)) = true → (∀ i < bs.length, (decodeAddr r (a + i)).key = some (k + i)) →
      ∀ i, ∀ h : i < bs.length, cellGet (putBytes r l a bs) (k + i) = bs[i] := by
  induction bs with
  | nil => intro l a k _ _ i h; cases h
  | cons b bs ih =>
    intro l a k hl hk i hi
    have hhead : (decodeAddr r a).key = some k := hk 0 (by simp)
    have hrest : ∀ j < bs.length, (decodeAddr r (a + 1 + j)).key = some (k + 1 + j) := fun j hj => by
      rw [Nat.add_assoc, Nat.add_assoc, Nat.add_comm 1]
      exact hk (j + 1) (by simpa using hj)
    simp only [putBytes, hhead]
    cases i with
    | zero =>
      rw [Nat.add_zero, cellGet_putBytes_outside bs fun j hj e => by rw [hrest j hj] at e; simp only [Option.some.injEq] at e; omega]
      exact cellGet_put_same k b hl
    | succ i =>
      have := ih (cellPut_rising k b hl) hrest i (by simpa using hi)
      rwa [Nat.add_assoc, Nat.add_comm 1] at this

/-! ### Numbers as bytes -/

@[simp] theorem toBytes_length (n v : Nat) : (toBytes n v).length = n := by
  induction n generalizing v with
  | zero => rfl
  | succ n ih => simp [toBytes, ih]

theorem ofBytes_toBytes (n v : Nat) : ofBytes (toBytes n v) = v % 2 ^ (8 * n) := by
  induction n generalizing v with
  | zero => simp [toBytes, ofBytes, Nat.mod_one]
  | succ n ih =>
    have hp : 2 ^ (8 * (n + 1)) = 256 * 2 ^ (8 * n) := by rw [Nat.mul_succ, Nat.pow_add, Nat.mul_comm]
    rw [toBytes, ofBytes, ih, hp, Nat.mod_mul, BitVec.toNat_ofNat]

/-! ### The addresses of pantries and stacks -/

/-- The canonical address of a byte of a pantry (R12); it leads there under both values of REMAP. -/
def pantryAddr (w : WingIx) (o : Nat) : Nat := 0x20000000 + w.val * 0x1000000 + o

theorem pantryAddr_add (w : WingIx) (o i : Nat) : pantryAddr w o + i = pantryAddr w (o + i) := Nat.add_assoc _ _ _

theorem pantryAddr_ge (w : WingIx) (o : Nat) : 0x20000000 ≤ pantryAddr w o := by
  unfold pantryAddr
  omega

theorem pantryAddr_lt_stacks (w : WingIx) {o : Nat} (h : o < 0x800000) : pantryAddr w o < 0x1000000000 := by
  have hw := w.isLt
  unfold pantryAddr
  omega

theorem addr_of_pantry {r : Bool} {a o : Nat} {w : WingIx} (h : decodeAddr r a = .pantry w o) : a = pantryAddr w o := by
  unfold decodeAddr at h
  dsimp only at h
  repeat' split at h
  all_goals simp only [reduceCtorEq, Tgt.pantry.injEq] at h
  obtain ⟨hw, ho⟩ := h
  rw [← hw, ← ho, pantryAddr, wingNo]
  dsimp only
  omega

theorem decodeAddr_pantryAddr (r : Bool) (w : WingIx) {o : Nat} (h : o < 0x800000) : decodeAddr r (pantryAddr w o) = .pantry w o := by
  have hw := w.isLt
  unfold pantryAddr
  have hwing : wingNo ((0x20000000 + w.val * 0x1000000 + o) / 0x1000000) = w := Fin.ext (by simp only [wingNo]; omega)
  have hoff : (0x20000000 + w.val * 0x1000000 + o) % 0x1000000 = o := by omega
  unfold decodeAddr
  rw [if_neg (by omega), if_neg (by omega), if_pos (by omega)]
  simp only [hoff, if_pos h, hwing]

theorem key_pantryAddr (r : Bool) (w : WingIx) {o : Nat} (h : o < 0x800000) :
    (decodeAddr r (pantryAddr w o)).key = some (pantryAddr w o) := by
  rw [decodeAddr_pantryAddr r w h]
  rfl

theorem keyWing_pantryAddr (w : WingIx) {o : Nat} (h : o < 0x800000) : keyWing (pantryAddr w o) = w := by
  have hw := w.isLt
  rw [keyWing, if_neg (by have := pantryAddr_lt_stacks w h; omega)]
  exact Fin.ext (by simp only [wingNo, pantryAddr]; omega)

/-- The wing of a canonical address of a stack. -/
theorem keyWing_hbm (w : WingIx) {o : Nat} (h : o < 2 ^ 34) : keyWing (0x1000000000 + w.val * 2 ^ 34 + o) = w := by
  have hw := w.isLt
  rw [keyWing, if_pos (by omega)]
  exact Fin.ext (by simp only [wingNo]; omega)

theorem filterMap_eq_map_of_some {α β : Type} {f : α → Option β} {g : α → β} {l : List α} (h : ∀ x ∈ l, f x = some (g x)) :
    l.filterMap f = l.map g := by
  induction l with
  | nil => rfl
  | cons x l ih =>
    simp only [List.mem_cons, forall_eq_or_imp] at h
    rw [List.filterMap_cons_some h.1, List.map_cons, ih h.2]

theorem keysOf_pantryAddr (s : State) (w : WingIx) {o n : Nat} (h : o + n ≤ 0x800000) :
    s.keysOf (pantryAddr w o) n = (List.range n).map (pantryAddr w o + ·) := by
  refine filterMap_eq_map_of_some fun i hi => ?_
  have := List.mem_range.1 hi
  rw [pantryAddr_add]
  exact key_pantryAddr _ w (by omega)

theorem physByte_pantryAddr (s : State) (w : WingIx) {o : Nat} (h : o < 0x800000) :
    s.physByte (pantryAddr w o) = cellGet s.mem.cells (pantryAddr w o) := by
  rw [State.physByte, decodeAddr_pantryAddr _ w h]
  rfl

/-- Bytes written from an address of a pantry on read back. -/
theorem cellGet_putBytes_pantryAddr (r : Bool) {l : List Host.Cell} {bs : List Byte} (w : WingIx) {o : Nat} (hl : rising (l.map (·.1)) = true)
    (h : o + bs.length ≤ 0x800000) (i : Nat) (hi : i < bs.length) :
    cellGet (putBytes r l (pantryAddr w o) bs) (pantryAddr w (o + i)) = bs[i] := by
  rw [← pantryAddr_add]
  refine cellGet_putBytes bs hl (fun j hj => ?_) i hi
  rw [pantryAddr_add]
  exact key_pantryAddr r w (by omega)

/-! ### What no access at an accumulate unit changes -/

/-- The registers of a window, which say where it and its shadow lie (R46, R51). -/
def winRegs (d : DetWin) : Word × Word × Word × Word := (d.base, d.limit, d.shadow, d.ctl)

/-- The Hall, the tick leases and the registers of the windows are the same in two states. -/
structure SameUnits (s t : State) : Prop where
  hall : t.hall = s.hall
  tick : ∀ e, (t.eng e).tick = (s.eng e).tick
  win : ∀ (w : WingIx) (i : Fin 4), winRegs ((t.wing w).det[i.val]) = winRegs ((s.wing w).det[i.val])

/-- Memory is the same too. -/
structure Quiet (s t : State) : Prop extends SameUnits s t where
  mem : t.mem = s.mem

/-- Memory stays in canonical form, and only some bytes have changed: those at some canonical addresses, and bytes of the shadows, which lie
in the stacks (R46). -/
structure Wrote (keys : List Nat) (s t : State) : Prop extends SameUnits s t where
  wf : Memory.wf s.mem = true → Memory.wf t.mem = true
  cells : ∀ k, k ∉ keys → (0x1000000000 ≤ k → ¬s.inShadow k) → cellGet t.mem.cells k = cellGet s.mem.cells k

theorem holds_eq_of_winRegs {d e : DetWin} (h : winRegs d = winRegs e) (a : Nat) : d.holds a = e.holds a := by
  simp only [winRegs, Prod.mk.injEq] at h
  obtain ⟨hbase, hlimit, -, hctl⟩ := h
  simp only [DetWin.holds, DetWin.covers, hbase, hlimit, hctl]

theorem entryAt_eq_of_winRegs {d e : DetWin} (h : winRegs d = winRegs e) (a : Nat) : d.entryAt a = e.entryAt a := by
  simp only [winRegs, Prod.mk.injEq] at h
  obtain ⟨hbase, -, hshadow, hctl⟩ := h
  simp only [DetWin.entryAt, DetWin.bytes, DetWin.fmt, hbase, hshadow, hctl]

variable {s t u : State}

theorem SameUnits.refl (s : State) : SameUnits s s := ⟨rfl, fun _ => rfl, fun _ _ => rfl⟩
theorem SameUnits.trans (h : SameUnits s t) (k : SameUnits t u) : SameUnits s u :=
  ⟨k.hall.trans h.hall, fun e => (k.tick e).trans (h.tick e), fun w i => (k.win w i).trans (h.win w i)⟩

theorem SameUnits.inShadow (h : SameUnits s t) (k : Nat) : t.inShadow k ↔ s.inShadow k := by
  simp only [State.inShadow, fun w i a => holds_eq_of_winRegs (h.win w i) a, fun w i a => entryAt_eq_of_winRegs (h.win w i) a]

theorem SameUnits.noGrace (h : SameUnits s t) (hs : s.noGrace) : t.noGrace := fun e d => by rw [h.tick e]; exact hs e d

theorem Quiet.refl (s : State) : Quiet s s := ⟨.refl s, rfl⟩
theorem Quiet.trans (h : Quiet s t) (k : Quiet t u) : Quiet s u := ⟨h.toSameUnits.trans k.toSameUnits, k.mem.trans h.mem⟩

theorem Quiet.wrote (h : Quiet s t) (keys : List Nat) : Wrote keys s t :=
  ⟨h.toSameUnits, fun hs => h.mem ▸ hs, fun _ _ _ => by rw [h.mem]⟩

theorem Wrote.trans {keys : List Nat} (h : Wrote keys s t) (k : Wrote keys t u) : Wrote keys s u :=
  ⟨h.toSameUnits.trans k.toSameUnits, fun hs => k.wf (h.wf hs), fun x hx hsh =>
    (k.cells x hx fun hb => by rw [h.toSameUnits.inShadow]; exact hsh hb).trans (h.cells x hx hsh)⟩

theorem Wrote.mono {keys more : List Nat} (h : Wrote keys s t) (hm : ∀ k ∈ keys, k ∈ more) : Wrote more s t :=
  ⟨h.toSameUnits, h.wf, fun k hk => h.cells k fun hx => hk (hm k hx)⟩

/-- Writes into shadows leave the pantries. -/
theorem Wrote.cell_below_stacks (h : Wrote [] s t) {k : Nat} (hk : k < 0x1000000000) : cellGet t.mem.cells k = cellGet s.mem.cells k :=
  h.cells k List.not_mem_nil fun hb => absurd hk (by omega)

theorem Quiet.foldl {α : Type} {f : State → α → State} (h : ∀ t x, Quiet t (f t x)) (l : List α) : ∀ s, Quiet s (l.foldl f s) := by
  induction l with
  | nil => exact fun s => .refl s
  | cons x l ih => exact fun s => (h s x).trans (ih _)

theorem Wrote.foldl {α : Type} {keys : List Nat} {f : State → α → State} (h : ∀ t x, Wrote keys t (f t x)) (l : List α) :
    ∀ s, Wrote keys s (l.foldl f s) := by
  induction l with
  | nil => exact fun s => (Quiet.refl s).wrote keys
  | cons x l ih => exact fun s => (h s x).trans (ih _)

/-- The bytes of memory that two states share, in terms of the physical addresses of programs. -/
theorem Wrote.sameBut {keys : List Nat} (h : Wrote keys s t) : s.sameBut t keys := fun x hx => by
  simp only [State.physByte, h.hall, State.byteAt]
  split
  · rfl
  · split
    · rename_i k hk
      exact h.cells k (hx k hk).1 fun _ => (hx k hk).2
    · rfl

/-! ### Counters, buffers, watchpoints and copies: memory stays -/

theorem quiet_of_eq (hmem : t.mem = s.mem) (hhall : t.hall = s.hall) (heng : t.engines = s.engines) (hwings : t.wings = s.wings) : Quiet s t :=
  ⟨⟨hhall, fun e => by rw [State.eng, heng, State.eng], fun w i => by simp only [State.wing, hwings]⟩, hmem⟩

/-- An update of a wing that keeps the registers of its windows. -/
theorem modWing_sameUnits (s : State) (w : WingIx) (f : Wing → Wing)
    (h : ∀ i : Fin 4, winRegs ((f (s.wing w)).det[i.val]) = winRegs ((s.wing w).det[i.val])) : SameUnits s (s.modWing w f) :=
  ⟨rfl, fun _ => rfl, fun x i => by
    by_cases hx : x = w
    · subst hx; rw [modWing_wing]; exact h i
    · rw [modWing_wing_ne _ _ _ _ hx]⟩

theorem modWing_quiet (s : State) (w : WingIx) (f : Wing → Wing) (h : (f (s.wing w)).det = (s.wing w).det) : Quiet s (s.modWing w f) :=
  ⟨modWing_sameUnits s w f fun i => by rw [h], rfl⟩

theorem wingCnt_quiet (s : State) (w : WingIx) (i : Fin 12) (k : Nat) : Quiet s (s.wingCnt w i k) := by
  unfold State.wingCnt
  split
  · exact .refl s
  · exact modWing_quiet s w _ rfl

theorem setAttic_tick (s : State) (c : Fin 17) (l : List (BitVec 128)) (e : EngIx) : ((s.setAttic c l).eng e).tick = (s.eng e).tick := by
  unfold State.setAttic
  split
  · rename_i hc
    by_cases he : e = ⟨c.val, hc⟩
    · subst he; simp
    · rw [modEng_eng_ne _ _ _ _ he]
  · rfl

theorem setAttic_quiet (s : State) (c : Fin 17) (l : List (BitVec 128)) : Quiet s (s.setAttic c l) :=
  ⟨⟨by simp, setAttic_tick s c l, fun w i => by simp [State.wing]⟩, by simp⟩

theorem modTch_quiet (s : State) (c : Fin 17) (f : Tch → Tch) : Quiet s (s.modTch c f) := quiet_of_eq rfl rfl rfl rfl

theorem dropRecord_quiet (s : State) (c : Fin 17) : Quiet s (s.dropRecord c) := quiet_of_eq (by simp) (by simp) (by simp) (by simp)

theorem trace_quiet (s : State) (c : Fin 17) (sync cmd : Bool) (t : Option TenIx) (ty src : Nat) (w : Word) :
    Quiet s (s.trace c sync cmd t ty src w) := by
  unfold State.trace
  dsimp only
  split
  · split
    · exact (setAttic_quiet s c _).trans (modTch_quiet _ c _)
    · split
      · exact ((modTch_quiet s c _).trans (setAttic_quiet _ c _)).trans (dropRecord_quiet _ c)
      · exact dropRecord_quiet s c
  · exact .refl s

theorem mgrVector_quiet (s : State) : Quiet s s.mgrVector := quiet_of_eq (by simp) (by simp) (by simp) (by simp)

theorem watchAccess_quiet (s : State) (w : WingIx) (src : AccSrc) (key n kind : Nat) : Quiet s (s.watchAccess w src key n kind) := by
  unfold State.watchAccess
  extract_lets wg hits s1 s2 ps s3 s4
  have h3 : Quiet s s3 := ((modWing_quiet s w _ rfl).trans (wingCnt_quiet s1 w 10 1)).trans (quiet_of_eq rfl rfl rfl rfl)
  have h4 : Quiet s s4 := by
    unfold s4
    split
    · exact h3.trans (mgrVector_quiet s3)
    · exact h3
  split
  · exact .refl s
  · split
    · exact .refl s
    · split
      · exact h4.trans (trace_quiet s4 _ _ _ _ _ _ _)
      · exact h4

theorem lineUse_quiet (s : State) (key : Nat) (alloc : Bool) (who : Option Nat) : Quiet s (s.lineUse key alloc who) := by
  unfold State.lineUse
  split
  · exact (modWing_quiet s _ _ rfl).trans (wingCnt_quiet _ _ _ _)
  · split
    · exact wingCnt_quiet s _ _ _
    · exact .refl s

/-- The side effects of an accepted access on counters, buffers and watchpoints leave memory (R43, R235, R273). -/
theorem accTouch_quiet (s : State) (src : AccSrc) (keys : List Nat) (kind : Nat) : Quiet s (s.accTouch src keys kind) := by
  unfold State.accTouch
  refine Quiet.trans (Quiet.foldl (fun t l => lineUse_quiet t _ _ _) _ s) (Quiet.foldl (fun t x => ?_) _ _)
  split
  · exact watchAccess_quiet t _ _ _ _ _
  · exact .refl t

theorem dropLines_quiet (s : State) (hit : Nat → Bool) : Quiet s (s.dropLines hit) :=
  ⟨⟨rfl, fun _ => rfl, fun w i => by simp [State.dropLines, State.wing]⟩, rfl⟩

theorem dropResv_quiet (s : State) (hit : Nat → Bool) : Quiet s (s.dropResv hit) := quiet_of_eq rfl rfl rfl rfl

/-! ### Shadows follow their windows (R46, R47) -/

@[simp] theorem sumOf_addr (a : Nat) (v : FV) : (sumOf a v).addr = a := by cases v <;> rfl

/-- A fill in the stack of a wing keeps the canonical form of memory. -/
theorem fill_wf {m : MemS} (lo n : Nat) (f : Nat → Byte) (h : Memory.wf m = true) :
    Memory.wf { m with cells := cellFill m.cells lo n f } = true := by
  obtain ⟨hr, hz, hp⟩ := wf_iff.1 h
  refine wf_iff.2 ⟨cellFill_rising lo n f hr, ?_, hp⟩
  simp only [cellFill, List.all_append, Bool.and_eq_true, List.all_eq_true] at hz ⊢
  refine ⟨⟨fun c hc => hz c (List.mem_filter.1 hc).1, fun c hc => ?_⟩, fun c hc => hz c (List.mem_filter.1 hc).1⟩
  obtain ⟨i, -, hc⟩ := List.mem_filterMap.1 hc
  split at hc <;> cases hc
  rename_i hne
  simpa using hne

/-- The exact sum of an element of a window is set: only its shadow entry changes in memory. -/
theorem setSum_wrote (s : State) (w : WingIx) (i : Fin 4) (x : DetSum) (h : ((s.wing w).det[i.val]).holds x.addr = true) :
    Wrote [] s (s.setSum w i x) := by
  have hunits : SameUnits s (s.modWing w fun g => { g with det := vmod g.det i fun d => d.setSum x }) := by
    refine modWing_sameUnits s w _ fun j => ?_
    by_cases hj : j = i
    · subst hj; rw [vmod_get]; rfl
    · rw [vmod_get_ne _ _ _ _ hj]
  unfold State.setSum
  dsimp only
  split
  · rename_i hin
    have hlow : 0x1000000000 + w.val * 2 ^ 34 ≤ ((s.wing w).det[i.val]).entryAt x.addr :=
      of_decide_eq_true ((Bool.and_eq_true _ _).mp hin).1
    refine ⟨⟨hunits.hall, hunits.tick, hunits.win⟩, fill_wf _ _ _, fun k _ hk => cellGet_fill_outside _ fun hr => ?_⟩
    exact hk (by omega) ⟨w, i, x.addr, h, hr.1, hr.2⟩
  · exact ⟨hunits, id, fun _ _ _ => rfl⟩

/-- The window that is found for an address holds it. -/
theorem holds_of_detAt {w : Wing} {k : Nat} {i : Fin 4} (h : w.detAt k = some i) : (w.det[i.val]).holds k = true :=
  List.find?_some (p := fun i : Fin 4 => (w.det[i.val]).holds k) h

/-- The first byte of the element that holds a byte of a window lies in the window too. -/
theorem holds_element {d : DetWin} {k : Nat} (h : d.holds k = true) : d.holds (k - (k - fld d.base 47 0) % d.bytes) = true := by
  simp only [DetWin.holds, DetWin.covers, Bool.and_eq_true, decide_eq_true_eq] at h ⊢
  have := Nat.mod_le (k - fld d.base 47 0) d.bytes
  exact ⟨h.1, by omega, by omega⟩

theorem detRewrite_wrote (s : State) (keys : List Nat) : Wrote [] s (s.detRewrite keys) := by
  unfold State.detRewrite
  refine Wrote.foldl (fun t k => ?_) keys s
  split
  · exact (Quiet.refl t).wrote []
  · dsimp only
    split
    · rename_i i hi
      exact setSum_wrote t _ i _ (by rw [sumOf_addr]; exact holds_element (holds_of_detAt hi))
    · exact (Quiet.refl t).wrote []

theorem snoopWrite_wrote (s : State) (keys : List Nat) : Wrote [] s (s.snoopWrite keys) := by
  unfold State.snoopWrite
  split
  · exact (Quiet.refl s).wrote []
  · exact (((dropLines_quiet s _).trans (dropResv_quiet _ _)).wrote []).trans (detRewrite_wrote _ _)

/-! ### Accepted writes (R45) -/

theorem poke_wrote (s : State) (a : Nat) (bs : List Byte) : Wrote (s.keysOf a bs.length) s (s.poke a bs) :=
  ⟨⟨rfl, fun _ => rfl, fun _ _ => rfl⟩, poke_wf a bs false, fun _ hk _ => cellGet_putBytes_outside bs fun i hi e =>
    hk (List.mem_filterMap.2 ⟨i, List.mem_range.2 hi, e⟩)⟩

theorem keysOf_congr (h : t.hall = s.hall) (a n : Nat) : t.keysOf a n = s.keysOf a n := by rw [State.keysOf, h, State.keysOf]

/-- What an accepted write does to memory once copies are invalidated: the bytes, then the sums of windows. -/
theorem accWrite_wrote (s : State) (src : AccSrc) (a : Nat) (bs : List Byte) :
    Wrote (s.keysOf a bs.length) s (s.accWrite src a bs) := by
  have hsnoop := snoopWrite_wrote s (s.keysOf a bs.length)
  have hpoke := poke_wrote (s.snoopWrite (s.keysOf a bs.length)) a bs
  rw [keysOf_congr hsnoop.hall] at hpoke
  exact (((hsnoop.mono (by simp)).trans hpoke).trans ((detRewrite_wrote _ _).mono (by simp))).trans ((accTouch_quiet _ _ _ _).wrote _)

/-! ### The seal -/

/-- With no tick run in its grace wait, no seal is checked again. -/
theorem sealSweep_of_noGrace (h : s.noGrace) : s.sealSweep = s := by
  have hstep (e : EngIx) : s.sealRecheck e = s := by
    unfold State.sealRecheck
    split
    · rename_i d hd; exact absurd hd (h e d)
    · rfl
  unfold State.sealSweep
  induction allFin 16 with
  | nil => rfl
  | cons e l ih => rw [List.foldl_cons, hstep, ih]

/-! ### Writes and updates of a pantry (R42, R45) -/

theorem accWrite_pantry (src : AccSrc) (w : WingIx) {o : Nat} {bs : List Byte} (hwf : Memory.wf s.mem = true)
    (h : o + bs.length ≤ 0x800000) (i : Nat) (hi : i < bs.length) :
    cellGet (s.accWrite src (pantryAddr w o) bs).mem.cells (pantryAddr w (o + i)) = bs[i] := by
  unfold State.accWrite
  dsimp only
  rw [(accTouch_quiet _ _ _ _).mem, (detRewrite_wrote _ _).cell_below_stacks (pantryAddr_lt_stacks w (by omega))]
  have hrise := (wf_iff.1 ((snoopWrite_wrote s (s.keysOf (pantryAddr w o) bs.length)).wf hwf)).1
  exact cellGet_putBytes_pantryAddr _ w hrise h i hi

/-- Bytes at consecutive canonical addresses of memory are replaced. -/
def putAt (s : State) (k : Nat) (bs : List Byte) : State := { s with mem := { s.mem with cells := putBytes false s.mem.cells k bs } }

theorem putAt_wrote (s : State) (w : WingIx) {o : Nat} {bs : List Byte} (h : o + bs.length ≤ 0x800000) :
    Wrote ((List.range bs.length).map (pantryAddr w o + ·)) s (putAt s (pantryAddr w o) bs) := by
  refine ⟨⟨rfl, fun _ => rfl, fun _ _ => rfl⟩, fun hwf => ?_, fun k hk _ => cellGet_putBytes_outside bs fun i hi e => hk ?_⟩
  · obtain ⟨hr, hz, hp⟩ := wf_iff.1 hwf
    obtain ⟨hr', hz'⟩ := putBytes_wf (remap := false) bs (pantryAddr w o) hr hz
    exact wf_iff.2 ⟨hr', hz', hp⟩
  · rw [pantryAddr_add, key_pantryAddr false w (by omega)] at e
    exact List.mem_map.2 ⟨i, List.mem_range.2 hi, (pantryAddr_add w o i).trans (Option.some.inj e)⟩

/-- The state after an update outside windows of an element that is not poisoned. -/
def plainUpdate (s : State) (src : AccSrc) (k op ty v : Nat) : State :=
  let keys := (List.range (accWidth ty)).map (k + ·)
  let new := toBytes (accWidth ty) (accFold op ty (s.elemAt k (accWidth ty)) v)
  ((putAt (s.snoopWrite keys) k new).wingCnt (keyWing k) 6 1).accTouch src keys 2

theorem accUpdate_plain (src : AccSrc) {k op ty : Nat} (v : Nat) (hpair : accPair op ty = true) (hk : 0x20000000 ≤ k)
    (hdet : (s.wing (keyWing k)).detAt k = none) (hclean : s.mem.poison.contains (gran k) = false) :
    s.accUpdate src k op ty v = some (plainUpdate s src k op ty v) := by
  simp only [State.accUpdate, hpair, hdet, hclean, Nat.not_lt.2 hk, Bool.not_true, decide_false, Bool.or_self, Bool.false_eq_true, if_false]
  rfl

theorem accWidth_pos {op ty : Nat} (h : accPair op ty = true) : 0 < accWidth ty := by
  match ty with
  | 0 | 1 | 2 | 3 | 4 | 5 | 6 => decide
  | n + 7 =>
    unfold accPair at h
    split at h <;> simp at h

theorem plainUpdate_wrote (s : State) (src : AccSrc) (w : WingIx) {o op ty : Nat} (v : Nat) (h : o + accWidth ty ≤ 0x800000) :
    Wrote (s.keysOf (pantryAddr w o) (accWidth ty)) s (plainUpdate s src (pantryAddr w o) op ty v) := by
  rw [keysOf_pantryAddr s w h]
  have hput := putAt_wrote (s.snoopWrite ((List.range (accWidth ty)).map (pantryAddr w o + ·))) w
    (bs := toBytes (accWidth ty) (accFold op ty (s.elemAt (pantryAddr w o) (accWidth ty)) v)) (by simpa using h)
  rw [toBytes_length] at hput
  exact (((snoopWrite_wrote s _).mono (by simp)).trans hput).trans (((wingCnt_quiet _ _ _ _).trans (accTouch_quiet _ _ _ _)).wrote _)

theorem plainUpdate_pantry (src : AccSrc) (w : WingIx) {o op ty : Nat} (v : Nat) (hwf : Memory.wf s.mem = true)
    (h : o + accWidth ty ≤ 0x800000) :
    (plainUpdate s src (pantryAddr w o) op ty v).physBytes (pantryAddr w o) (accWidth ty)
      = toBytes (accWidth ty) (accFold op ty (s.elemAt (pantryAddr w o) (accWidth ty)) v) := by
  refine List.ext_getElem (by simp [State.physBytes]) fun i hi hi' => ?_
  have hi : i < accWidth ty := by simpa using hi'
  have hrise := (wf_iff.1 ((snoopWrite_wrote s ((List.range (accWidth ty)).map (pantryAddr w o + ·))).wf hwf)).1
  simp only [State.physBytes, List.getElem_map, List.getElem_range, pantryAddr_add]
  rw [physByte_pantryAddr _ w (by omega)]
  simp only [plainUpdate, (accTouch_quiet _ _ _ _).mem, wingCnt_mem]
  exact cellGet_putBytes_pantryAddr _ w hrise (by simpa using h) i hi'

theorem elemAt_pantryAddr (s : State) (w : WingIx) {o n : Nat} (h : o + n ≤ 0x800000) :
    s.elemAt (pantryAddr w o) n = ofBytes (s.physBytes (pantryAddr w o) n) := by
  refine congrArg ofBytes (List.map_congr_left fun i hi => ?_)
  have := List.mem_range.1 hi
  rw [pantryAddr_add, physByte_pantryAddr s w (by omega)]

/-! ### ACC_UNIT_ACCESS (R40-R42, R45) -/

/-- The accesses of which O34 speaks: n bytes from byte o of the pantry of a wing that is ACTIVE, free of ECC errors, while nothing waits. -/
structure PantryAccess (s : State) (a : AccAccess) (w : WingIx) (o n : Nat) : Prop where
  on : s.fabricOn = true
  calm : s.noGrace
  clean : a.ecc = .clean
  leads : decodeAddr s.hall.remap a.addr = .pantry w o
  fits : o + n ≤ 0x800000
  active : (s.wing w).pwrState = 0
  wf : Memory.wf s.mem = true
  noneHeld : s.hall.held = []
  mapped : s.remapHolds a.addr = false

section
variable {a : AccAccess} {w : WingIx} {o n : Nat} (h : PantryAccess s a w o n)
include h

theorem PantryAccess.addr : a.addr = pantryAddr w o := addr_of_pantry h.leads

/-- Such an access is served at once, an update unless a window under INIT covers it (R47). -/
theorem PantryAccess.exec_eq (hdet : ∀ op ty v, a.kind = .update op ty v → (s.keysOf a.addr (accWidth ty.toNat)).any s.detHeld = false) :
    exec (.accUnitAccess a) s = .next (s.accAccept w a (pantryAddr w o)).sealSweep := by
  have hready : s.accReady a.addr = .ok := by simp [State.accReady, h.leads, h.active]
  have hgo : s.mustWait (.acc a) = false := by
    simp only [State.mustWait, HeldAcc.range, h.mapped, hready, heldLine_nil s h.noneHeld, Bool.false_or]
    cases hk : a.kind with
    | read n => rfl
    | write bs => rfl
    | update op ty v => simpa [hk] using hdet op ty v hk
  have hserve : s.accServe a = s.accAccept w a (pantryAddr w o) := by
    simp only [State.accServe, h.leads]
    rfl
  change Host.Outcome.next (if s.fabricOn then s.take (.acc a) else s) = _
  rw [if_pos h.on, take_serve s _ hgo, State.serve, hserve]

/-- What the access leaves stands after the command too: no seal is checked again. -/
theorem PantryAccess.exec_next {u : State} (hdet : ∀ op ty v, a.kind = .update op ty v →
      (s.keysOf a.addr (accWidth ty.toNat)).any s.detHeld = false)
    (hu : s.accAccept w a (pantryAddr w o) = u) (hunits : SameUnits s u) : exec (.accUnitAccess a) s = .next u := by
  rw [h.exec_eq hdet, hu, sealSweep_of_noGrace (hunits.noGrace h.calm)]

theorem PantryAccess.read (hk : a.kind = .read n) :
    ∃ u, exec (.accUnitAccess a) s = .next u ∧ u.out = s.physBytes a.addr n ∧ u.mem = s.mem := by
  have htouch := accTouch_quiet s (accSrcOf w a) (s.keysOf a.addr n) 0
  refine ⟨{ s.accTouch (accSrcOf w a) (s.keysOf a.addr n) 0 with out := s.physBytes a.addr n },
    h.exec_next (fun op ty v e => by rw [hk] at e; cases e) ?_ ⟨htouch.hall, htouch.tick, htouch.win⟩, rfl, htouch.mem⟩
  simp only [State.accAccept, hk, h.clean, State.eccAt, State.accRead]

theorem PantryAccess.write {bs : List Byte} (hk : a.kind = .write bs) (hn : bs.length = n) :
    ∃ u, exec (.accUnitAccess a) s = .next u ∧ (∀ i, ∀ h : i < bs.length, u.physByte (a.addr + i) = bs[i])
      ∧ s.sameBut u (s.keysOf a.addr n) := by
  have hfits := h.fits
  have hwrote := accWrite_wrote s (accSrcOf w a) a.addr bs
  refine ⟨s.accWrite (accSrcOf w a) a.addr bs, h.exec_next (fun op ty v e => by rw [hk] at e; cases e) ?_ hwrote.toSameUnits,
    fun i hi => ?_, hn ▸ hwrote.sameBut⟩
  · simp only [State.accAccept, hk, h.clean, State.eccAt]
  · rw [h.addr, pantryAddr_add, physByte_pantryAddr _ w (by omega)]
    exact accWrite_pantry _ w h.wf (by omega) i hi

theorem PantryAccess.update {op : BitVec 4} {ty : BitVec 3} {v : Word} (hk : a.kind = .update op ty v)
    (hpair : accPair op.toNat ty.toNat = true) (hn : accWidth ty.toNat = n) (hclean : s.poisoned a.addr n = false)
    (hwin : ∀ k, (decodeAddr s.hall.remap a.addr).key = some k → (s.wing w).detAt k = none)
    (hdet : (s.keysOf a.addr n).any s.detHeld = false) :
    ∃ u, exec (.accUnitAccess a) s = .next u
      ∧ ofBytes (u.physBytes a.addr n) = accFold op.toNat ty.toNat (ofBytes (s.physBytes a.addr n)) v.toNat % 2 ^ (8 * n)
      ∧ s.sameBut u (s.keysOf a.addr n) := by
  subst hn
  have hfits := h.fits
  have hpos := accWidth_pos hpair
  have hkeys := keysOf_pantryAddr s w hfits
  have hwrote := plainUpdate_wrote s (accSrcOf w a) w (op := op.toNat) v.toNat hfits
  have hunpoisoned : s.mem.poison.contains (gran (pantryAddr w o)) = false := by
    rw [State.poisoned, h.addr, hkeys, List.any_eq_false] at hclean
    exact Bool.eq_false_iff.2 (hclean _ (List.mem_map.2 ⟨0, List.mem_range.2 hpos, rfl⟩))
  have hnowin : (s.wing (keyWing (pantryAddr w o))).detAt (pantryAddr w o) = none := by
    rw [keyWing_pantryAddr w (by omega)]
    exact hwin _ (by rw [h.leads]; rfl)
  refine ⟨plainUpdate s (accSrcOf w a) (pantryAddr w o) op.toNat ty.toNat v.toNat,
    h.exec_next (fun op' ty' v' e => ?_) ?_ hwrote.toSameUnits, ?_, h.addr ▸ hwrote.sameBut⟩
  · rw [hk] at e
    cases e
    exact hdet
  · simp only [State.accAccept, hk, h.clean, State.eccAt, accUpdate_plain _ _ hpair (pantryAddr_ge w o) hnowin hunpoisoned]
  · rw [h.addr, plainUpdate_pantry _ w _ h.wf hfits, ofBytes_toBytes, elemAt_pantryAddr s w hfits]
end

/-- Settles O34: an access to a pantry is served at once, and what it leaves follows from the rules for a read, a write and an update. -/
theorem accumulateUnitAccesses : Obligations.AccumulateUnitAccesses := by
  unfold Obligations.AccumulateUnitAccesses
  intro s a w o n hon hcalm hclean hleads hfits hactive hwf hheld hmap
  have h : PantryAccess s a w o n := ⟨hon, hcalm, hclean, hleads, hfits, hactive, hwf, hheld, hmap⟩
  exact ⟨fun _ hk hn => h.write hk hn, fun hk => h.read hk,
    fun _ _ _ hk hpair hn hpoison hwin hdet => h.update hk hpair hn hpoison hwin hdet⟩

/-! ### Determinism windows (R47, R51) -/

section
variable (s : State) (w : WingIx) (k : Fin 4)

/-- A window of a wing whose INIT the manager has written: every shadow entry takes the exact value of its target (R47). -/
def underInit (d : DetWin) : DetWin :=
  { d with ctl := d.ctl ||| 8, initing := true, initDone := false, sums := (d.elements w).map (s.exactAt d) }

theorem detInit_det : ((s.detInit w k).wing w).det = vmod (s.wing w).det k (underInit s w) := by
  have hmod (f : DetWin → DetWin) : ((s.modWing w fun x => { x with det := vmod x.det k f }).wing w).det = vmod (s.wing w).det k f :=
    congrArg Wing.det (modWing_wing s w _)
  unfold State.detInit
  extract_lets d l t lo
  have ht : (t.wing w).det = vmod (s.wing w).det k (underInit s w) := (hmod _).trans (vmod_congr _ _ _ _ rfl)
  split <;> exact ht

/-- INIT changes no byte of memory outside the shadow (R46). -/
theorem detInit_cell {x : Nat}
    (hx : ¬(fld ((s.wing w).det[k.val]).shadow 47 0 ≤ x
      ∧ x < fld ((s.wing w).det[k.val]).shadow 47 0 + 40 * (((s.wing w).det[k.val]).elements w).length)) :
    cellGet (s.detInit w k).mem.cells x = cellGet s.mem.cells x := by
  unfold State.detInit
  extract_lets d l t lo
  split
  · exact cellGet_fill_outside _ hx
  · rfl

theorem detInitDone_eq (h : ((s.wing w).det[k.val]).initing = true) : s.detInitDone w k
    = s.modWing w fun x => { x with det := vmod x.det k fun d => { d with initing := false, initDone := true } } := by
  rw [State.detInitDone, if_pos h]

variable {s w k}

theorem exec_detInit {m : Writer} (hon : s.fabricOn = true) (hm : s.isManager m = true) :
    exec (.detInit m w k) s = .next (s.detInit w k) := by
  change Host.Outcome.next (if s.fabricOn then s.asManager m fun s => s.detInit w k else s) = _
  rw [if_pos hon, State.asManager, if_pos hm]

theorem exec_detInitDone (hon : s.fabricOn = true) (hheld : s.hall.held = []) (h : ((s.wing w).det[k.val]).initing = true) :
    exec (.detInitDone w k) s = .next (s.detInitDone w k) := by
  change Host.Outcome.next (if s.fabricOn then (s.detInitDone w k).serveHeld else s) = _
  rw [if_pos hon, serveHeld_nil _ (by rw [detInitDone_eq s w k h]; exact hheld)]

end

/-! ### Error counters and the scrubber (R50, R51, R357) -/

theorem eccCntRead_eccCnt (s : State) (w : WingIx) : ((s.eccCntRead w).wing w).eccCnt = 0 := by
  have hwing : (s.eccCntRead w).wing w
      = { s.wing w with cePantry := 0, ceHbm := 0, uePantry := 0, ueHbm := 0, accPoisoned := 0 } := modWing_wing s w _
  rw [hwing]
  simp [Wing.eccCnt, at_]

theorem hallEccRead_eccWord (s : State) : s.hallEccRead.hall.eccWord = 0 := by
  simp [State.hallEccRead, State.modHall, Hall.eccWord, at_]

theorem exec_eccCntRead {m : Writer} (w : WingIx) (hon : s.fabricOn = true) : exec (.eccCntRead m w) s
    = .next (if s.isManager m then s.eccCntRead w else { s with out := toBytes 8 (s.wing w).eccCnt.toNat }) := by
  change Host.Outcome.next (if !s.fabricOn then s else _) = _
  rw [hon]
  rfl

theorem exec_hallEccRead {m : Writer} (hon : s.fabricOn = true) : exec (.hallEccRead m) s
    = .next (if s.isManager m then s.hallEccRead else { s with out := toBytes 8 s.hall.eccWord.toNat }) := by
  change Host.Outcome.next (if !s.fabricOn then s else _) = _
  rw [hon]
  rfl

/-- A single-bit error in a stack that the scrubber finds is counted and corrected (R48, R50). -/
theorem scrubOne_single_hbm {w : WingIx} {x o : Nat} (hx : decodeAddr s.hall.remap x = .hbm w o) (ho : o < 2 ^ 34) :
    s.scrubOne w (x, .single) = s.modWing w fun y => { y with ceHbm := satAdd y.ceHbm 1 } := by
  have hkey : 0x1000000000 ≤ 0x1000000000 + w.val * 2 ^ 34 + o := by omega
  simp only [State.scrubOne, hx, if_true, State.eccAt, State.memCe, if_pos hkey, keyWing_hbm w ho]

theorem exec_patrolScrub_single {w : WingIx} (x : Nat × Ecc) (hon : s.fabricOn = true) (hper : fld (s.wing w).scrub 15 0 ≠ 0) :
    exec (.patrolScrub w [x]) s = .next (s.scrubOne w x) := by
  change Host.Outcome.next (if s.fabricOn && fld (s.wing w).scrub 15 0 != 0 then [x].foldl (State.scrubOne w) s else s) = _
  rw [if_pos (by simp [hon, hper])]
  rfl

/-- Settles O35: each command's next state, and what it leaves of the window, the counters and memory. -/
theorem windowsAndErrorCounters : Obligations.WindowsAndErrorCounters := by
  unfold Obligations.WindowsAndErrorCounters
  intro s w k m hon
  refine ⟨fun hm => ?init, fun hi hheld => ?done, ?ecc, ?hall, fun a o hper ha ho => ?scrub⟩
  case init =>
    refine ⟨s.detInit w k, exec_detInit hon hm, ?_, ?_, ?_, fun j hj => ?_, fun x => detInit_cell s w k⟩ <;> rw [detInit_det]
    · rw [vmod_get]; rfl
    · rw [vmod_get]; rfl
    · rw [vmod_get]; rfl
    · rw [vmod_get_ne _ _ _ _ hj]
  case done =>
    refine ⟨s.detInitDone w k, exec_detInitDone hon hheld hi, ?_⟩
    rw [detInitDone_eq s w k hi, modWing_wing, vmod_get]
    exact ⟨rfl, rfl, rfl⟩
  case ecc =>
    refine ⟨_, exec_eccCntRead w hon, ?_⟩
    cases s.isManager m
    · exact ⟨rfl, rfl, rfl⟩
    · exact ⟨rfl, eccCntRead_eccCnt s w, rfl⟩
  case hall =>
    refine ⟨_, exec_hallEccRead hon, ?_⟩
    cases s.isManager m
    · exact ⟨rfl, rfl, rfl⟩
    · exact ⟨rfl, hallEccRead_eccWord s, rfl⟩
  case scrub =>
    refine ⟨_, exec_patrolScrub_single _ hon hper, ?_⟩
    rw [scrubOne_single_hbm ha ho, modWing_wing]
    exact ⟨rfl, rfl⟩

/-! ### The stack (R40, R41, R302) -/

theorem wingCnt_comb (s : State) (w : WingIx) (i : Fin 12) (k : Nat) : ((s.wingCnt w i k).wing w).comb = (s.wing w).comb := by
  unfold State.wingCnt
  split
  · rfl
  · rw [modWing_wing]

/-- Once the combining buffer of a wing is written back no line of it is dirty (R43). -/
theorem cleanWing_clean (s : State) (w : WingIx) : ∀ c ∈ ((s.cleanWing w).wing w).comb, c.dirty = false := by
  simp only [State.cleanWing, State.cleanLines, Bool.and_true]
  split
  · rename_i h0
    intro c hc
    have := List.filter_eq_nil_iff.1 (List.length_eq_zero_iff.1 h0) c hc
    simpa using this
  · rw [wingCnt_comb, modWing_wing]
    intro c hc
    obtain ⟨d, -, rfl⟩ := List.mem_map.1 hc
    split
    · rfl
    · rename_i hd; simpa using hd

variable {w : WingIx}

theorem trainingEnd_true (h : (s.wing w).training = true) :
    s.trainingEnd w true = s.modWing w fun x => { x with training := false, trained := true } := by
  simp [State.trainingEnd, h]

theorem trainingEnd_false (h : (s.wing w).training = true) : s.trainingEnd w false
    = (s.modWing w fun x => { x with training := false, trainFail := true }).report { code := 0x41, scope := 4, unit := w.val } := by
  simp [State.trainingEnd, h]

theorem report_wing (s : State) (v : Event) (w : WingIx) : (s.report v).wing w = s.wing w := by simp only [State.wing, report_wings]

theorem zeroFillDone_eq (ht : (s.wing w).trained = true) (hf : (s.wing w).filled = false) : s.zeroFillDone w
    = (s.zeroRange (hbmBase w) (hbmBase w + 2 ^ 34)).modWing w fun x => { x with filled := true } := by
  simp [State.zeroFillDone, ht, hf]

/-- A byte of a stack whose range of canonical addresses is zeroed. -/
theorem physByte_zeroed_stack {a o : Nat} (ha : decodeAddr s.hall.remap a = .hbm w o) (ho : o < 2 ^ 34) :
    (s.zeroRange (hbmBase w) (hbmBase w + 2 ^ 34)).physByte a = 0 := by
  change (s.zeroRange (hbmBase w) (hbmBase w + 2 ^ 34)).byteAt (decodeAddr s.hall.remap a) = 0
  rw [ha]
  exact cellGet_zero_inside ⟨by unfold hbmBase; omega, by unfold hbmBase; omega⟩

/-- An event of a running stack, with no access that it could let go on. -/
theorem next_serveHeld_of_nil (hon : s.alive = true) (hheld : s.hall.held = []) (ht : t.hall = s.hall) :
    Host.Outcome.next (if s.alive then t.serveHeld else s) = (.next t : Host.Outcome State Fault Refusal) := by
  rw [if_pos hon, serveHeld_nil t (ht ▸ hheld)]

theorem exec_hbmSelfRefreshEntry (hon : s.alive = true) (hp : (s.wing w).pwrState = 1) (ht : (s.wing w).trained = true) :
    exec (.hbmSelfRefreshEntry w) s = .next ((s.cleanWing w).modWing w fun x => { x with selfRefresh := true }) := by
  change Host.Outcome.next (if s.alive && (s.wing w).pwrState == 1 && (s.wing w).trained then _ else s) = _
  rw [if_pos (by simp [hon, hp, ht])]

/-- Settles O36: each event's next state, and what it leaves of the stack and memory. -/
theorem hbmStackLife : Obligations.HbmStackLife := by
  unfold Obligations.HbmStackLife
  intro s w hon hheld
  refine ⟨fun ht => ⟨?trained, ?failed⟩, fun hp ht => ?entry, fun hp => ?exit, fun ht hf hwf => ?fill⟩
  case trained =>
    refine ⟨s.trainingEnd w true, next_serveHeld_of_nil hon hheld ?_, ?_⟩ <;> rw [trainingEnd_true ht]
    · rfl
    · rw [modWing_wing]; exact ⟨rfl, rfl, rfl⟩
  case failed =>
    refine ⟨s.trainingEnd w false, next_serveHeld_of_nil hon hheld ?_, ?_⟩ <;> rw [trainingEnd_false ht]
    · rw [report_hall, modWing_hall]
    · rw [report_wing, modWing_wing, report_mem]; exact ⟨rfl, rfl, rfl⟩
  case entry =>
    refine ⟨_, exec_hbmSelfRefreshEntry hon hp ht, ?_⟩
    rw [modWing_wing]
    exact ⟨rfl, (cleanWing_frame s w).1, cleanWing_clean s w⟩
  case exit =>
    have heq : s.refreshExit w = s.modWing w fun x => { x with selfRefresh := false } := if_pos hp
    refine ⟨s.refreshExit w, next_serveHeld_of_nil hon hheld (by rw [heq]; rfl), ?_⟩
    rw [heq, modWing_wing]
    exact ⟨rfl, rfl⟩
  case fill =>
    refine ⟨s.zeroFillDone w, next_serveHeld_of_nil hon hheld (by rw [zeroFillDone_eq ht hf]; rfl), ?_⟩
    rw [zeroFillDone_eq ht hf, modWing_wing]
    exact ⟨rfl, zeroRange_wf _ _ hwf, fun a o => physByte_zeroed_stack⟩

end Sys2Proof.WingMemories
end

section
/-!
Instructions of a glove (R59, R62, R77, R82-R88): what issue leaves unchanged, the waits that instructions begin, and how a tile instruction
enters flight.
-/
namespace Sys2Proof.GloveInstructions
open Sys2Proof.Machine Sys2Proof.WingMemories

variable {s t : State} {gl : GloveRef}

/-! ### Updates of engines leave the tick runs (R217) -/

theorem modEng_quiet (s : State) (e : EngIx) (f : Engine → Engine) (h : (f (s.eng e)).tick = (s.eng e).tick) : Quiet s (s.modEng e f) :=
  ⟨⟨rfl, fun x => by
    by_cases hx : x = e
    · subst hx; rw [modEng_eng, h]
    · rw [modEng_eng_ne _ _ _ _ hx], fun _ _ => rfl⟩, rfl⟩

theorem modGlv_quiet (s : State) (gl : GloveRef) (f : Glove → Glove) : Quiet s (s.modGlv gl f) := modEng_quiet s gl.e _ rfl

theorem engCnt_quiet (s : State) (e : EngIx) (i : Fin 21) (k : Nat) : Quiet s (s.engCnt e i k) := by
  unfold State.engCnt
  split
  · exact .refl s
  · exact modEng_quiet s e _ rfl

theorem issue_quiet (s : State) (gl : GloveRef) : Quiet s (s.issue gl) := by
  have hcnt (k : Nat) : Quiet s ((s.engCnt gl.e 1 1).engCnt gl.e 2 k) := (engCnt_quiet s _ _ _).trans (engCnt_quiet _ _ _ _)
  refine Quiet.trans ?_ (modGlv_quiet _ gl _)
  split
  · exact hcnt _
  · exact (hcnt _).trans (modEng_quiet _ gl.e _ rfl)

/-! ### Instructions that go on to another PC (R59, R82) -/

/-- An update of a glove leaves what lies outside the engines. -/
theorem sameOutside_modGlv (h : s.sameOutside t) (gl : GloveRef) (f : Glove → Glove) : s.sameOutside (t.modGlv gl f) := h

theorem issue_sameOutside (s : State) (gl : GloveRef) : s.sameOutside (s.issue gl) := by simp [State.sameOutside]

theorem nextPc_glv_ne (s : State) {gl x : GloveRef} (h : x ≠ gl) : (s.nextPc gl).glv x = s.glv x := modGlv_glv_ne s gl x _ h

/-- Settles O7: issue counts and moves the issue pointer, the effect and the new PC stay in the glove that issues. -/
theorem scalarInstructionFrame : Obligations.ScalarInstructionFrame := by
  unfold Obligations.ScalarInstructionFrame
  intro s gl f pc
  have hissue := issue_sameOutside s gl
  refine ⟨sameOutside_modGlv (sameOutside_modGlv hissue gl f) gl _, sameOutside_modGlv hissue gl _, ?_, ?_, fun x hx => ⟨?_, ?_⟩⟩
  · rw [State.ran, nextPc_glv, modGlv_glv, issue_glv]
  · rw [State.went, modGlv_glv, issue_glv]
  · rw [State.ran, nextPc_glv_ne _ hx, modGlv_glv_ne _ _ _ _ hx, issue_glv_ne _ _ _ hx]
  · rw [State.went, modGlv_glv_ne _ _ _ _ hx, issue_glv_ne _ _ _ hx]

/-! ### Instructions that wait (R58, R77, R85, R87, R88) -/

/-- A field of a word as a number and as a slice. -/
theorem ofNat_fld {n : Nat} (w : BitVec n) (hi lo : Nat) : BitVec.ofNat (hi + 1 - lo) (fld w hi lo) = w.extractLsb' lo (hi + 1 - lo) :=
  BitVec.eq_of_toNat_eq (by simp [fld])

theorem trelT_eq (w : JFields) : trelT w = w.imm.extractLsb' 0 16 := ofNat_fld w.imm 15 0
theorem trelA_eq (w : JFields) : trelA w = w.imm.extractLsb' 16 4 := ofNat_fld w.imm 19 16

theorem exec_endI {w : JFields} (h : s.mayIssue gl 0x01 w = true) : exec (.endI gl w) s
    = .next ((s.issue gl).modGlv gl fun g => { g with wait := .ending (w.imm.extractLsb' 0 16), state := 2 }) := by
  change Host.Outcome.next (if _ then _ else _) = _
  rw [if_pos h, show BitVec.ofNat 16 (imf w 15 0) = _ from ofNat_fld w.imm 15 0]

theorem exec_fence {w : JFields} (h : s.mayRun gl 0x1C w) : exec (.fence gl w) s
    = .next ((s.issue gl).modGlv gl fun g => { g with wait := .fence s.now, state := 2 }) := by
  obtain ⟨hissue, hnext⟩ := h
  change execFence gl w s = _
  simp only [execFence, hissue, hnext, Bool.not_true, Bool.false_eq_true, if_false]

theorem exec_trel {w : JFields} (h : s.mayRun gl 0x1D w) : exec (.trel gl w) s
    = .next (if (s.glv gl).uses (trelT w) (trelA w) then
        (s.issue gl).modGlv gl fun g => { g with wait := .trel (trelT w) (trelA w), state := 2 }
      else s.ran gl fun g => g.release (trelT w) (trelA w)) := by
  obtain ⟨hissue, hnext⟩ := h
  change execTrel gl w s = _
  simp only [execTrel, hissue, hnext, Bool.not_true, Bool.false_eq_true, if_false]
  rfl

theorem exec_bwait {w : JFields} (h : s.mayRun gl 0x1A w) (hkind : (s.glv gl).kind ≠ .tick) (ha : (clsOf w.a).isS = true)
    (hd : (clsOf w.d).isS = true) (hn : imf w 15 0 ≠ 0) (hown : s.ownsBolt (boltOf (s.glv gl) w) (s.glv gl).tenant = true) :
    exec (.bwait gl w) s = .next ((s.issue gl).boltWaitStart gl w) := by
  obtain ⟨hissue, hnext⟩ := h
  change execBwait gl w s = _
  simp only [execBwait, hissue, hkind, ha, hd, bne_iff_ne.2 hn, hnext, hown, Bool.and_self, Bool.not_true, Bool.false_eq_true, if_false]

/-- Issue changes neither the bolt that an instruction names nor TIME. -/
theorem issue_boltWaitStart (s : State) (gl : GloveRef) (w : JFields) : (s.issue gl).boltWaitStart gl w =
    let b := boltOf (s.glv gl) w
    let n := BitVec.ofNat 32 (imf w 15 0)
    let dl := if imf w 31 16 = 0 then none else some (s.now + 1000 * imf w 31 16)
    ((s.issue gl).modBolt b fun x => { x with fifo := x.fifo ++ [⟨.glove gl, n, s.now, dl, 0⟩] }).modGlv gl fun g =>
      { g with wait := .bolt b n dl s.now w.d (imf w 31 16), state := 2 } := by
  have hnow : (s.issue gl).now = s.now := by rw [State.now, issue_hearth, State.now]
  have hbolt : boltOf ((s.issue gl).glv gl) w = boltOf (s.glv gl) w := by rw [issue_glv]; rfl
  simp only [State.boltWaitStart, hnow, hbolt]

/-- Settles O8: each instruction issues and leaves its wait; a trel whose registers are free releases them and goes on. -/
theorem waitingInstructionsBegin : Obligations.WaitingInstructionsBegin := by
  unfold Obligations.WaitingInstructionsBegin
  intro s gl w
  refine ⟨exec_endI, exec_fence, fun h huses => ?_, fun h huses => ?_, fun h hkind ha hd hn hown => ?_⟩
  · rw [exec_trel h, if_pos huses, trelT_eq, trelA_eq]
  · rw [exec_trel h, huses, trelT_eq, trelA_eq]; rfl
  · rw [exec_bwait h hkind ha hd hn hown, issue_boltWaitStart]

/-! ### Tile instructions (R62) -/

/-- The state after a tile instruction has entered flight, before its row steps. -/
def inFlight (s : State) (gl : GloveRef) (op : TOp) (r : Rec) : State :=
  s.ran gl fun g => { g with inflight := g.inflight ++ [r], spatialRows := if keepsRows op then [] else g.spatialRows }

/-- The command of a tile instruction is its issue; a tick run makes no `exch` (R216). -/
theorem exec_tileCommands {op : TOp} {w : JFields} (p : Pace) (h : ¬(op = .exch ∧ (s.glv gl).kind = .tick)) :
    ∀ i ∈ tileCommands op gl w p, exec i s = .next (s.tile gl op w p) := by
  cases op <;> simp only [tileCommands, List.forall_mem_cons, List.not_mem_nil, false_implies, implies_true, and_true]
  case exch =>
    exact congrArg Host.Outcome.next (if_neg fun hc => h ⟨rfl, hc.2⟩)
  case sbox => exact ⟨rfl, rfl, rfl⟩
  case snear => exact ⟨rfl, rfl⟩
  all_goals rfl

/-- A tile instruction that asks its units for row steps enters flight before them. -/
theorem enterTile_eq_inFlight {op : TOp} {w : JFields} {held : Bool} {ds : List Desc} (hit : s.pcompHit gl op w = false)
    (hmark : op ≠ .tmark) (hread : op ≠ .cread) :
    s.enterTile gl op w ⟨0, held⟩ ds = inFlight s gl op (newRec (s.glv gl) op w held ds) := by
  simp only [State.enterTile, hit, hmark, hread, Bool.false_eq_true, or_self, if_false]
  rfl

theorem inFlight_noGrace {op : TOp} {r : Rec} (h : s.noGrace) : (inFlight s gl op r).noGrace :=
  (((issue_quiet s gl).trans (modGlv_quiet _ gl _)).trans (modGlv_quiet _ gl _)).noGrace h

/-- The issue of a tile instruction that passes its checks. -/
theorem tile_eq_inFlight {op : TOp} {w : JFields} {held : Bool} {ds : List Desc} (h : s.mayEnter gl op w ds)
    (hit : s.pcompHit gl op w = false) (hmark : op ≠ .tmark) (hread : op ≠ .cread) (hgrace : s.noGrace) :
    s.tile gl op w ⟨0, held⟩ = inFlight s gl op (newRec (s.glv gl) op w held ds) := by
  obtain ⟨hready, hlegal, hnext, hprep, -⟩ := h
  simp only [State.tile, hready, hlegal, hnext, hprep, Bool.not_true, Bool.false_eq_true, if_false]
  rw [enterTile_eq_inFlight hit hmark hread, sealSweep_of_noGrace (inFlight_noGrace hgrace)]

/-- Settles O12: the command is the instruction's issue, which puts its record behind those in flight and moves PC. -/
theorem tileInstructionsEnterFlight : Obligations.TileInstructionsEnterFlight := by
  unfold Obligations.TileInstructionsEnterFlight
  intro s gl op w held ds h hit hmark hread hgrace i hi
  obtain ⟨houtside, -, hglv, -, hothers⟩ := scalarInstructionFrame s gl
    (fun g => { g with inflight := g.inflight ++ [newRec (s.glv gl) op w held ds], spatialRows := if keepsRows op then [] else g.spatialRows }) 0
  refine ⟨inFlight s gl op (newRec (s.glv gl) op w held ds), ?_, houtside, ?_⟩
  · have ⟨_, _, _, _, hexch⟩ := h
    rw [exec_tileCommands _ hexch i hi, tile_eq_inFlight h hit hmark hread hgrace]
  · rw [inFlight, hglv]
    exact ⟨rfl, rfl, ⟨fun _ _ => rfl, fun _ _ => rfl, rfl, rfl⟩, rfl, rfl, fun x hx => (hothers x hx).1⟩

end Sys2Proof.GloveInstructions
end

section
/-!
Contexts of gloves (R65-R68, R192): what hearth cycles and accesses leave of the gloves, how a context stops and is saved, and how the
launch that it runs resumes.
-/
namespace Sys2Proof.ContextSwaps
open Sys2Proof.Machine Sys2Proof.WingMemories Sys2Proof.GloveInstructions

variable {s t : State} {gl : GloveRef}

/-- A fold keeps a reading of the state that each of its steps keeps. -/
theorem foldl_keeps {α β : Type} (p : State → β) {f : State → α → State} (h : ∀ t x, p (f t x) = p t) (l : List α) :
    ∀ s, p (l.foldl f s) = p s := by
  induction l with
  | nil => exact fun _ => rfl
  | cons x l ih => exact fun s => (ih _).trans (h s x)

/-! ### Hearth cycles move only ELAPSED of a glove (R84) -/

theorem engWaits_glv (k : Nat) (s : State) (e : EngIx) (x : GloveRef) : (s.engWaits k e).glv x = s.glv x := by
  unfold State.engWaits
  dsimp only
  split
  · rfl
  · rw [engCnt_glv, engCnt_glv]

theorem countWaits_glv (k : Nat) (s : State) (x : GloveRef) : (s.countWaits k).glv x = s.glv x := by
  have hengines : (s.countWaits k).engines = ((allFin 16).foldl (State.engWaits k) s).engines := by
    unfold State.countWaits
    dsimp only
    rw [hallCnt_engines, hallCnt_engines]
    refine foldl_keeps State.engines (fun t w => ?_) _ _
    rw [wingCnt_engines, foldl_keeps State.engines fun u j => wingCnt_engines u _ _ _, State.hbmHeld, wingCnt_engines, wingCnt_engines]
  rw [glv_of_engines hengines]
  exact foldl_keeps (State.glv · x) (fun t e => engWaits_glv k t e x) _ s

theorem enginePassHc_gloves (b : Bool) (k : Nat) (e : Engine) (g : GlvIx) :
    ∃ n, (e.passHc b k).gloves[g.val] = { e.gloves[g.val] with elapsed := n } := by
  unfold Engine.passHc
  split
  · simp only [Vector.getElem_map, Glove.passEc]
    split
    · exact ⟨_, rfl⟩
    · exact ⟨_, rfl⟩
  · exact ⟨_, rfl⟩

theorem passHc_glv (k : Nat) (s : State) (x : GloveRef) : ∃ n, (s.passHc k).glv x = { s.glv x with elapsed := n } := by
  have hstep (u : State) (hu : u.glv x = s.glv x) (v : State) (hv : v.engines = u.engines.map (Engine.passHc s.frozenCnt k)) :
      ∃ n, v.glv x = { s.glv x with elapsed := n } := by
    obtain ⟨n, hn⟩ := enginePassHc_gloves s.frozenCnt k (u.eng x.e) x.g
    exact ⟨n, by rw [← hu, State.glv, State.eng, hv, Vector.getElem_map]; exact hn⟩
  unfold State.passHc
  extract_lets t u v v'
  have hu : u.glv x = s.glv x := by
    unfold u
    split
    · exact countWaits_glv k t x
    · rfl
  split
  · exact ⟨_, rfl⟩
  · split
    · exact hstep u hu _ (hallCnt_engines _ _ _)
    · exact hstep u hu v rfl

theorem advanceTo_glv (s : State) (m : Nat) (x : GloveRef) : ∃ n, (s.advanceTo m).glv x = { s.glv x with elapsed := n } := by
  unfold State.advanceTo
  split
  · exact ⟨_, rfl⟩
  · exact passHc_glv _ s x

/-! ### What the scheduler reads of gloves and leases stays as hearth cycles pass (R190, R192) -/

theorem advanceTo_gloveIdle (s : State) (m : Nat) (x : GloveRef) : (s.advanceTo m).gloveIdle x = s.gloveIdle x := by
  obtain ⟨n, hn⟩ := advanceTo_glv s m x
  rw [State.gloveIdle, hn]; rfl

theorem advanceTo_swapOn (s : State) (m : Nat) (e : EngIx) : (s.advanceTo m).swapOn e = s.swapOn e := by
  have h (x : GloveRef) : ((s.advanceTo m).glv x).swapping = (s.glv x).swapping := by
    obtain ⟨n, hn⟩ := advanceTo_glv s m x
    rw [hn]
  simp only [State.swapOn, h]

theorem advanceTo_lease (s : State) (m : Nat) (l : LeaseIx) : (s.advanceTo m).lease l = s.lease l := by
  rw [State.lease, advanceTo_ten]; rfl

theorem advanceTo_stream (s : State) (m : Nat) (n : StrmIx) : (s.advanceTo m).stream n = s.stream n := by
  rw [State.stream, advanceTo_ten]; rfl

theorem advanceTo_cmdLease (s : State) (m : Nat) (n : StrmIx) (c : Cmd) : (s.advanceTo m).cmdLease n c = s.cmdLease n c := by
  simp only [State.cmdLease, advanceTo_lease, advanceTo_stream]

theorem advanceTo_freeGlove (s : State) (m : Nat) (e : EngIx) : (s.advanceTo m).freeGlove e = s.freeGlove e := by
  simp only [State.freeGlove, State.holder, advanceTo_lease, advanceTo_gloveIdle]

theorem advanceTo_ctxBusy (s : State) (m : Nat) (n : StrmIx) (i : BitVec 32) (l : LeaseIx) :
    (s.advanceTo m).ctxBusy n i l = s.ctxBusy n i l := by
  simp only [State.ctxBusy, State.leaseClaimed, advanceTo_lease, advanceTo_stream, advanceTo_gloveIdle]

/-! ### The only ready command is the first (R200) -/

theorem filterMap_only {α : Type} {k : Nat} (n : Fin k) {f : Fin k → Option α} {a : α} (h : f n = some a) (hne : ∀ m, m ≠ n → f m = none) :
    (allFin k).filterMap f = [a] := by
  have hf : f = fun m => if m = n then some a else none := funext fun m => by
    split
    · rename_i hm; rw [hm, h]
    · rename_i hm; exact hne m hm
  have hrep (l : List (Fin k)) : (l.filterMap fun m => if m = n then some a else none) = List.replicate (l.count n) a := by
    induction l with
    | nil => rfl
    | cons m l ih =>
      by_cases hm : m = n
      · subst hm; simp [ih, List.replicate_succ]
      · simp [ih, hm]
  rw [hf, hrep, allFin, (List.nodup_finRange k).count, if_pos (List.mem_finRange n)]
  rfl

theorem readyList_only {n : StrmIx} {c : Cmd} (h : (s.stream n).ready = some c) (hne : ∀ m, m ≠ n → (s.stream m).ready = none) :
    s.readyList = [(n, c)] :=
  filterMap_only n (by rw [h]; rfl) fun m hm => by rw [hne m hm]; rfl

theorem choose_only (s : State) (x : StrmIx × Cmd) : s.choose [x] = some x := by
  unfold State.choose
  by_cases hover : (x.2.readyAt != 0 && decide (x.2.readyAt - 1 + 1000000 ≤ s.now)) = true
  · rw [List.filter_cons_of_pos (by exact hover)]; rfl
  · rw [List.filter_cons_of_neg (by exact hover)]
    simp [least]

/-! ### A context stops (R65, R112) -/

theorem modGlv_of_fixed (s : State) {gl : GloveRef} {f : Glove → Glove} (h : f (s.glv gl) = s.glv gl) : s.modGlv gl f = s := by
  have hg : vmod (s.eng gl.e).gloves gl.g f = (s.eng gl.e).gloves := by
    rw [vmod, show f (s.eng gl.e).gloves[gl.g.val] = _ from h]
    exact Vector.set_getElem_self ..
  have he : vmod s.engines gl.e (fun x => { x with gloves := vmod x.gloves gl.g f }) = s.engines := by
    rw [vmod]
    have : ({ s.eng gl.e with gloves := vmod (s.eng gl.e).gloves gl.g f } : Engine) = s.engines[gl.e.val] := by rw [hg]; rfl
    rw [← State.eng, this]
    exact Vector.set_getElem_self ..
  rw [State.modGlv, State.modEng, he]

/-- An empty combiner has nothing to send. -/
theorem flushCombiner_nil (h : (s.glv gl).combiner = []) (k : Nat) : s.flushCombiner gl k = (s, none) := by
  unfold State.flushCombiner
  dsimp only
  split
  · split
    · rfl
    · split
      · rw [h, List.foldl_nil, modGlv_of_fixed s (by rw [← h])]
      · rfl
  · rfl

theorem unlockSlot_glv (s : State) (e : EngIx) (i : Nat) (x : GloveRef) : (s.unlockSlot e i).glv x = s.glv x := by
  unfold State.unlockSlot
  split
  · exact modEng_glv s e _ rfl x
  · rfl

theorem freeBank_glv (s : State) (e : EngIx) (aux : Nat) (x : GloveRef) : (s.freeBank e aux).glv x = s.glv x := by
  unfold State.freeBank
  split
  · exact modEng_glv s e _ rfl x
  · rfl

theorem freeRec_glv (s : State) (e : EngIx) (r : Rec) (x : GloveRef) : (s.freeRec e r).glv x = s.glv x := by
  have hslots := foldl_keeps (State.glv · x) (fun t i => unlockSlot_glv t e i x) r.slots s
  unfold State.freeRec
  dsimp only
  split
  · rw [freeBank_glv]; exact hslots
  · exact hslots

theorem freeRec_ten (s : State) (e : EngIx) (r : Rec) : (s.freeRec e r).ten = s.ten := by
  have hslots : (r.slots.foldl (fun t i => t.unlockSlot e i) s).ten = s.ten :=
    foldl_keeps State.ten (fun t i => by unfold State.unlockSlot; split <;> rfl) r.slots s
  unfold State.freeRec
  dsimp only
  split
  · unfold State.freeBank
    split <;> exact hslots
  · exact hslots

theorem leaveBolt_glv (s : State) (gl x : GloveRef) : (s.leaveBolt gl).glv x = s.glv x := by
  unfold State.leaveBolt
  split <;> rfl

theorem leaveBolt_leases (s : State) (gl : GloveRef) : (s.leaveBolt gl).ten.leases = s.ten.leases := by
  unfold State.leaveBolt
  split <;> rfl

theorem leaveUnits_glv (s : State) (gl x : GloveRef) : (s.leaveUnits gl).glv x = s.glv x := modEng_glv s gl.e _ rfl x

/-- The S registers of a glove that stops stay, and so do the leases. -/
theorem stopGlove_kept (s : State) (gl : GloveRef) :
    ((s.stopGlove gl).glv gl).s = (s.glv gl).s ∧ (s.stopGlove gl).ten.leases = s.ten.leases := by
  unfold State.stopGlove
  extract_lets s1 s2
  have hfold : (State.glv · gl) ((s1.glv gl).inflight.foldl (fun t r => t.freeRec gl.e r) s1) = s1.glv gl :=
    foldl_keeps (State.glv · gl) (fun t r => freeRec_glv t gl.e r gl) _ s1
  have hten : ((s1.glv gl).inflight.foldl (fun t r => t.freeRec gl.e r) s1).ten = s1.ten :=
    foldl_keeps State.ten (fun t r => freeRec_ten t gl.e r) _ s1
  constructor
  · rw [modGlv_glv]
    change (s2.glv gl).s = _
    rw [leaveUnits_glv]
    exact congrArg Glove.s (hfold.trans (leaveBolt_glv s gl gl))
  · rw [modGlv_ten, show s2.ten = s1.ten from hten, leaveBolt_leases]

/-- A context without elements of a `scat` gives way: it stops issue and keeps its S registers (R65). -/
theorem beginSwap_stops (h : (s.glv gl).combiner = []) (qos : BitVec 4) (lower : Bool) :
    ((s.beginSwap gl qos lower).glv gl).swapping = true ∧ ((s.beginSwap gl qos lower).glv gl).state = 3
      ∧ ((s.beginSwap gl qos lower).glv gl).s = (s.glv gl).s ∧ (s.beginSwap gl qos lower).ten.leases = s.ten.leases := by
  obtain ⟨hs, hleases⟩ := stopGlove_kept s gl
  unfold State.beginSwap State.stopOr
  rw [flushCombiner_nil h]
  dsimp only
  rw [modGlv_glv, modGlv_ten]
  exact ⟨rfl, rfl, hs, hleases⟩

/-! ### SLICE_EXPIRY (R192) -/

/-- A command of a glove lease waits for a glove: every one of its engine is taken and none is being freed. -/
structure WaitsForGlove (s : State) (n : StrmIx) (c : Cmd) (l : LeaseIx) : Prop where
  onGlove : c.onGlove = true
  lease : s.cmdLease n c = some l
  kind : (s.lease l).kind = 0
  freeing : (s.lease l).freeing = none
  resident : (s.lease l).resident = none
  busy : s.ctxBusy n c.index l = false
  free : s.freeGlove (s.lease l).engine = none
  swap : s.swapOn (s.lease l).engine = false

variable {n : StrmIx} {c : Cmd} {l : LeaseIx} {v : GloveRef} {lower : Bool}

theorem WaitsForGlove.advanceTo (h : WaitsForGlove s n c l) (m : Nat) : WaitsForGlove (s.advanceTo m) n c l where
  onGlove := h.onGlove
  lease := by rw [advanceTo_cmdLease]; exact h.lease
  kind := by rw [advanceTo_lease]; exact h.kind
  freeing := by rw [advanceTo_lease]; exact h.freeing
  resident := by rw [advanceTo_lease]; exact h.resident
  busy := by rw [advanceTo_ctxBusy]; exact h.busy
  free := by rw [advanceTo_lease, advanceTo_freeGlove]; exact h.free
  swap := by rw [advanceTo_lease, advanceTo_swapOn]; exact h.swap

theorem WaitsForGlove.not_bindable (h : WaitsForGlove s n c l) : s.bindable n c = false := by
  have hspot : s.spot n c l = none := by
    simp only [State.spot, h.busy, h.resident, h.free, Bool.false_eq_true, ite_self]
  simp [State.bindable, h.onGlove, h.lease, h.freeing, h.kind, hspot]

/-- The context that R192 chooses gives way to a command that waits for a glove. -/
theorem WaitsForGlove.swapFor (h : WaitsForGlove s n c l)
    (hv : s.victim (s.lease l).engine (s.stream n).cls.toNat (c.readyAt - 1) = some (v, lower)) :
    s.swapFor n c = (s.beginSwap v (s.stream n).qos lower).modCmd n c.index fun c =>
      { c with swapAt := if c.swapAt = 0 then s.now + 1 else c.swapAt } := by
  simp [State.swapFor, h.onGlove, h.lease, h.kind, h.freeing, h.resident, h.busy, h.free, h.swap, hv]

/-- The slice of a context ends for the only ready command, which waits for a glove of its engine and is of its class. -/
theorem sliceExpiry_only (h : WaitsForGlove s n c l) (heng : (s.lease l).engine = gl.e) (hready : s.readyList = [(n, c)])
    (hcls : (s.stream n).cls.toNat = s.gloveCls gl) (hkind : (s.glv gl).kind ≠ .none) :
    s.sliceExpiry gl = (s.advanceTo (max (s.glv gl).boundAt.toNat (c.readyAt - 1) + s.slice)).swapFor n c := by
  unfold State.sliceExpiry
  extract_lets waits
  have hwaits : waits = [(n, c)] := by
    unfold waits
    rw [hready, List.filter_cons_of_pos (by simp [h.not_bindable, hcls, h.lease, h.kind, heng]), List.filter_nil]
  rw [hwaits, if_neg hkind, choose_only]

/-! ### Accesses of the scheduler leave every glove (R67) -/

theorem lineUse_engines (s : State) (key : Nat) (alloc : Bool) (who : Option Nat) : (s.lineUse key alloc who).engines = s.engines := by
  unfold State.lineUse
  split
  · exact wingCnt_engines _ _ _ _
  · split
    · exact wingCnt_engines _ _ _ _
    · rfl

theorem watchAccess_glv (s : State) (w : WingIx) (src : AccSrc) (key k kind : Nat) (x : GloveRef) :
    (s.watchAccess w src key k kind).glv x = s.glv x := by
  unfold State.watchAccess
  extract_lets wg hits s1 s2 ps s3 s4
  have h4 : s4.glv x = s.glv x := by
    have h3 : s3.engines = s.engines := wingCnt_engines s1 w 10 1
    unfold s4
    split
    · exact glv_of_engines ((mgrVector_engines s3).trans h3) x
    · exact glv_of_engines h3 x
  split
  · rfl
  · split
    · rfl
    · split
      · rw [trace_glv, h4]
      · exact h4

/-- Watchpoints see accesses to the wings only. -/
theorem watchAccess_ite_glv (s : State) (b : Nat) (w : WingIx) (src : AccSrc) (key k kind : Nat) (x : GloveRef) :
    (if b ≤ key then s.watchAccess w src key k kind else s).glv x = s.glv x := by
  split
  · exact watchAccess_glv s w src key k kind x
  · rfl

theorem accTouch_glv (s : State) (src : AccSrc) (keys : List Nat) (kind : Nat) (x : GloveRef) :
    (s.accTouch src keys kind).glv x = s.glv x := by
  unfold State.accTouch
  extract_lets s1
  have h1 : s1.engines = s.engines := foldl_keeps State.engines (fun t _ => lineUse_engines t _ _ _) _ s
  rw [← glv_of_engines h1]
  exact foldl_keeps (State.glv · x) (fun t p => watchAccess_ite_glv t _ _ _ _ _ _ x) _ s1

theorem setSum_engines (s : State) (w : WingIx) (i : Fin 4) (x : DetSum) : (s.setSum w i x).engines = s.engines := by
  unfold State.setSum
  extract_lets k t
  have ht : t.engines = s.engines := rfl
  split
  · exact ht
  · exact ht

theorem detRewrite_engines (s : State) (keys : List Nat) : (s.detRewrite keys).engines = s.engines := by
  unfold State.detRewrite
  refine foldl_keeps State.engines (fun t k => ?_) keys s
  dsimp only
  split
  · rfl
  · split
    · exact setSum_engines t _ _ _
    · rfl

theorem snoopWrite_engines (s : State) (keys : List Nat) : (s.snoopWrite keys).engines = s.engines := by
  unfold State.snoopWrite
  split
  · rfl
  · exact detRewrite_engines _ _

theorem poke_engines (s : State) (a : Nat) (bs : List Byte) (b : Bool) : (s.poke a bs b).engines = s.engines := rfl

theorem accWrite_glv (s : State) (src : AccSrc) (a : Nat) (bs : List Byte) (x : GloveRef) : (s.accWrite src a bs).glv x = s.glv x := by
  unfold State.accWrite
  extract_lets keys
  rw [accTouch_glv, glv_of_engines (detRewrite_engines _ _), glv_of_engines (poke_engines _ _ _ _), glv_of_engines (snoopWrite_engines s _)]

theorem addWork_quiet (s : State) (e : EngIx) (i : Fin 5) (k : Nat) : Quiet s (s.addWork e i k) := modEng_quiet s e _ rfl

theorem addWork_glv (s : State) (e : EngIx) (i : Fin 5) (k : Nat) (x : GloveRef) : (s.addWork e i k).glv x = s.glv x :=
  modEng_glv s e _ rfl x

/-! ### SWAP_SAVE (R65-R67) -/

theorem writeRows_glv (src : AccSrc) (x : GloveRef) : ∀ (k a : Nat) (bs : List Byte) (s : State),
    (State.writeRows src k a bs s).glv x = s.glv x
  | 0, _, _, _ => rfl
  | k + 1, a, _, s => (writeRows_glv src x k _ _ _).trans (accWrite_glv s src a _ x)

theorem writeRows_sameUnits (src : AccSrc) : ∀ (k a : Nat) (bs : List Byte) (s : State), SameUnits s (State.writeRows src k a bs s)
  | 0, _, _, s => .refl s
  | k + 1, a, _, s => (accWrite_wrote s src a _).toSameUnits.trans (writeRows_sameUnits src k _ _ _)

/-- A save leaves every glove and tick run. -/
theorem ctxSave_kept {a qos : Nat} (h : s.ctxSave gl a qos = .ok t) : SameUnits s t ∧ ∀ x, t.glv x = s.glv x := by
  unfold State.ctxSave at h
  dsimp only at h
  cases hready : s.ctxReady gl a (2048 + 16384 * (s.glv gl).validTiles.length) with
  | fault => rw [hready] at h; cases h
  | stall => rw [hready] at h; cases h
  | ok =>
    rw [hready] at h
    cases h
    exact ⟨(writeRows_sameUnits _ _ _ _ s).trans (addWork_quiet _ _ _ _).toSameUnits,
      fun x => (addWork_glv _ _ _ _ x).trans (writeRows_glv _ x _ _ _ s)⟩

/-- The state after a save whose image stands in memory (R67): the glove is free and the context is in its lease's slot. -/
def savedOut (s t : State) (gl : GloveRef) (l : LeaseIx) : State :=
  let rows := ctxRows (s.glv gl).validTiles.length
  ((t.traceSwap gl false rows).modGlv gl fun g =>
    { g.clearRegs.empty with pc := 0, lastSave := BitVec.ofNat 16 rows, swaps := g.swaps + 1 }).modLease l fun x =>
      { x with resident := none, saved := true, savedRun := (s.glv gl).savedRun gl s.now }

theorem swapSave_eq (hswap : (s.glv gl).swapping = true) (hresp : ∀ r ∈ (s.glv gl).inflight, r.resp = []) (hl : s.holder gl = some l)
    (hsave : s.ctxSave gl (s.slotAddr l) (s.glv gl).swapQos.toNat = .ok t) : s.swapSave gl = savedOut s t gl l := by
  have hidle : (s.glv gl).inflight.all (·.resp.isEmpty) = true := List.all_eq_true.2 fun r hr => by rw [hresp r hr]; rfl
  unfold State.swapSave
  simp only [hswap, hidle, hl, hsave, Bool.and_self, Bool.not_true, Bool.false_eq_true, if_false]
  rfl

theorem savedOut_kept (h : SameUnits s t) (l : LeaseIx) : SameUnits s (savedOut s t gl l) ∧ (savedOut s t gl l).mem = t.mem := by
  have htrace : Quiet t (savedOut s t gl l) := (trace_quiet t _ _ _ _ _ _ _).trans
    ((modGlv_quiet _ gl _).trans (quiet_of_eq rfl rfl rfl rfl))
  exact ⟨h.trans htrace.toSameUnits, htrace.mem⟩

/-! ### CONTEXT_RESTORE (R67, R68, R192) -/

theorem ready_congr (hhall : t.hall = s.hall) (hwings : t.wings = s.wings) (w : Option WingIx) (a : Nat) : t.ready w a = s.ready w a := by
  simp only [State.ready, State.remapHolds, State.linkOk, State.wing, hhall, hwings] <;> rfl

theorem ctxReady_congr (hhall : t.hall = s.hall) (hwings : t.wings = s.wings) (a k : Nat) : t.ctxReady gl a k = s.ctxReady gl a k := by
  simp only [State.ctxReady, State.readyRes, ready_congr hhall hwings, hhall]

theorem poisoned_congr (hhall : t.hall = s.hall) (hmem : t.mem = s.mem) (a k : Nat) : t.poisoned a k = s.poisoned a k := by
  rw [State.poisoned, keysOf_congr hhall, hmem]; rfl

theorem physBytes_congr (hhall : t.hall = s.hall) (hmem : t.mem = s.mem) (a k : Nat) : t.physBytes a k = s.physBytes a k := by
  simp only [State.physBytes, State.physByte, State.byteAt, hhall, hmem]

/-- A part of a range without poison has none. -/
theorem poisoned_mono {a k m : Nat} (h : k ≤ m) (hm : s.poisoned a m = false) : s.poisoned a k = false := by
  simp only [State.poisoned, List.any_eq_false, State.keysOf, List.mem_filterMap, List.mem_range] at hm ⊢
  rintro x ⟨i, hi, hx⟩
  exact hm x ⟨i, Nat.lt_of_lt_of_le hi h, hx⟩

/-- A field of an image that is read from memory. -/
theorem imgFld_physBytes (s : State) {a m off k : Nat} (h : off + k ≤ m) :
    imgFld (s.physBytes a m) off k = ofBytes (s.physBytes (a + off) k) := by
  refine congrArg ofBytes (List.ext_getElem ?_ fun i _ _ => ?_)
  · simp only [State.physBytes, List.length_take, List.length_drop, List.length_map, List.length_range]; omega
  · simp only [State.physBytes, List.getElem_take, List.getElem_drop, List.getElem_map, List.getElem_range, Nat.add_assoc]

theorem touchRows_kept (src : AccSrc) (x : GloveRef) : ∀ (k a : Nat) (s : State),
    Quiet s (State.touchRows src k a s) ∧ (State.touchRows src k a s).glv x = s.glv x
  | 0, _, s => ⟨.refl s, rfl⟩
  | k + 1, a, s =>
    have ⟨hquiet, hglv⟩ := touchRows_kept src x k (a + 256) (s.accTouch src (s.keysOf a 256) 0)
    ⟨(accTouch_quiet s src _ 0).trans hquiet, hglv.trans (accTouch_glv s src _ 0 x)⟩

/-- A context whose save area answers without poison is read into its glove (R66-R68). -/
theorem ctxLoad_reads {a : Nat} (qos : Nat) (hready : ∀ k ≤ saveBytes, s.ctxReady gl a k = .ok ()) (hclean : s.poisoned a saveBytes = false) :
    ∃ rows t m, s.ctxLoad gl a qos = .ok (rows, t) ∧ t.mem = s.mem ∧ 2048 ≤ m ∧ t.glv gl = (s.glv gl).ofImage (s.physBytes a m) := by
  have hvalid (w : Word) : 2048 + 16384 * ((validBits w).filter id).length ≤ saveBytes := by
    have := List.length_filter_le id (validBits w)
    simp only [validBits, List.length_map, List.length_range] at this ⊢
    unfold saveBytes
    omega
  unfold State.ctxLoad
  extract_lets g v m u
  obtain ⟨hquiet, hglv⟩ := touchRows_kept (ctxSrc gl g.tenant qos) gl (ctxRows v) a s
  have hm : m ≤ saveBytes := hvalid _
  refine ⟨ctxRows v, (u.modGlv gl fun g => g.ofImage (s.physBytes a m)).addWork gl.e 4 (ctxCost v), m, ?_, hquiet.mem, Nat.le_add_right _ _, ?_⟩
  · rw [hready 2048 (by unfold saveBytes; omega), Res.bind, hready m hm, Res.bind, poisoned_mono hm hclean]
    rfl
  · rw [addWork_glv, modGlv_glv, hglv]

theorem putRecs_kept (g : Glove) (l : List Rec) : (g.putRecs l).strm = g.strm ∧ (g.putRecs l).cmdIx = g.cmdIx
    ∧ (g.putRecs l).rank = g.rank ∧ (g.putRecs l).state = g.state ∧ (g.putRecs l).pc = g.pc := by
  unfold Glove.putRecs
  split
  · exact ⟨rfl, rfl, rfl, rfl, rfl⟩
  · split <;> exact ⟨rfl, rfl, rfl, rfl, rfl⟩

/-- The state after a restore that has read the image into the glove (R68): the launch resumes there. -/
def restoredIn (t : State) (gl : GloveRef) (l : LeaseIx) (r : SavedRun) (rows : Nat) : State :=
  ((t.traceSwap gl true rows).modGlv gl fun g => { g.putRecs r.recs with lastRestore := BitVec.ofNat 16 rows }).modLease l fun x =>
    { x with resident := some gl.g, saved := false, savedRun := none }

theorem restoredIn_mem (t : State) (gl : GloveRef) (l : LeaseIx) (r : SavedRun) (rows : Nat) : (restoredIn t gl l r rows).mem = t.mem := by
  rw [restoredIn, modLease_mem, modGlv_mem, State.traceSwap, trace_mem]

theorem restoredIn_glv (t : State) (gl : GloveRef) (l : LeaseIx) (r : SavedRun) (rows : Nat) :
    (restoredIn t gl l r rows).glv gl = { (t.glv gl).putRecs r.recs with lastRestore := BitVec.ofNat 16 rows } := by
  rw [restoredIn, glv_of_engines (modLease_engines _ _ _), modGlv_glv, State.traceSwap, trace_glv]

/-- The saved launch that is next is read into a free glove, which carries its stream, index and rank. -/
theorem ctxRestore_reads {r : SavedRun} (hholder : s.holder gl = none) (hidle : s.gloveIdle gl = true) (hg : gl.g ≠ 3)
    (hruns : s.engRuns gl.e = true) (hnext : s.nextSaved gl.e = some (l, r)) (hwaits : s.higherWaits gl.e r = false)
    (hready : ∀ k ≤ saveBytes, s.ctxReady gl (s.slotAddr l) k = .ok ()) (hclean : s.poisoned (s.slotAddr l) saveBytes = false) :
    ∃ (rows : Nat) (t : State) (m : Nat) (g : Glove), s.ctxRestore gl = restoredIn t gl l r rows ∧ t.mem = s.mem ∧ 2048 ≤ m
      ∧ t.glv gl = g.ofImage (s.physBytes (s.slotAddr l) m)
      ∧ g.strm = r.strm ∧ g.cmdIx = r.index ∧ g.rank = r.rank ∧ g.state = 1 := by
  have hfree : ((s.holder gl).isNone && s.gloveIdle gl && gl.g != 3 && (s.eng gl.e).pwrState == 0 && !(s.eng gl.e).waking) = true := by
    rw [hholder, hidle, bne_iff_ne.2 hg]
    exact hruns
  unfold State.ctxRestore
  rw [hfree, hnext]
  dsimp -zeta only
  rw [hwaits]
  extract_lets kind s1 s2
  have hhall : s2.hall = s.hall := rfl
  have hmem : s2.mem = s.mem := rfl
  have hglv : s2.glv gl = s1.glv gl := rfl
  obtain ⟨rows, t, m, hload, htmem, hm, htglv⟩ := ctxLoad_reads (s := s2) (gl := gl) (a := s.slotAddr l) (s.stream r.strm).qos.toNat
    (fun k hk => (ctxReady_congr hhall rfl _ _).trans (hready k hk)) ((poisoned_congr hhall hmem _ _).trans hclean)
  rw [hload]
  refine ⟨rows, t, m, s1.glv gl, rfl, htmem.trans hmem, hm, ?_, ?_⟩
  · rw [htglv, hglv, physBytes_congr hhall hmem]
  · unfold s1
    rw [modGlv_glv]
    exact ⟨rfl, rfl, rfl, rfl⟩

/-- An image holds registers only: what names the launch stays. -/
theorem ofImage_kept (g : Glove) (bs : List Byte) : (g.ofImage bs).strm = g.strm ∧ (g.ofImage bs).cmdIx = g.cmdIx
    ∧ (g.ofImage bs).rank = g.rank ∧ (g.ofImage bs).state = g.state := by
  simp only [Glove.ofImage, and_self]

/-- The PC that an image restores stands in its PC word (R66). -/
theorem ofImage_pc (g : Glove) (s : State) {a m : Nat} (h : 2048 ≤ m) : (g.ofImage (s.physBytes a m)).pc
    = BitVec.ofNat 32 (fld (BitVec.ofNat 64 (ofBytes (s.physBytes (a + 0x640) 8))) 31 0) := by
  rw [← imgFld_physBytes s (show 0x640 + 8 ≤ m by omega)]
  rfl

/-! ### The three commands -/

section
variable (hon : s.fabricOn = true)
include hon

/-- The chosen context gives way to the only ready command once the slice is over. -/
theorem sliceExpiry_stops_victim (h : WaitsForGlove s n c l) (heng : (s.lease l).engine = gl.e) (hready : s.readyList = [(n, c)])
    (hcls : (s.stream n).cls.toNat = s.gloveCls gl) (hkind : (s.glv gl).kind ≠ .none) (hcomb : (s.glv v).combiner = [])
    (hv : (s.advanceTo (max (s.glv gl).boundAt.toNat (c.readyAt - 1) + s.slice)).victim gl.e (s.stream n).cls.toNat (c.readyAt - 1)
      = some (v, lower)) :
    ∃ u, exec (.sliceExpiry gl) s = .next u ∧ (u.glv v).swapping = true ∧ (u.glv v).state = 3 ∧ (u.glv v).s = (s.glv v).s
      ∧ u.ten.leases = s.ten.leases := by
  refine ⟨_, congrArg Host.Outcome.next (if_pos hon), ?_⟩
  rw [sliceExpiry_only h heng hready hcls hkind]
  generalize max (s.glv gl).boundAt.toNat (c.readyAt - 1) + s.slice = m at hv ⊢
  obtain ⟨k, hk⟩ := advanceTo_glv s m v
  obtain ⟨hswap, hstate, hs, hleases⟩ := beginSwap_stops (s := s.advanceTo m) (gl := v) (by rw [hk]; exact hcomb)
    ((s.advanceTo m).stream n).qos lower
  rw [(h.advanceTo m).swapFor (by rw [advanceTo_lease, advanceTo_stream, heng]; exact hv), glv_of_engines (modCmd_engines _ _ _ _)]
  exact ⟨hswap, hstate, hs.trans (by rw [hk]), hleases.trans (by rw [advanceTo_ten])⟩

/-- A context whose responses are in is saved in its lease's slot. -/
theorem swapSave_frees_glove (hgrace : s.noGrace) (hswap : (s.glv gl).swapping = true) (hresp : ∀ r ∈ (s.glv gl).inflight, r.resp = [])
    (hl : s.holder gl = some l) (hsave : s.ctxSave gl (s.slotAddr l) (s.glv gl).swapQos.toNat = .ok t) :
    exec (.swapSave gl) s = .next (savedOut s t gl l) ∧ (savedOut s t gl l).mem = t.mem
      ∧ (savedOut s t gl l).glv gl = { (s.glv gl).clearRegs.empty with
          pc := 0, lastSave := BitVec.ofNat 16 (ctxRows (s.glv gl).validTiles.length), swaps := (s.glv gl).swaps + 1 } := by
  obtain ⟨hunits, hglv⟩ := ctxSave_kept hsave
  obtain ⟨hunits, hmem⟩ := savedOut_kept (gl := gl) hunits l
  refine ⟨?_, hmem, ?_⟩
  · change Host.Outcome.next (if s.fabricOn then (s.swapSave gl).sealSweep else s) = _
    rw [if_pos hon, swapSave_eq hswap hresp hl hsave, sealSweep_of_noGrace (hunits.noGrace hgrace)]
  · rw [savedOut, glv_of_engines (modLease_engines _ _ _), modGlv_glv, State.traceSwap, trace_glv, hglv]

end

/-- Settles O31: the chosen context stops, its image and its launch go to the lease's slot, and the saved launch is read into a free glove. -/
theorem contextsSwap : Obligations.ContextsSwap := by
  unfold Obligations.ContextsSwap
  intro s gl hon hgrace
  refine ⟨?expiry, ?save, ?restore⟩
  case expiry =>
    intro n c l v lower hcomb hready hothers hglove hlease hlkind heng hfreeing hresident hbusy hfree hswap hcls hkind hv
    have h : WaitsForGlove s n c l := ⟨hglove, hlease, hlkind, hfreeing, hresident, hbusy, by rw [heng, hfree],
      by simp [State.swapOn, heng, hswap]⟩
    exact sliceExpiry_stops_victim hon h heng (readyList_only hready hothers) hcls hkind (hcomb v) hv
  case save =>
    intro l t hswap hresp hl hsave
    obtain ⟨hexec, hmem, hglv⟩ := swapSave_frees_glove hon hgrace hswap hresp hl hsave
    refine ⟨_, hexec, ?_⟩
    rw [hglv, hmem, savedOut, modLease_lease]
    exact ⟨rfl, rfl, rfl, rfl, rfl, rfl, rfl⟩
  case restore =>
    intro l r hholder hidle hg hruns hnext hwaits hready hclean
    obtain ⟨rows, t, m, g, heq, hmem, hm, hglv, hstrm, hix, hrank, hstate⟩ :=
      ctxRestore_reads hholder hidle hg hruns hnext hwaits hready hclean
    obtain ⟨kstrm, kix, krank, kstate, kpc⟩ := putRecs_kept (t.glv gl) r.recs
    obtain ⟨istrm, iix, irank, istate⟩ := ofImage_kept g (s.physBytes (s.slotAddr l) m)
    refine ⟨restoredIn t gl l r rows, ?_, ?_⟩
    · change Host.Outcome.next (if s.fabricOn then s.ctxRestore gl else s) = _
      rw [if_pos hon, heq]
    · rw [restoredIn_glv, restoredIn_mem, hmem, restoredIn, modLease_lease]
      dsimp only
      rw [kstrm, kix, krank, kstate, kpc, hglv, istrm, iix, irank, istate, ofImage_pc g s hm]
      exact ⟨rfl, rfl, rfl, hstrm, hix, hrank, hstate, rfl, rfl⟩

end Sys2Proof.ContextSwaps
end

section
/-!
The words of Jenli instructions (R79, R81): an opcode and fields make a word, and every word is made of those that it decodes to.
-/
namespace Sys2Proof.JenliWords

/-! ### Words and their fields (R79) -/

theorem opcodeOf_packWord (op : BitVec 8) (f : JFields) : opcodeOf (packWord op f) = op := by
  unfold opcodeOf packWord
  rw [BitVec.extractLsb'_append_eq_of_le (by decide), BitVec.extractLsb'_append_eq_of_le (by decide),
    BitVec.extractLsb'_append_eq_of_le (by decide), BitVec.extractLsb'_append_eq_of_le (by decide)]
  exact BitVec.extractLsb'_append_eq_left

theorem fieldsOf_packWord (op : BitVec 8) (f : JFields) : fieldsOf (packWord op f) = f := by
  have hd : (packWord op f).extractLsb' 34 6 = f.d := by
    rw [packWord, BitVec.extractLsb'_append_eq_of_le (by decide)]
    exact BitVec.extractLsb'_append_eq_right
  have hb : (packWord op f).extractLsb' 40 6 = f.b := by
    rw [packWord, BitVec.extractLsb'_append_eq_of_le (by decide), BitVec.extractLsb'_append_eq_of_le (by decide)]
    exact BitVec.extractLsb'_append_eq_right
  have ha : (packWord op f).extractLsb' 46 6 = f.a := by
    rw [packWord, BitVec.extractLsb'_append_eq_of_le (by decide), BitVec.extractLsb'_append_eq_of_le (by decide),
      BitVec.extractLsb'_append_eq_of_le (by decide)]
    exact BitVec.extractLsb'_append_eq_right
  have hflags : (packWord op f).extractLsb' 52 4 = f.flags := by
    rw [packWord, BitVec.extractLsb'_append_eq_of_le (by decide), BitVec.extractLsb'_append_eq_of_le (by decide),
      BitVec.extractLsb'_append_eq_of_le (by decide), BitVec.extractLsb'_append_eq_of_le (by decide)]
    exact BitVec.extractLsb'_append_eq_right
  rw [fieldsOf, hd, hb, ha, hflags]
  exact congrArg (JFields.mk f.flags f.a f.b f.d) BitVec.extractLsb'_append_eq_right

/-- Adjacent slices of a word, put together. -/
theorem slice_append_slice (w : Word) (lo n m : Nat) : w.extractLsb' (lo + n) m ++ w.extractLsb' lo n = w.extractLsb' lo (m + n) :=
  BitVec.extractLsb'_append_extractLsb'_eq_extractLsb' rfl

theorem packWord_fieldsOf (w : Word) : packWord (opcodeOf w) (fieldsOf w) = w := by
  simp only [fieldsOf, packWord, opcodeOf]
  rw [slice_append_slice w 52 4 8, slice_append_slice w 46 6 12, slice_append_slice w 40 6 18, slice_append_slice w 34 6 24,
    slice_append_slice w 0 34 30]
  exact BitVec.extractLsb'_eq_self

/-! ### Decoding (R81, R175) -/

theorem jenliParts_decodeSuniq (gl : GloveRef) (p : Pace) (f : JFields) : jenliParts (decodeSuniq gl p f) = some (gl, 0x84, f) := by
  unfold decodeSuniq
  split <;> rfl

theorem jenliParts_decodeSbox (gl : GloveRef) (p : Pace) (f : JFields) : jenliParts (decodeSbox gl p f) = some (gl, 0x87, f) := by
  unfold decodeSbox
  split <;> rfl

theorem jenliParts_decodeSnear (gl : GloveRef) (p : Pace) (f : JFields) : jenliParts (decodeSnear gl p f) = some (gl, 0x89, f) := by
  unfold decodeSnear
  split <;> rfl

/-- The glove and the fields of a decoded word are those it was decoded with. -/
theorem jenliParts_decodeJenli (gl : GloveRef) (p : Pace) (w : Word) :
    jenliParts (decodeJenli gl p w) = some (gl, opcodeOf w, fieldsOf w) := by
  have opcode_eq {n : Nat} (h : (opcodeOf w).toNat = n) : opcodeOf w = BitVec.ofNat 8 n := by
    rw [← h, BitVec.ofNat_toNat, BitVec.setWidth_eq]
  unfold decodeJenli
  split
  case h_75 h => rw [opcode_eq h]; exact jenliParts_decodeSuniq gl p _
  case h_78 h => rw [opcode_eq h]; exact jenliParts_decodeSbox gl p _
  case h_80 h => rw [opcode_eq h]; exact jenliParts_decodeSnear gl p _
  case h_84 => rfl
  all_goals
    rename_i h
    rw [opcode_eq h]
    rfl

/-- A word with an unassigned opcode is a reserved opcode. -/
theorem decodeJenli_of_unassigned (gl : GloveRef) (p : Pace) {w : Word} (h : assignedOpcode (opcodeOf w) = false) :
    decodeJenli gl p w = .reservedOpcode gl (opcodeOf w) (fieldsOf w) := by
  unfold decodeJenli
  split
  case h_84 => rfl
  all_goals
    rename_i hop
    simp [assignedOpcode, hop] at h

/-- The word of a well-formed instruction decodes to it: its opcode names its constructor, and where several constructors share an opcode
the bits of the extension do (R175). -/
theorem decodeJenli_packWord {i : Instr} {gl : GloveRef} {op : BitVec 8} {f : JFields} (hwf : i.wellFormed = true)
    (h : jenliParts i = some (gl, op, f)) : decodeJenli gl (paceOf i) (packWord op f) = i := by
  have hop := opcodeOf_packWord op f
  have hf := fieldsOf_packWord op f
  cases i
  all_goals cases h
  case reservedOpcode =>
    simp only [Instr.wellFormed, Bool.or_eq_true, Bool.and_eq_true, beq_iff_eq, Bool.not_eq_true'] at hwf
    rcases hwf with hfree | ⟨⟨rfl, hx⟩, hy⟩
    · rw [decodeJenli_of_unassigned gl _ (by rw [hop]; exact hfree), hop, hf]
    · rw [decodeJenli, hop, hf]
      change decodeSbox gl _ f = _
      rw [decodeSbox, hx, hy]
  case suniqCnt | suniq =>
    rw [decodeJenli, hop, hf]
    change decodeSuniq _ _ _ = _
    simp only [Instr.wellFormed, Bool.not_eq_true'] at hwf
    rw [decodeSuniq, hwf]
    rfl
  case snear | snearR =>
    rw [decodeJenli, hop, hf]
    change decodeSnear _ _ _ = _
    simp only [Instr.wellFormed, Bool.not_eq_true'] at hwf
    rw [decodeSnear, hwf]
    rfl
  case sboxRoots | sboxFold | sboxFinish =>
    rw [decodeJenli, hop, hf]
    change decodeSbox _ _ _ = _
    simp only [Instr.wellFormed, Bool.and_eq_true, Bool.not_eq_true'] at hwf
    obtain ⟨hx, hy⟩ := hwf
    rw [decodeSbox, hx, hy]
    rfl
  all_goals
    rw [decodeJenli, hop, hf]
    rfl

/-- Settles O60: an instruction's word carries its opcode and fields, which name its constructor, and a word is its opcode and fields. -/
theorem jenliWordsRoundTrip : Obligations.JenliWordsRoundTrip := by
  unfold Obligations.JenliWordsRoundTrip
  refine ⟨fun i gl op f hwf h => ⟨?_, decodeJenli_packWord hwf h⟩, fun gl p w => ?_⟩
  · rw [encodeJenli, h, Option.map_some]
  · rw [encodeJenli, jenliParts_decodeJenli, Option.map_some, packWord_fieldsOf]

end Sys2Proof.JenliWords
end

section
/-!
Instructions of a glove that go on at once (R82-R84): the scalar results, the writes of D, P and M, and the transfers of control.
-/
namespace Sys2Proof.ScalarInstructions
open Sys2Proof.Machine Sys2Proof.GloveInstructions Sys2Proof.ContextSwaps

variable {s : State} {gl : GloveRef} {op : BitVec 8} {w : JFields}

/-! ### Instructions that pass their checks (R59, R62, R80, R83) -/

/-- A glove as the instruction that it issues finds it. -/
def issuing (s : State) (gl : GloveRef) : Glove := { s.glv gl with progressAt := s.hearth.time }

/-- Two register effects that agree on the glove that issues leave the same state. -/
theorem ran_congr {f f' : Glove → Glove} (h : f (issuing s gl) = f' (issuing s gl)) : s.ran gl f = s.ran gl f' := by
  rw [State.ran, State.ran, modGlv_congr _ gl f f' (by rw [issue_glv]; exact h)]

theorem scalar_eq_ran {legal : Bool} {f : Glove → Glove} (h : s.mayRun gl op w) (hlegal : legal = true) :
    s.scalar gl op w legal (onGlove gl f) = s.ran gl f := by
  obtain ⟨hissue, hnext⟩ := h
  simp only [State.scalar, hissue, hlegal, hnext, Bool.not_true, Bool.false_eq_true, if_false]
  rfl

/-- An instruction that writes S[d] from the registers of its glove. -/
theorem scalar_setS {legal : Bool} (v : Glove → Word) {x : Word} (h : s.mayRun gl op w) (hlegal : legal = true)
    (hv : v (issuing s gl) = x) :
    s.scalar gl op w legal (onGlove gl fun g => g.setS (sNum w.d) (v g)) = s.ran gl fun g => g.setS (sNum w.d) x := by
  rw [scalar_eq_ran h hlegal]
  exact ran_congr (by rw [hv])

/-! ### Scalar arithmetic (R56, R82) -/

theorem alu_eq_ran (f : Word → Word → Word) (h : s.mayRun gl op w) (hlegal : aluLegal w = true) :
    s.alu gl op w f = s.ran gl fun g => g.setS (sNum w.d) (f ((s.glv gl).sreg (sNum w.a)) ((s.glv gl).opB w)) :=
  scalar_setS _ h hlegal rfl

/-- Settles O3: each instruction is its operation on S[a] and B, written to S[d]. -/
theorem scalarArithmeticResults : Obligations.ScalarArithmeticResults := by
  unfold Obligations.ScalarArithmeticResults
  intro s gl w hlegal a b puts
  have alu {op : BitVec 8} (f : Word → Word → Word) (h : s.mayRun gl op w) :
      (.next (s.alu gl op w f) : Out) = .next (s.ran gl fun g => g.setS (sNum w.d) (f a b)) :=
    congrArg Host.Outcome.next (alu_eq_ran f h hlegal)
  exact ⟨alu (· + ·), alu (· - ·), alu (· * ·), alu (· &&& ·), alu (· ||| ·), alu (· ^^^ ·),
    alu fun x y => x <<< shamt y, alu fun x y => x >>> shamt y, alu fun x y => x.sshiftRight (shamt y)⟩

/-! ### Moves into S registers (R82, R84) -/

/-- The condition codes 6 and 7 name no condition (R81). -/
theorem lt_of_branchCond {cc : Nat} {x y : Word} {v : Bool} (h : branchCond cc x y = some v) : cc < 6 := by
  unfold branchCond at h
  split at h
  case h_7 => cases h
  all_goals decide

/-- `lih` puts its immediate above the low 34 bits. -/
theorem lihValue_eq (old : Word) (w : JFields) : lihValue old w = w.imm.extractLsb' 0 30 ++ old.extractLsb' 0 34 := by
  have happend : (w.imm.extractLsb' 0 30 ++ old.extractLsb' 0 34).toNat = old.toNat % 2 ^ 34 + 2 ^ 34 * (w.imm.toNat % 2 ^ 30) := by
    rw [BitVec.toNat_append, ← Nat.shiftLeft_add_eq_or_of_lt (BitVec.isLt _), Nat.shiftLeft_eq]
    simp only [BitVec.extractLsb'_toNat, Nat.shiftRight_zero]
    omega
  refine BitVec.eq_of_toNat_eq (Eq.trans ?_ happend.symm)
  simp only [lihValue, imf, fld, BitVec.toNat_ofNat, Nat.shiftRight_zero, Nat.sub_zero, Nat.reduceAdd]
  omega

theorem rdsrVal_eq (s : State) (gl : GloveRef) {r : Nat} (h : r ≤ 4) : s.rdsrVal gl r = if r = 0 then s.hearth.time
    else if r = 1 then (s.glv gl).launchWord else if r = 2 then (s.glv gl).tickEdge else if r = 3 then (s.glv gl).elapsed
    else (s.eng gl.e).step.zeroExtend 64 := by
  match r, h with
  | 0, _ | 1, _ | 2, _ | 3, _ | 4, _ => rfl

/-- Settles O4: each instruction writes the value that it names to S[d]. -/
theorem scalarMoveResults : Obligations.ScalarMoveResults := by
  unfold Obligations.ScalarMoveResults
  intro s gl w g puts
  have moves {op : BitVec 8} {legal : Bool} (v : Glove → Word) {x : Word} (hlegal : legal = true) (hv : v (issuing s gl) = x)
      (h : s.mayRun gl op w) : (.next (s.scalar gl op w legal (onGlove gl fun g => g.setS (sNum w.d) (v g))) : Out)
        = .next (s.ran gl fun g => g.setS (sNum w.d) x) :=
    congrArg Host.Outcome.next (scalar_setS v h hlegal hv)
  refine ⟨fun hd => moves (fun _ => immS w) hd rfl, fun hd => moves _ hd (lihValue_eq _ w), fun hlegal v hv => ?scmp,
    fun hd => moves _ hd rfl, fun hd => moves _ hd rfl, fun hd ha => moves _ (by rw [hd, ha]; rfl) rfl, fun hd hr => ?rdsr⟩
  case scmp =>
    have hcc : scmpCc w < 6 := lt_of_branchCond hv
    refine moves _ (by rw [hlegal, decide_eq_true hcc]; rfl) ?_
    change (if (branchCond (scmpCc w) (g.sreg (sNum w.a)) (g.opB w)).getD false then (1 : Word) else 0) = _
    rw [scmpCc, hv]
    rfl
  case rdsr =>
    exact moves (fun _ => s.rdsrVal gl (imf w 7 0)) (by rw [hd, decide_eq_true hr]; rfl) (rdsrVal_eq s gl hr)

/-! ### Register setup (R82) -/

/-- Bit j of a number made of n digits of k bits. -/
theorem testBit_digits {k : Nat} (hk : 0 < k) (f : Nat → Nat) (n : Nat) :
    ∀ i j, (digits k f i n).testBit j = (decide (j / k < n) && (f (i + j / k)).testBit (j % k)) := by
  induction n with
  | zero => intro i j; simp [digits]
  | succ n ih =>
    intro i j
    rw [digits, Nat.add_comm, Nat.testBit_two_pow_mul_add _ (Nat.mod_lt _ (Nat.two_pow_pos k))]
    rcases Nat.lt_or_ge j k with hj | hj
    · rw [if_pos hj, Nat.div_eq_of_lt hj, Nat.mod_eq_of_lt hj, Nat.testBit_mod_two_pow]
      simp [hj]
    · rw [if_neg (by omega), ih, Nat.div_eq_sub_div hk hj, Nat.mod_eq_sub_mod hj, Nat.add_assoc, Nat.add_comm 1]
      simp only [Nat.add_lt_add_iff_right]

/-- A descriptor whose word q is replaced. -/
theorem getLsbD_setWord (d : Desc) (q : Nat) (v : Word) {i : Nat} (hi : i < 512) :
    (Desc.setWord d q v).getLsbD i = if i / 64 = q then v.getLsbD (i % 64) else d.getLsbD i := by
  have hword : i / 64 < 8 := by omega
  have hplace : 64 * (i / 64) + i % 64 = i := Nat.div_add_mod i 64
  rw [Desc.setWord, BitVec.getLsbD_ofNat, testBit_digits (by decide), Nat.zero_add, decide_eq_true hi, decide_eq_true hword]
  split
  · rfl
  · change (Desc.word d (i / 64)).getLsbD (i % 64) = _
    rw [Desc.word, BitVec.getLsbD_extractLsb', hplace, decide_eq_true (Nat.mod_lt i (by decide))]
    rfl

/-- A mask whose quarter q is replaced. -/
theorem getLsbD_maskSet (m : Mask) (q : Nat) (v : Word) {i : Nat} (hi : i < 256) :
    (maskSet m q v).getLsbD i = if i / 64 = q then v.getLsbD (i % 64) else m.getLsbD i := by
  have hv : v.toNat % 2 ^ 64 = v.toNat := Nat.mod_eq_of_lt v.isLt
  simp only [maskSet, setFld, hv, BitVec.getLsbD_or, BitVec.getLsbD_and, BitVec.getLsbD_not, BitVec.getLsbD_shiftLeft, BitVec.getLsbD_ofNat,
    Nat.testBit_two_pow_sub_one, BitVec.testBit_toNat, decide_eq_true hi, Bool.true_and]
  rcases Nat.lt_or_ge i (64 * q) with hlow | hge
  · have hword : ¬i / 64 = q := by omega
    simp [hlow, hword]
  · have hnear : i - 64 * q < 256 := by omega
    simp only [Nat.not_lt.2 hge, hnear, decide_true, decide_false, Bool.not_false, Bool.true_and]
    by_cases hword : i / 64 = q
    · have hat : i - 64 * q = i % 64 := by omega
      have hmod : i % 64 < 64 := Nat.mod_lt i (by decide)
      simp [hword, hat, hmod]
    · have hfar : 64 ≤ i - 64 * q := by omega
      simp [hword, Nat.not_lt.2 hfar, BitVec.getLsbD_of_ge v _ hfar]

/-- Settles O5: each instruction writes the word or quarter that it names. -/
theorem registerSetupWrites : Obligations.RegisterSetupWrites := by
  unfold Obligations.RegisterSetupWrites
  intro s gl w ha v
  have writes {op : BitVec 8} {legal : Bool} {f f' : Glove → Glove} (hlegal : legal = true) (hf : f (issuing s gl) = f' (issuing s gl))
      (h : s.mayRun gl op w) : (.next (s.scalar gl op w legal (onGlove gl f)) : Out) = .next (s.ran gl f') :=
    congrArg Host.Outcome.next ((scalar_eq_ran h hlegal).trans (ran_congr hf))
  refine ⟨fun h => ⟨_, writes ha rfl h, fun i hi => getLsbD_setWord _ _ v hi⟩, writes ha rfl,
    fun hd h => ⟨_, writes (by rw [ha, hd]; rfl) rfl h, fun i hi => getLsbD_maskSet _ _ v hi⟩⟩

/-! ### Control (R82, R83) -/

theorem nop_eq_ran (h : s.mayRun gl 0x00 w) : s.scalar gl 0x00 w true .ok = s.ran gl id := by
  obtain ⟨hissue, hnext⟩ := h
  simp only [State.scalar, hissue, hnext, Bool.not_true, Bool.false_eq_true, if_false]
  rw [State.ran, modGlv_of_fixed _ rfl]

/-- A transfer of control to an aligned target inside the region. -/
theorem jump_eq_went {legal : Bool} {next : Glove → Glove × Int × Bool} {f : Glove → Glove} {t : Int} (hissue : s.mayIssue gl op w = true)
    (hlegal : legal = true) (hgoes : (next (s.glv gl)).2 = (t, true)) (hf : (next (issuing s gl)).1 = f (issuing s gl))
    (hfits : 0x40 ≤ t ∧ t < (s.glv gl).regionLen.toNat) : s.jump gl op w legal next = s.went gl f t := by
  have hok : (s.glv gl).targetOk t = true := by simp [Glove.targetOk, hfits]
  simp only [State.jump, hissue, hlegal, hgoes, hok, Bool.and_self, Bool.not_true, Bool.false_eq_true, if_false]
  refine modGlv_congr _ gl _ _ ?_
  rw [issue_glv]
  exact congrArg (fun g : Glove => { g with pc := BitVec.ofInt 32 t }) hf

/-- Where `loop` goes: S0 stays zero and falls through. -/
theorem loopNext_target (g : Glove) (w : JFields) : (g.loopNext w).2
    = (if sNum w.a ≠ 0 ∧ g.sreg (sNum w.a) - 1 ≠ 0 then g.branchTarget w else (g.pc.toNat : Int) + 8, true) := by
  unfold Glove.loopNext
  by_cases ha : sNum w.a = 0 <;> simp [ha]

/-- Settles O6: each instruction that transfers control goes to its target. -/
theorem controlTransfers : Obligations.ControlTransfers := by
  unfold Obligations.ControlTransfers
  intro s gl w g target next fits goes
  have jumps {op : BitVec 8} {legal : Bool} {n : Glove → Glove × Int × Bool} {f : Glove → Glove} {t : Int} (hlegal : legal = true)
      (hgoes : (n g).2 = (t, true)) (hf : (n (issuing s gl)).1 = f (issuing s gl)) (hissue : s.mayIssue gl op w = true)
      (hfits : fits t) : (.next (s.jump gl op w legal n) : Out) = .next (s.went gl f t) :=
    congrArg Host.Outcome.next (jump_eq_went hissue hlegal hgoes hf hfits)
  refine ⟨fun h => congrArg Host.Outcome.next (nop_eq_ran h), jumps rfl rfl rfl, fun ha hb v hv => ?bc, fun hd => jumps hd rfl rfl,
    fun ha halign => jumps ha ?jr rfl, fun ha => jumps ha (loopNext_target g w) rfl⟩
  case bc =>
    refine jumps (by rw [ha, hb, decide_eq_true (lt_of_branchCond hv)]; rfl) ?_ rfl
    change (if g.bcTaken w then g.branchTarget w else (g.pc.toNat : Int) + 8, true) = _
    rw [Glove.bcTaken, hv]
    rfl
  case jr =>
    have hmod : (g.sreg (sNum w.a)).toNat % 2 ^ 32 % 8 = 0 := by omega
    change (((fld (g.sreg (sNum w.a)) 31 0 : Nat) : Int), fld (g.sreg (sNum w.a)) 31 0 % 8 == 0) = _
    simp only [fld, Nat.shiftRight_zero, Nat.sub_zero, Nat.reduceAdd, hmod]
    rfl

end Sys2Proof.ScalarInstructions
end

section
/-!
Fences of gloves (R29, R87): what a write-back of the combining buffers leaves, a glove that waits, and FABRIC_FENCE_COMPLETE.
-/
namespace Sys2Proof.GloveFences
open Sys2Proof.Machine Sys2Proof.WingMemories Sys2Proof.GloveInstructions Sys2Proof.ContextSwaps

variable {s t : State} {gl : GloveRef} {op : BitVec 8} {w : JFields}

/-! ### Write-back of the lines that a fence covers (R29, R43) -/

/-- A line of a combining buffer after a fence. -/
def swept (covers : Nat → Bool) (c : CombLine) : CombLine := if (c.dirty && c.writers.any covers) = true then ⟨c.line, false, []⟩ else c

theorem cleanLines_comb (s : State) (x : WingIx) (covers : Nat → Bool) :
    ((s.cleanLines x fun c => c.writers.any covers).wing x).comb = (s.wing x).comb.map (swept covers) := by
  unfold State.cleanLines
  extract_lets n clean
  split
  · rename_i hn
    have hnone : ∀ c ∈ (s.wing x).comb, swept covers c = c := fun c hc =>
      if_neg (List.filter_eq_nil_iff.1 (List.length_eq_zero_iff.1 hn) c hc)
    rw [List.map_congr_left hnone, List.map_id']
  · rw [wingCnt_comb, modWing_wing]
    rfl

theorem wingCnt_wing_ne (s : State) {x y : WingIx} (h : y ≠ x) (i : Fin 12) (k : Nat) : (s.wingCnt x i k).wing y = s.wing y := by
  unfold State.wingCnt
  split
  · rfl
  · exact modWing_wing_ne s x y _ h

theorem cleanLines_wing_ne (s : State) {x y : WingIx} (h : y ≠ x) (f : CombLine → Bool) : (s.cleanLines x f).wing y = s.wing y := by
  unfold State.cleanLines
  extract_lets n clean
  split
  · rfl
  · rw [wingCnt_wing_ne _ h, modWing_wing_ne _ _ _ _ h]

/-- The buffers of some wings are swept, the others stay. -/
theorem foldl_cleanLines_comb (covers : Nat → Bool) (y : WingIx) (l : List WingIx) (hl : l.Nodup) :
    ∀ s : State, ((l.foldl (fun t x => t.cleanLines x fun c => c.writers.any covers) s).wing y).comb
      = if y ∈ l then (s.wing y).comb.map (swept covers) else (s.wing y).comb := by
  induction l with
  | nil => exact fun s => (if_neg List.not_mem_nil).symm
  | cons x l ih =>
    intro s
    obtain ⟨hx, hl⟩ := List.nodup_cons.1 hl
    rw [List.foldl_cons, ih hl]
    by_cases hy : y = x
    · subst hy
      rw [if_neg hx, if_pos List.mem_cons_self, cleanLines_comb]
    · simp only [cleanLines_wing_ne s hy, List.mem_cons, hy, false_or]

theorem fenceClean_swept (s : State) (covers : Nat → Bool) : s.fenceSwept (s.fenceClean covers) covers := fun y => by
  rw [State.fenceClean, allFin, foldl_cleanLines_comb covers y _ (List.nodup_finRange 4), if_pos (List.mem_finRange y)]
  rfl

theorem fenceSwept_modGlv {covers : Nat → Bool} (h : s.fenceSwept t covers) (gl : GloveRef) (f : Glove → Glove) :
    s.fenceSwept (t.modGlv gl f) covers := fun y => h y

/-- A fence changes the combining buffers and their counters only. -/
theorem fenceClean_frame (s : State) (covers : Nat → Bool) : (s.fenceClean covers).mem = s.mem ∧ (s.fenceClean covers).engines = s.engines
    ∧ (s.fenceClean covers).ten = s.ten ∧ (s.fenceClean covers).hearth = s.hearth :=
  have keeps {α : Type} (p : State → α) (h : ∀ t x f, p (State.cleanLines t x f) = p t) : p (s.fenceClean covers) = p s :=
    foldl_keeps p (fun t x => h t x _) _ s
  ⟨keeps State.mem fun t x f => (cleanLines_frame t x f).1, keeps State.engines fun t x f => (cleanLines_frame t x f).2.1,
    keeps State.ten fun t x f => (cleanLines_frame t x f).2.2.1, keeps State.hearth fun t x f => (cleanLines_frame t x f).2.2.2.1⟩

/-! ### A glove that waits issues nothing (R59) -/

/-- An instruction that issues finds its glove ready. -/
theorem gloveReady_of_mayIssue (h : s.mayIssue gl op w = true) : s.gloveReady gl = true := by
  simp only [State.mayIssue, Bool.and_eq_true, beq_iff_eq] at h
  obtain ⟨-, hturn⟩ := h
  have hwants : s.wantsIssue gl = true := List.find?_some (p := fun g => s.wantsIssue ⟨gl.e, g⟩) hturn
  unfold State.wantsIssue at hwants
  split at hwants
  · simp only [State.canIssue, Bool.and_eq_true] at hwants
    exact hwants.1
  · cases hwants

/-- A ready glove waits for nothing and is not dying. -/
theorem gloveReady_quiet (h : s.gloveReady gl = true) : (s.glv gl).wait = .none ∧ (s.glv gl).dying = none := by
  simp only [State.gloveReady, Bool.and_eq_true, beq_iff_eq, Option.isNone_iff_eq_none] at h
  obtain ⟨⟨⟨⟨⟨⟨-, hwait⟩, -⟩, -⟩, -⟩, -⟩, hdying⟩ := h
  exact ⟨hwait, hdying⟩

theorem mayIssue_of_wait (h : (s.glv gl).wait ≠ .none) (op : BitVec 8) (w : JFields) : s.mayIssue gl op w = false :=
  Bool.eq_false_iff.2 fun hc => h (gloveReady_quiet (gloveReady_of_mayIssue hc)).1

/-- An instruction that does not issue changes nothing. -/
theorem exec_of_not_issuing {i : Instr} (hno : ∀ op w, s.mayIssue gl op w = false) (hi : jenliParts i = some (gl, op, w)) :
    exec i s = .next s := by
  have scalar (op : BitVec 8) (w : JFields) (legal : Bool) (f : State → Res State) : s.scalar gl op w legal f = s := by
    rw [State.scalar, hno]; rfl
  have jump (op : BitVec 8) (w : JFields) (legal : Bool) (next : Glove → Glove × Int × Bool) : s.jump gl op w legal next = s := by
    rw [State.jump, hno]; rfl
  have notReady (op : TOp) (w : JFields) : s.tileReady gl op w = false := by rw [State.tileReady, hno]; rfl
  have tile (op : TOp) (w : JFields) (p : Pace) : s.tile gl op w p = s := by rw [State.tile, notReady]; rfl
  cases i
  all_goals cases hi
  case endI => exact congrArg Host.Outcome.next (if_neg (by rw [hno]; decide))
  case bwait | fence | trel => exact congrArg Host.Outcome.next (if_pos (by rw [hno]; rfl))
  case br | bc | jal | jr | loop => exact congrArg Host.Outcome.next (jump _ _ _ _)
  case exch => exact congrArg Host.Outcome.next ((if_neg (by rw [notReady]; simp)).trans (tile _ _ _))
  case nop | scmp | add | sub | mul | and | or | xor | shl | shr | sar | li | lih | dset | dget | pset | pget | mset | mget | bsig | rdsr
      | reservedOpcode =>
    exact congrArg Host.Outcome.next (scalar _ _ _ _)
  all_goals exact congrArg Host.Outcome.next (tile _ _ _)

/-! ### FABRIC_FENCE_COMPLETE of a glove (R29, R87) -/

/-- A trace record changes an attic of an engine only. -/
theorem trace_eng (s : State) (c : Fin 17) (sync cmd : Bool) (n : Option TenIx) (ty src : Nat) (x : Word) (e : EngIx) :
    ∃ l, (s.trace c sync cmd n ty src x).eng e = { s.eng e with attic := l } := by
  have hset (u : State) (l : List (BitVec 128)) : ∃ l', (u.setAttic c l).eng e = { u.eng e with attic := l' } := by
    unfold State.setAttic
    split
    · rename_i hc
      by_cases he : e = ⟨c.val, hc⟩
      · subst he; exact ⟨l, modEng_eng u _ _⟩
      · exact ⟨(u.eng e).attic, modEng_eng_ne u _ _ _ he⟩
    · exact ⟨(u.eng e).attic, rfl⟩
  have hdrop (u : State) : (u.dropRecord c).eng e = u.eng e := by rw [State.eng, dropRecord_engines, State.eng]
  unfold State.trace
  extract_lets ch l r
  split
  · split
    · exact hset s _
    · split
      · rw [hdrop]; exact hset (s.modTch c _) _
      · rw [hdrop]; exact ⟨(s.eng e).attic, rfl⟩
  · exact ⟨(s.eng e).attic, rfl⟩

/-- The state when the fence of a glove has waited since a time: its WAIT record is written, and the fence is performed. -/
def fencePerformed (s : State) (gl : GloveRef) (since : Nat) : State :=
  (s.trace (engChan gl.e) true false (some (s.glv gl).tenant) 0x03 gl.g.val (at_ (min (2 ^ 32 - 1) (s.now - since)) 0)).fenceClean
    (· == gloveWho gl)

theorem fencePerformed_glv (s : State) (gl : GloveRef) (since : Nat) (x : GloveRef) : (fencePerformed s gl since).glv x = s.glv x := by
  rw [fencePerformed, glv_of_engines (fenceClean_frame _ _).2.1, trace_glv]

theorem fencePerformed_swept (s : State) (gl : GloveRef) (since : Nat) : s.fenceSwept (fencePerformed s gl since) (· == gloveWho gl) := by
  intro y
  have hwing : (s.trace (engChan gl.e) true false (some (s.glv gl).tenant) 0x03 gl.g.val
      (at_ (min (2 ^ 32 - 1) (s.now - since)) 0)).wing y = s.wing y := by rw [State.wing, trace_wings, State.wing]
  rw [fencePerformed, fenceClean_swept, hwing]

theorem exec_fabricFenceComplete_done {since : Nat} (hwait : (s.glv gl).wait = .fence since) (hempty : (s.glv gl).inflight = [])
    (hstate : (s.glv gl).state = 2) : exec (.fabricFenceComplete (.glove gl)) s
      = .next (((fencePerformed s gl since).modGlv gl fun g => { g with wait := .none, state := 1 }).nextPc gl) := by
  change Host.Outcome.next (if _ then s.fenceDone gl else s) = _
  rw [if_pos (by simp [hstate]), State.fenceDone, hwait]
  dsimp only
  rw [hempty]
  rfl

theorem exec_fabricFenceComplete_inflight {since : Nat} (hwait : (s.glv gl).wait = .fence since) (hbusy : (s.glv gl).inflight ≠ []) :
    exec (.fabricFenceComplete (.glove gl)) s = .next s := by
  have hstays : s.fenceDone gl = s := by
    rw [State.fenceDone, hwait]
    exact if_neg (by simpa using hbusy)
  change Host.Outcome.next (if _ then s.fenceDone gl else s) = _
  rw [hstays, ite_self]

/-- Readiness to issue asks for nothing that a performed fence or the move of PC changes. -/
theorem gloveReady_after_fence (s : State) (gl : GloveRef) (since : Nat) :
    (((fencePerformed s gl since).modGlv gl fun g => { g with wait := .none, state := 1 }).nextPc gl).gloveReady gl
      = (s.modGlv gl fun g => { g with wait := .none, state := 1 }).gloveReady gl := by
  obtain ⟨-, hengines, -, hhearth⟩ := fenceClean_frame (s.trace (engChan gl.e) true false (some (s.glv gl).tenant) 0x03 gl.g.val
    (at_ (min (2 ^ 32 - 1) (s.now - since)) 0)) (· == gloveWho gl)
  obtain ⟨l, htrace⟩ := trace_eng s (engChan gl.e) true false (some (s.glv gl).tenant) 0x03 gl.g.val
    (at_ (min (2 ^ 32 - 1) (s.now - since)) 0) gl.e
  have heng : (fencePerformed s gl since).eng gl.e = { s.eng gl.e with attic := l } := by
    rw [← htrace, State.eng, fencePerformed, hengines, State.eng]
  have hpower (u : State) (f : Glove → Glove) : ((u.modGlv gl f).eng gl.e).pwrState = (u.eng gl.e).pwrState
      ∧ ((u.modGlv gl f).eng gl.e).waking = (u.eng gl.e).waking := by
    rw [State.modGlv, modEng_eng]
    exact ⟨rfl, rfl⟩
  have halive : (fencePerformed s gl since).hearth = s.hearth := hhearth.trans (by simp)
  simp only [State.gloveReady, State.nextPc, hpower, heng, modGlv_glv, fencePerformed_glv, State.alive, modGlv_hearth, halive]

/-- Settles O54: `fence` begins its wait, the wait holds issue and outlasts the instructions in flight, and its end performs the fence. -/
theorem fenceHoldsIssue : Obligations.FenceHoldsIssue := by
  unfold Obligations.FenceHoldsIssue
  intro s gl
  refine ⟨fun w h => exec_fence h, fun since hwait => ⟨exec_fabricFenceComplete_inflight hwait, fun i op f hi => ?held,
    fun hempty hstate => ?done⟩⟩
  case held =>
    have hwaits : (s.glv gl).wait ≠ .none := by rw [hwait]; exact nofun
    exact exec_of_not_issuing (mayIssue_of_wait hwaits) hi
  case done =>
    refine ⟨_, exec_fabricFenceComplete_done hwait hempty hstate,
      fenceSwept_modGlv (fenceSwept_modGlv (fencePerformed_swept s gl since) gl _) gl _, ?_, ?_, fun h => ?_⟩
    · rw [nextPc_glv, modGlv_glv, fencePerformed_glv]
    · rw [nextPc_mem, modGlv_mem, fencePerformed, (fenceClean_frame _ _).1, trace_mem]
    · rw [gloveReady_after_fence]
      exact h

end Sys2Proof.GloveFences
end

section
/-!
Bolts (R85, R86, R202-R204): what a signal, the end of a wait and a timeout leave of the bolt, its FIFO and the glove that waited.
-/
namespace Sys2Proof.BoltWaits
open Sys2Proof.Machine Sys2Proof.WingMemories Sys2Proof.GloveInstructions Sys2Proof.ContextSwaps Sys2Proof.GloveFences

variable {s t u : State} {gl : GloveRef} {b : BoltIx} {w : JFields}

theorem bolt_of_ten (h : t.ten = s.ten) (x : BoltIx) : t.bolt x = s.bolt x := by rw [State.bolt, h, State.bolt]

theorem ownsBolt_of_ten (h : t.ten = s.ten) (x : BoltIx) (n : TenIx) : t.ownsBolt x n = s.ownsBolt x n := by
  rw [State.ownsBolt, bolt_of_ten h, State.ownsBolt]

/-- Memory is the same in two states, and every bolt but one. -/
structure OnlyBolt (b : BoltIx) (s t : State) : Prop where
  mem : t.mem = s.mem
  others : ∀ x, x ≠ b → t.bolt x = s.bolt x

theorem OnlyBolt.of_ten (hmem : t.mem = s.mem) (hten : t.ten = s.ten) : OnlyBolt b s t := ⟨hmem, fun x _ => bolt_of_ten hten x⟩
theorem OnlyBolt.trans (h : OnlyBolt b s t) (k : OnlyBolt b t u) : OnlyBolt b s u :=
  ⟨k.mem.trans h.mem, fun x hx => (k.others x hx).trans (h.others x hx)⟩
theorem OnlyBolt.modBolt (s : State) (b : BoltIx) (f : Bolt → Bolt) : OnlyBolt b s (s.modBolt b f) := ⟨rfl, fun x hx => modBolt_bolt_ne s b x f hx⟩

/-! ### Signals (R203, R204) -/

/-- What an applied signal of n leaves of its bolt. -/
structure Signalled (b : BoltIx) (n : Nat) (s t : State) : Prop extends OnlyBolt b s t where
  count : (t.bolt b).count = satAdd (s.bolt b).count n
  fifo : (t.bolt b).fifo = (s.bolt b).fifo

theorem Signalled.of_ten {n : Nat} (h : Signalled b n s t) (hmem : u.mem = t.mem) (hten : u.ten = t.ten) : Signalled b n s u :=
  ⟨h.toOnlyBolt.trans (.of_ten hmem hten), by rw [bolt_of_ten hten, h.count], by rw [bolt_of_ten hten, h.fifo]⟩

theorem boltAdd_signalled (s : State) (b : BoltIx) (who : BoltParty) (n : Nat) : Signalled b n s (s.boltAdd b who n) := by
  unfold State.boltAdd
  extract_lets x beyond t
  have ht : Signalled b n s t := ⟨.modBolt s b _, by unfold t; rw [modBolt_bolt], by unfold t; rw [modBolt_bolt]⟩
  split
  · exact ht.of_ten (report_mem _ _) (report_ten _ _)
  · exact ht

theorem boltAdd_glv (s : State) (b : BoltIx) (who : BoltParty) (n : Nat) (x : GloveRef) : (s.boltAdd b who n).glv x = s.glv x := by
  unfold State.boltAdd
  extract_lets y beyond t
  split
  · exact report_glv t _ x
  · rfl

/-- The state after a signal of a glove that its bolt takes. -/
def signalled (s : State) (b : BoltIx) (gl : GloveRef) (n : Nat) : State :=
  s.traceSignal (s.boltAdd b (.glove gl) n) b (.glove gl) n

theorem signalled_signalled (s : State) (b : BoltIx) (gl : GloveRef) (n : Nat) : Signalled b n s (signalled s b gl n) :=
  (boltAdd_signalled s b (.glove gl) n).of_ten (trace_mem ..) (trace_ten ..)

theorem signalled_glv (s : State) (b : BoltIx) (gl : GloveRef) (n : Nat) (x : GloveRef) : (signalled s b gl n).glv x = s.glv x :=
  (trace_glv ..).trans (boltAdd_glv s b _ n x)

theorem applySignal_glove (h : s.ownsBolt b (s.glv gl).tenant = true) (n : Nat) :
    s.applySignal b (.glove gl) n = some (s.boltAdd b (.glove gl) n) := if_pos h

/-- A `bsig` that passes its checks signals its bolt once the glove's writes are done (R86). -/
theorem exec_bsig (hrun : s.mayRun gl 0x1B w) (ha : (clsOf w.a).isS = true) (hn : imf w 15 0 ≠ 0)
    (hown : s.ownsBolt (boltOf (s.glv gl) w) (s.glv gl).tenant = true) : exec (.bsig gl w) s
      = .next ((signalled ((s.issue gl).fenceClean (· == gloveWho gl)) (boltOf (s.glv gl) w) gl (imf w 15 0)).nextPc gl) := by
  obtain ⟨hissue, hnext⟩ := hrun
  obtain ⟨-, hengines, hten, -⟩ := fenceClean_frame (s.issue gl) (· == gloveWho gl)
  have hglv : ((s.issue gl).fenceClean (· == gloveWho gl)).glv gl = { s.glv gl with progressAt := s.hearth.time } := by
    rw [glv_of_engines hengines, issue_glv]
  have hbolt : boltOf (((s.issue gl).fenceClean (· == gloveWho gl)).glv gl) w = boltOf (s.glv gl) w := by rw [hglv]; rfl
  have happly : ((s.issue gl).fenceClean (· == gloveWho gl)).applySignal (boltOf (s.glv gl) w) (.glove gl) (imf w 15 0) = some _ :=
    applySignal_glove (by rw [ownsBolt_of_ten (hten.trans (issue_ten s gl)), hglv]; exact hown) _
  change Host.Outcome.next (State.scalar _ _ _ _ _ _) = _
  simp only [State.scalar, hissue, hnext, ha, bne_iff_ne.2 hn, hbolt, happly, Bool.and_self, Bool.not_true, Bool.false_eq_true, if_false]
  rfl

theorem exec_boltSignalApply {n : BitVec 32} (hon : s.fabricOn = true) (hown : s.ownsBolt b (s.glv gl).tenant = true) :
    exec (.boltSignalApply b [⟨.glove gl, n⟩]) s = .next (signalled s b gl n.toNat) := by
  change Host.Outcome.next (if s.fabricOn then (State.signalOne b (s, false) ⟨.glove gl, n⟩).1 else s) = _
  rw [if_pos hon, State.signalOne]
  dsimp only
  rw [applySignal_glove hown]
  rfl

/-! ### The end of a wait (R85, R203) -/

/-- The glove whose wait at a bolt has ended. -/
def waitEnded (g : Glove) (d : BitVec 6) (ok : Bool) : Glove :=
  { g.setS (sNum d) (if ok then 1 else 0) with pc := g.pc + 8, wait := .none, state := 1 }

/-- The end of a wait neither reads nor changes ELAPSED. -/
theorem waitEnded_elapsed (g : Glove) (k : Word) (d : BitVec 6) (ok : Bool) :
    waitEnded { g with elapsed := k } d ok = { waitEnded g d ok with elapsed := (waitEnded { g with elapsed := k } d ok).elapsed } := by
  unfold waitEnded Glove.setS
  split <;> rfl

theorem endGloveWait_glv {n : BitVec 32} {dl : Option Nat} {since us : Nat} {d : BitVec 6} (hwait : (s.glv gl).wait = .bolt b n dl since d us)
    (hsaved : (s.eng gl.e).saved[gl.g.val] = false) (ok : Bool) : (s.endGloveWait gl ok).glv gl = waitEnded (s.glv gl) d ok := by
  unfold State.endGloveWait
  rw [hwait]
  dsimp only
  rw [engineWake_glv, modGlv_glv, hsaved]
  rfl

/-- The wait of a glove at a bolt ends: its WAIT record, and the glove. -/
theorem endWait_glove {n : BitVec 32} {dl : Option Nat} {since us : Nat} {d : BitVec 6} {x : BWaiter} (hwho : x.who = .glove gl)
    (hwait : (s.glv gl).wait = .bolt b n dl since d us) (hsaved : (s.eng gl.e).saved[gl.g.val] = false) (ok : Bool) :
    (s.endWait b x ok).mem = s.mem ∧ (s.endWait b x ok).ten = s.ten ∧ (s.endWait b x ok).glv gl = waitEnded (s.glv gl) d ok := by
  unfold State.endWait
  rw [hwho]
  dsimp only [State.traceWait]
  generalize at_ b.val 0 ||| at_ (b2n !ok) 12 ||| _ ||| _ = word
  obtain ⟨l, htrace⟩ := trace_eng s (engChan gl.e) true false (some (s.glv gl).tenant) 0x01 gl.g.val word gl.e
  refine ⟨by rw [endGloveWait_mem, trace_mem], by rw [endGloveWait_ten, trace_ten], ?_⟩
  rw [endGloveWait_glv (by rw [trace_glv]; exact hwait) (by rw [htrace]; exact hsaved), trace_glv]

theorem exec_boltGrant {x : BWaiter} {rest : List BWaiter} (hon : s.fabricOn = true) (hfifo : (s.bolt b).fifo = x :: rest)
    (hcount : x.n.toNat ≤ (s.bolt b).count.toNat) : exec (.boltGrant b) s
      = .next ((s.modBolt b fun y => { y with count := y.count - x.n, fifo := rest }).endWait b x true) := by
  change Host.Outcome.next (if s.fabricOn then s.boltServe b else s) = _
  rw [if_pos hon, State.boltServe, hfifo]
  dsimp only
  rw [if_pos hcount]

/-! ### Timeouts (R85, R203) -/

theorem eng_of_engines (h : t.engines = s.engines) (e : EngIx) : t.eng e = s.eng e := by rw [State.eng, h, State.eng]

theorem engCnt_saved (s : State) (x e : EngIx) (i : Fin 21) (k : Nat) : ((s.engCnt x i k).eng e).saved = (s.eng e).saved := by
  unfold State.engCnt
  split
  · rfl
  · by_cases he : e = x
    · subst he; rw [modEng_eng]
    · rw [modEng_eng_ne _ _ _ _ he]

theorem engWaits_saved (k : Nat) (s : State) (x e : EngIx) : ((s.engWaits k x).eng e).saved = (s.eng e).saved := by
  unfold State.engWaits
  dsimp only
  split
  · rfl
  · rw [engCnt_saved, engCnt_saved]

/-- Of what waits, only the counts of the engines stand in engines. -/
theorem countWaits_engines (k : Nat) (s : State) : (s.countWaits k).engines = ((allFin 16).foldl (State.engWaits k) s).engines := by
  unfold State.countWaits
  dsimp only
  rw [hallCnt_engines, hallCnt_engines]
  refine foldl_keeps State.engines (fun v x => ?_) _ _
  rw [wingCnt_engines, foldl_keeps State.engines fun _ _ => wingCnt_engines _ _ _ _, State.hbmHeld, wingCnt_engines, wingCnt_engines]

theorem countWaits_saved (k : Nat) (s : State) (e : EngIx) : ((s.countWaits k).eng e).saved = (s.eng e).saved := by
  rw [eng_of_engines (countWaits_engines k s)]
  exact foldl_keeps (fun u => (u.eng e).saved) (fun u x => engWaits_saved k u x e) _ s

/-- Hearth cycles leave which contexts an engine in SLEEP has saved. -/
theorem passHc_saved (k : Nat) (s : State) (e : EngIx) : ((s.passHc k).eng e).saved = (s.eng e).saved := by
  have hengine (b : Bool) (x : Engine) : (x.passHc b k).saved = x.saved := by
    unfold Engine.passHc
    split <;> rfl
  have hpass (u v : State) (hv : v.engines = u.engines.map (Engine.passHc s.frozenCnt k)) (hu : (u.eng e).saved = (s.eng e).saved) :
      (v.eng e).saved = (s.eng e).saved := by
    rw [State.eng, hv, Vector.getElem_map, hengine]
    exact hu
  unfold State.passHc
  extract_lets t u v v'
  have hu : (u.eng e).saved = (s.eng e).saved := by
    unfold u
    split
    · exact countWaits_saved k t e
    · rfl
  split
  · rfl
  · split
    · exact hpass u _ (hallCnt_engines _ _ _) hu
    · exact hpass u v rfl hu

theorem advanceTo_saved (s : State) (m : Nat) (e : EngIx) : ((s.advanceTo m).eng e).saved = (s.eng e).saved := by
  unfold State.advanceTo
  split
  · rfl
  · exact passHc_saved _ s e

/-- A head waiter that the count does not satisfy keeps its bolt from serving. -/
theorem boltServeAll_of_short {x : BWaiter} {rest : List BWaiter} (hfifo : (s.bolt b).fifo = x :: rest)
    (hcount : (s.bolt b).count.toNat < x.n.toNat) (k : Nat) : State.boltServeAll b k s = s := by
  cases k with
  | zero => rfl
  | succ k =>
    rw [State.boltServeAll, hfifo]
    exact if_neg (by simpa using hcount)

theorem exec_boltWaitTimeout {x : BWaiter} {rest : List BWaiter} {m : Nat} (hon : s.fabricOn = true) (hfifo : (s.bolt b).fifo = x :: rest)
    (hwho : x.who = .glove gl) (hdl : x.deadline = some m) (hcount : (s.bolt b).count.toNat < x.n.toNat) :
    exec (.boltWaitTimeout b (.glove gl)) s = .next (((s.advanceTo m).withdraw b (.glove gl)).endWait b x false) := by
  have hbolt : (s.advanceTo m).bolt b = s.bolt b := bolt_of_ten (advanceTo_ten s m) b
  have hserve (k : Nat) : State.boltServeAll b k (s.advanceTo m) = s.advanceTo m :=
    boltServeAll_of_short (by rw [hbolt, hfifo]) (by rw [hbolt]; exact hcount) k
  change Host.Outcome.next (if s.fabricOn then s.boltTimeout b (.glove gl) else s) = _
  rw [if_pos hon, State.boltTimeout, hfifo, List.find?_cons_of_pos (by simp [hwho])]
  dsimp only
  rw [hdl]
  dsimp only
  rw [hserve, hbolt, hfifo, if_pos (by simp [hwho])]

section
variable {n : BitVec 32} {since : Nat} {dl : Option Nat} {d : BitVec 6} {us : Nat} {x : BWaiter} {rest : List BWaiter}
  (hon : s.fabricOn = true) (hwait : (s.glv gl).wait = .bolt b n dl since d us) (hsaved : (s.eng gl.e).saved[gl.g.val] = false)
  (hfifo : (s.bolt b).fifo = x :: rest) (hwho : x.who = .glove gl)
include hon hwait hsaved hfifo hwho

theorem boltGrant_serves_head (hcount : x.n.toNat ≤ (s.bolt b).count.toNat) : ∃ u, exec (.boltGrant b) s = .next u
    ∧ (u.bolt b).count = (s.bolt b).count - x.n ∧ (u.bolt b).fifo = rest ∧ u.glv gl = waitEnded (s.glv gl) d true ∧ OnlyBolt b s u := by
  obtain ⟨hmem, hten, hglv⟩ := endWait_glove (s := s.modBolt b fun y => { y with count := y.count - x.n, fifo := rest }) hwho hwait hsaved true
  refine ⟨_, exec_boltGrant hon hfifo hcount, ?_, ?_, hglv, (OnlyBolt.modBolt s b _).trans (.of_ten hmem hten)⟩
  · rw [bolt_of_ten hten, modBolt_bolt]
  · rw [bolt_of_ten hten, modBolt_bolt]

theorem boltWaitTimeout_ends_wait {m : Nat} (hdl : x.deadline = some m) (hcount : (s.bolt b).count.toNat < x.n.toNat) :
    ∃ u, exec (.boltWaitTimeout b (.glove gl)) s = .next u ∧ (u.bolt b).count = (s.bolt b).count
      ∧ (∀ y ∈ (u.bolt b).fifo, y.who ≠ .glove gl) ∧ u.glv gl = { waitEnded (s.glv gl) d false with elapsed := (u.glv gl).elapsed }
      ∧ OnlyBolt b s u := by
  obtain ⟨k, hk⟩ := advanceTo_glv s m gl
  have hleft : ((s.advanceTo m).withdraw b (.glove gl)).glv gl = { s.glv gl with elapsed := k } := hk
  have hstays : (((s.advanceTo m).withdraw b (.glove gl)).eng gl.e).saved = (s.eng gl.e).saved := advanceTo_saved s m gl.e
  obtain ⟨hmem, hten, hglv⟩ := endWait_glove (b := b) (x := x) (n := n) (dl := dl) (since := since) (us := us) (d := d) hwho
    (by rw [hleft]; exact hwait) (by simp only [hstays]; exact hsaved) false
  have hadvance : OnlyBolt b s (s.advanceTo m) := .of_ten (advanceTo_mem s m) (advanceTo_ten s m)
  refine ⟨_, exec_boltWaitTimeout hon hfifo hwho hdl hcount, ?_, ?_, ?_, (hadvance.trans (.modBolt _ b _)).trans (.of_ten hmem hten)⟩
  · rw [bolt_of_ten hten, State.withdraw, modBolt_bolt, bolt_of_ten (advanceTo_ten s m)]
  · rw [bolt_of_ten hten, State.withdraw, modBolt_bolt]
    intro y hy
    simpa using (List.mem_filter.1 hy).2
  · rw [hglv, hleft]
    exact waitEnded_elapsed (s.glv gl) k d false

end

/-- Settles O11: a signal adds to its bolt, a grant and a timeout end the wait of the head of the FIFO. -/
theorem boltOperations : Obligations.BoltOperations := by
  unfold Obligations.BoltOperations
  intro s gl b hown add others
  refine ⟨fun w hb hrun ha hn => ?bsig, fun n hon => ?apply, fun n since dl d us x rest hon hwait hsaved hfifo hwho =>
    ⟨fun hcount => ?grant, fun t hdl hcount => ?timeout⟩⟩
  case bsig =>
    subst hb
    obtain ⟨hmem, hengines, hten, -⟩ := fenceClean_frame (s.issue gl) (· == gloveWho gl)
    have hten := hten.trans (issue_ten s gl)
    have hsig := signalled_signalled ((s.issue gl).fenceClean (· == gloveWho gl)) (boltOf (s.glv gl) w) gl (imf w 15 0)
    have hsig := hsig.of_ten (nextPc_mem _ gl) (nextPc_ten _ gl)
    have honly := (OnlyBolt.of_ten (hmem.trans (issue_mem s gl)) hten).trans hsig.toOnlyBolt
    refine ⟨_, exec_bsig hrun ha hn hown, ?_, ?_, ?_, honly.mem, honly.others⟩
    · exact hsig.count.trans (by rw [bolt_of_ten hten]; rfl)
    · exact hsig.fifo.trans (by rw [bolt_of_ten hten])
    · rw [nextPc_glv, signalled_glv, glv_of_engines hengines, issue_glv]
  case apply =>
    have hsig := signalled_signalled s b gl n.toNat
    exact ⟨_, exec_boltSignalApply hon hown, hsig.count, hsig.fifo, hsig.mem, hsig.others⟩
  case grant =>
    obtain ⟨u, hexec, hcnt, hrest, hglv, honly⟩ := boltGrant_serves_head hon hwait hsaved hfifo hwho hcount
    exact ⟨u, hexec, hcnt, hrest, hglv, honly.mem, honly.others⟩
  case timeout =>
    obtain ⟨u, hexec, hcnt, hgone, hglv, honly⟩ := boltWaitTimeout_ends_wait hon hwait hsaved hfifo hwho hdl hcount
    exact ⟨u, hexec, hcnt, hgone, hglv, honly.mem, honly.others⟩

end Sys2Proof.BoltWaits
end

section
/-!
Reserved opcodes (R80, R90, R91, R94): what the first fault of a launch records, and the end of the only glove that runs it.
-/
namespace Sys2Proof.IssueFaults
open Sys2Proof.Machine Sys2Proof.WingMemories Sys2Proof.GloveInstructions Sys2Proof.ContextSwaps Sys2Proof.GloveFences

variable {s t : State} {gl : GloveRef} {op : BitVec 8} {w : JFields} {l : Launch} {n : StrmIx} {i : BitVec 32}

/-! ### GFAULT (R94) -/

/-- A field that fits into its word. -/
theorem at_toNat {v lo k : Nat} (hv : v < 2 ^ k) (hk : k + lo ≤ 64) : (at_ v lo).toNat = v <<< lo := by
  have hfits : v <<< lo < 2 ^ 64 := by
    rw [Nat.shiftLeft_eq]
    calc v * 2 ^ lo < 2 ^ k * 2 ^ lo := Nat.mul_lt_mul_of_pos_right hv (Nat.two_pow_pos lo)
      _ = 2 ^ (k + lo) := (Nat.pow_add 2 k lo).symm
      _ ≤ 2 ^ 64 := Nat.pow_le_pow_right (by decide) hk
  have hword : v < 2 ^ 64 := Nat.lt_of_lt_of_le hv (Nat.pow_le_pow_right (by decide) (by omega))
  rw [at_, BitVec.toNat_shiftLeft, BitVec.toNat_ofNat, Nat.mod_eq_of_lt hword, Nat.mod_eq_of_lt hfits]

/-- The fields of GFAULT for a fault at issue: PC, the rank, the code. -/
theorem gfaultWord_issue (rank : BitVec 8) (pc : BitVec 32) :
    gfaultWord fcIllegal none rank pc = pc ++ ((0 : BitVec 8) ++ (rank ++ (0x0001 : BitVec 16))) := by
  have hcode : (rank ++ (0x0001 : BitVec 16)).toNat = rank.toNat <<< 16 ||| 1 := BitVec.toNat_append ..
  have hzero : ((0 : BitVec 8) ++ (rank ++ (0x0001 : BitVec 16))).toNat = 0 ||| (rank ++ (0x0001 : BitVec 16)).toNat := BitVec.toNat_append ..
  have hpc : (pc ++ ((0 : BitVec 8) ++ (rank ++ (0x0001 : BitVec 16)))).toNat
      = pc.toNat <<< 32 ||| ((0 : BitVec 8) ++ (rank ++ (0x0001 : BitVec 16))).toNat := BitVec.toNat_append ..
  refine BitVec.eq_of_toNat_eq ?_
  have hword : (gfaultWord fcIllegal none rank pc).toNat = 1 ||| 0 ||| rank.toNat <<< 16 ||| pc.toNat <<< 32 := by
    rw [gfaultWord, BitVec.toNat_or, BitVec.toNat_or, BitVec.toNat_or, at_toNat rank.isLt (by decide), at_toNat pc.isLt (by decide)]
    rfl
  rw [hword, hpc, hzero, hcode, Nat.or_zero, Nat.zero_or, Nat.or_comm 1, Nat.or_comm]

/-! ### Launches -/

theorem launchOf_modLaunch {f : Launch → Launch} (hf : ∀ x, (f x).strm = x.strm ∧ (f x).index = x.index) :
    (s.modLaunch n i f).launchOf n i = (s.launchOf n i).map f := by
  have hsame (x : Launch) : ((fun y => y.strm == n && y.index == i) ∘ fun y => if y.strm = n ∧ y.index = i then f y else y) x
      = (x.strm == n && x.index == i) := by
    simp only [Function.comp_apply]
    split
    · rw [(hf x).1, (hf x).2]
    · rfl
  change List.find? _ (List.map _ _) = _
  rw [List.find?_map, funext hsame]
  change Option.map _ (s.launchOf n i) = _
  cases h : s.launchOf n i with
  | none => rfl
  | some x =>
    have hx := List.find?_some h
    simp only [Bool.and_eq_true, beq_iff_eq] at hx
    exact congrArg some (if_pos hx)

/-- A launch whose instances have all ended is over. -/
theorem launchOf_launchCheck (h : s.launchOf n i = some l) (hended : l.insts.all (·.2.2) = true) : (s.launchCheck n i).launchOf n i = none := by
  unfold State.launchCheck
  rw [h]
  dsimp only
  rw [if_pos hended]
  refine List.find?_eq_none.2 fun x hx => ?_
  rw [Bool.not_eq_true]
  exact Bool.not_eq_true' _ ▸ (List.mem_filter.1 hx).2

/-! ### A fault at issue of a glove with nothing in flight (R90, R91) -/

/-- A launch that has recorded its first fault, on a glove. -/
def withFault (gl : GloveRef) (x : Word) (l : Launch) : Launch := { l with fault := some x, faultOn := some gl }

/-- A launch that has ended on a glove. -/
def endedOn (gl : GloveRef) (l : Launch) : Launch := { l with insts := l.insts.map fun x => if x.1 = gl then (x.1, x.2.1, true) else x }

theorem recordFault_first (f : FaultInfo) (hkind : (s.glv gl).kind = .launch)
    (hl : s.launchOf (s.glv gl).strm (s.glv gl).cmdIx = some l) (hfirst : l.fault = none) : s.recordFault gl f
      = (s.modLaunch (s.glv gl).strm (s.glv gl).cmdIx (withFault gl (gfaultWord f.code f.row (s.glv gl).rank f.pc))).modGlv gl fun g =>
          { g with gfault := gfaultWord f.code f.row (s.glv gl).rank f.pc } := by
  unfold State.recordFault
  simp only [hkind, hl, hfirst]
  rfl

theorem flushMore_of_empty (h : (s.glv gl).inflight = []) (k : Nat) : s.flushMore gl k = s := by
  have howner : (s.glv gl).scatOwner = none := by rw [Glove.scatOwner, h]; rfl
  rw [State.flushMore, State.flushCombiner, howner]
  rfl

theorem leaveBolt_of_no_wait (h : (s.glv gl).wait = .none) : s.leaveBolt gl = s := by rw [State.leaveBolt, h]

theorem dropFrom_of_empty (h : (s.glv gl).inflight = []) (k : Nat) : s.dropFrom gl k = s.leaveUnits gl := by
  unfold State.dropFrom
  rw [h, List.drop_nil]
  exact modGlv_of_fixed _ (by rw [List.foldl_nil, leaveUnits_glv, h, List.take_nil, ← h])

theorem stopFrom_of_empty (h : (s.glv gl).inflight = []) (k : Nat) : s.stopFrom gl k = s.leaveUnits gl := by
  unfold State.stopFrom
  rw [dropFrom_of_empty h, h, List.drop_nil]
  exact modGlv_of_fixed _ (by rw [leaveUnits_glv, List.filter_nil, List.map_nil, List.append_nil])

/-- The state in which a launch with nothing in flight on a glove is about to end there for its first fault. -/
def faulted (s : State) (gl : GloveRef) (f : FaultInfo) : State :=
  ((s.recordFault gl f).leaveUnits gl).modGlv gl fun g => { g with dying := some f.pc, wait := .none, state := 1, swapping := false }

/-- With no other glove that runs the launch there is nothing else to abort. -/
theorem abortOthers_of_last (h : s.launchOf n i = some l) (hlast : ∀ x ∈ l.insts, x.1 = gl ∨ x.2.2 = true) : s.abortOthers n i gl = s := by
  have hnone : (s.liveInsts n i).filter (· != gl) = [] := by
    rw [State.liveInsts, h, List.filter_eq_nil_iff]
    intro x hx
    obtain ⟨y, hy, rfl⟩ := List.mem_map.1 hx
    obtain ⟨hy, hlive⟩ := List.mem_filter.1 hy
    rcases hlast y hy with hgl | hended
    · simp [hgl]
    · simp [hended] at hlive
  rw [State.abortOthers, hnone, List.foldl_nil]

/-- A launch that a fault has stopped on a glove ends there once nothing of it is in flight. -/
theorem dieCheck_launch {pc : BitVec 32} (hdying : (s.glv gl).dying = some pc) (hempty : (s.glv gl).inflight = [])
    (hkind : (s.glv gl).kind = .launch) : s.dieCheck gl
      = (((s.traceEnd gl stFault).markEnded gl).releaseGlove gl).launchCheck (s.glv gl).strm (s.glv gl).cmdIx := by
  unfold State.dieCheck
  simp only [hdying, hempty, hkind, List.isEmpty_nil, Bool.not_true, Bool.false_eq_true, if_false]

section
variable (f : FaultInfo) (hkind : (s.glv gl).kind = .launch) (hl : s.launchOf (s.glv gl).strm (s.glv gl).cmdIx = some l)
  (hfirst : l.fault = none)
include hkind hl hfirst

theorem recordFault_glv : (s.recordFault gl f).glv gl = { s.glv gl with gfault := gfaultWord f.code f.row (s.glv gl).rank f.pc } := by
  rw [recordFault_first f hkind hl hfirst, modGlv_glv]
  rfl

theorem faulted_glv : (faulted s gl f).glv gl = { s.glv gl with
    gfault := gfaultWord f.code f.row (s.glv gl).rank f.pc, dying := some f.pc, wait := .none, state := 1, swapping := false } := by
  rw [faulted, modGlv_glv, leaveUnits_glv, recordFault_glv f hkind hl hfirst]

theorem faulted_launchOf : (faulted s gl f).launchOf (s.glv gl).strm (s.glv gl).cmdIx
    = some (withFault gl (gfaultWord f.code f.row (s.glv gl).rank f.pc) l) := by
  have hten : (faulted s gl f).ten = (s.recordFault gl f).ten := rfl
  rw [State.launchOf, hten, recordFault_first f hkind hl hfirst, modGlv_ten, ← State.launchOf,
    launchOf_modLaunch (f := withFault gl _) fun _ => ⟨rfl, rfl⟩, hl]
  rfl

theorem faulted_mem : (faulted s gl f).mem = s.mem := by
  change (s.recordFault gl f).mem = _
  rw [recordFault_first f hkind hl hfirst, modGlv_mem, modLaunch_mem]

/-- The fault stops nothing else: no other glove runs the launch and nothing is in flight. -/
theorem gloveFault_last (hready : s.gloveReady gl = true) (hempty : (s.glv gl).inflight = [])
    (hlast : ∀ x ∈ l.insts, x.1 = gl ∨ x.2.2 = true) : s.gloveFault gl 0 f
      = ((((faulted s gl f).traceEnd gl stFault).markEnded gl).releaseGlove gl).launchCheck (s.glv gl).strm (s.glv gl).cmdIx := by
  obtain ⟨hwait, hdying⟩ := gloveReady_quiet hready
  have hrec := recordFault_glv f hkind hl hfirst
  have hstopped : (((s.recordFault gl f).flushMore gl 0).leaveBolt gl).stopFrom gl 0 = (s.recordFault gl f).leaveUnits gl := by
    rw [flushMore_of_empty (by rw [hrec]; exact hempty), leaveBolt_of_no_wait (by rw [hrec]; exact hwait),
      stopFrom_of_empty (by rw [hrec]; exact hempty)]
  have hend := faulted_glv f hkind hl hfirst
  have hthrough : ((faulted s gl f).glv gl).strm = (s.glv gl).strm ∧ ((faulted s gl f).glv gl).cmdIx = (s.glv gl).cmdIx := by
    rw [hend]; exact ⟨rfl, rfl⟩
  unfold State.gloveFault
  extract_lets g s1 s2
  have hs2 : s2 = faulted s gl f := by
    unfold s2 s1
    rw [hstopped]
    exact modGlv_congr _ gl _ _ (by rw [if_neg (by rw [hkind]; decide)])
  rw [if_neg (by rw [hkind]; decide), if_neg (by rw [hdying]; decide), if_neg (by rw [hkind]; decide), hs2,
    abortOthers_of_last (faulted_launchOf f hkind hl hfirst) hlast,
    dieCheck_launch (by rw [hend]) (by rw [hend]; exact hempty) (by rw [hend]; exact hkind), hthrough.1, hthrough.2]

end

theorem exec_reservedOpcode (h : s.mayIssue gl op w = true) (hempty : (s.glv gl).inflight = []) :
    exec (.reservedOpcode gl op w) s = .next (s.gloveFault gl 0 ⟨fcIllegal, none, (s.glv gl).pc⟩) := by
  change Host.Outcome.next (s.scalar gl op w false .ok) = _
  simp only [State.scalar, h, State.issueFault, hempty, List.length_nil, Bool.not_true, Bool.not_false, Bool.false_eq_true, if_false, if_true]

/-- The end of a run with nothing in flight leaves its glove empty. -/
theorem releaseGlove_of_empty (hempty : (s.glv gl).inflight = []) (hwait : (s.glv gl).wait = .none) :
    s.releaseGlove gl = (s.leaveUnits gl).modGlv gl fun g => g.clearRegs.empty := by
  rw [State.releaseGlove, leaveBolt_of_no_wait hwait, dropFrom_of_empty hempty]

/-- The end of a launch on its last glove: the glove is empty, the launch is over. -/
theorem lastInstance_ends (hn : (s.glv gl).strm = n) (hi : (s.glv gl).cmdIx = i) (hl : s.launchOf n i = some l)
    (hlast : ∀ x ∈ l.insts, x.1 = gl ∨ x.2.2 = true) (hempty : (s.glv gl).inflight = []) (hwait : (s.glv gl).wait = .none) (st : Byte) :
    let u := (((s.traceEnd gl st).markEnded gl).releaseGlove gl).launchCheck n i
    u.glv gl = (s.glv gl).clearRegs.empty ∧ u.launchOf n i = none ∧ u.mem = s.mem := by
  have htrace : (s.traceEnd gl st).glv gl = s.glv gl := trace_glv ..
  have hmark : (s.traceEnd gl st).markEnded gl = (s.traceEnd gl st).modLaunch n i (endedOn gl) := by
    rw [State.markEnded, htrace, hn, hi]
    rfl
  have hglv : ((s.traceEnd gl st).modLaunch n i (endedOn gl)).glv gl = s.glv gl := htrace
  have hrel := releaseGlove_of_empty (s := (s.traceEnd gl st).modLaunch n i (endedOn gl)) (gl := gl) (by rw [hglv]; exact hempty)
    (by rw [hglv]; exact hwait)
  have hlaunch : (((s.traceEnd gl st).modLaunch n i (endedOn gl)).releaseGlove gl).launchOf n i = some (endedOn gl l) := by
    have hten : (((s.traceEnd gl st).modLaunch n i (endedOn gl)).releaseGlove gl).ten
        = ((s.traceEnd gl st).modLaunch n i (endedOn gl)).ten := by rw [hrel]; rfl
    rw [State.launchOf, hten, ← State.launchOf, launchOf_modLaunch (f := endedOn gl) fun _ => ⟨rfl, rfl⟩, State.launchOf, traceEnd_ten,
      ← State.launchOf, hl]
    rfl
  have hended : (endedOn gl l).insts.all (·.2.2) = true := by
    simp only [endedOn, List.all_map, List.all_eq_true, Function.comp_apply]
    intro x hx
    split
    · rfl
    · rename_i hne
      exact (hlast x hx).resolve_left hne
  intro u
  refine ⟨?_, ?_, ?_⟩ <;> unfold u <;> rw [hmark]
  · rw [glv_of_engines (launchCheck_engines _ _ _), hrel, modGlv_glv, leaveUnits_glv, hglv]
  · exact launchOf_launchCheck hlaunch hended
  · rw [launchCheck_mem, hrel, modGlv_mem, State.leaveUnits, modEng_mem, modLaunch_mem, traceEnd_mem]

/-- Settles O18: the fault is recorded, and the launch ends on the only glove that runs it. -/
theorem reservedOpcodeRaisesIllegalOp : Obligations.ReservedOpcodeRaisesIllegalOp := by
  unfold Obligations.ReservedOpcodeRaisesIllegalOp
  intro s gl op w l hissue hkind hempty hl hfirst hlast
  have hglv := faulted_glv ⟨fcIllegal, none, (s.glv gl).pc⟩ hkind hl hfirst
  obtain ⟨hend, hover, hmem⟩ := lastInstance_ends (by rw [hglv]) (by rw [hglv])
    (faulted_launchOf ⟨fcIllegal, none, (s.glv gl).pc⟩ hkind hl hfirst) hlast (by rw [hglv]; exact hempty) (by rw [hglv]) stFault
  refine ⟨_, exec_reservedOpcode hissue hempty, ?_⟩
  rw [gloveFault_last _ hkind hl hfirst (gloveReady_of_mayIssue hissue) hempty hlast, hend, hglv, ← gfaultWord_issue]
  exact ⟨rfl, rfl, rfl, hover, hmem.trans (faulted_mem _ hkind hl hfirst)⟩

end Sys2Proof.IssueFaults
end

section
/-!
Commands of a stream that run on a glove (R73-R76, R136, R197, R198): how a glove is loaded, and what a command leaves that starts
on one glove.
-/
namespace Sys2Proof.GloveCommands
open Sys2Proof.Machine Sys2Proof.WingMemories Sys2Proof.GloveInstructions Sys2Proof.ContextSwaps

variable {s t u : State} {gl : GloveRef} {n : StrmIx} {c : Cmd} {l : LeaseIx} {kind : RunKind} {prog : Nat} {h : ProgHead}

/-! ### Commands of a stream -/

theorem begun_cmd {k : Nat} : s.begun n c k → (s.stream n).cmd? c.index = some c := fun ⟨_, hcmd, _⟩ => hcmd

/-- A command that has started and is of the kind runs. -/
theorem withCmd_of_begun {k : Nat} (hb : s.begun n c k) (p : Nat → Bool) (hp : p k = true) (f : Cmd → State) :
    s.withCmd n c.index p f = f c := by
  obtain ⟨hon, hcmd, hphase, hkind⟩ := hb
  unfold State.withCmd
  rw [hcmd]
  exact if_pos (by simp [hon, hphase, hkind, hp])

/-- An update of a command that keeps its index is an update of the command found under it. -/
theorem cmd?_modCmd {i : BitVec 32} {f : Cmd → Cmd} (hf : ∀ x, (f x).index = x.index) :
    ((s.modCmd n i f).stream n).cmd? i = ((s.stream n).cmd? i).map f := by
  have hsame (x : Cmd) : ((fun y => y.index == i) ∘ fun y => if y.index = i then f y else y) x = (x.index == i) := by
    simp only [Function.comp_apply]
    split
    · rw [hf x]
    · rfl
  rw [State.modCmd, modStream_stream]
  change List.find? _ (List.map _ _) = _
  rw [List.find?_map, funext hsame]
  change Option.map _ ((s.stream n).cmd? i) = _
  cases hx : (s.stream n).cmd? i with
  | none => rfl
  | some x => exact congrArg some (if_pos (by simpa using List.find?_some hx))

/-! ### A glove is loaded (R75, R76) -/

theorem setS_sreg_ite (g : Glove) (k m : Fin 32) (v : Word) (hk : k ≠ 0) : (g.setS k v).sreg m = if m = k then v else g.sreg m := by
  split
  · rename_i hm; subst hm; rw [setS_sreg, if_neg hk]
  · rename_i hm; exact setS_sreg_ne g k m v hm

theorem sreg_congr {g g' : Glove} (h : g.s = g'.s) (k : Fin 32) : g.sreg k = g'.sreg k := by
  unfold Glove.sreg
  rw [h]

theorem clearRegs_sreg (g : Glove) (m : Fin 32) : g.clearRegs.sreg m = 0 := by
  unfold Glove.sreg
  split
  · rfl
  · exact Vector.getElem_replicate _

/-- The registers at the start of a launch (R76): arguments in S1-S4, a word in S5, zero elsewhere. -/
theorem argRegs_sreg (g : Glove) (arg : Nat → Word) (x : Word) (k : Fin 32) :
    (((((g.clearRegs.setS 1 (arg 0)).setS 2 (arg 1)).setS 3 (arg 2)).setS 4 (arg 3)).setS 5 x).sreg k
      = if 1 ≤ k.val ∧ k.val ≤ 4 then arg (k.val - 1) else if k = 5 then x else 0 := by
  rw [setS_sreg_ite _ 5 _ _ (by decide), setS_sreg_ite _ 4 _ _ (by decide), setS_sreg_ite _ 3 _ _ (by decide),
    setS_sreg_ite _ 2 _ _ (by decide), setS_sreg_ite _ 1 _ _ (by decide), clearRegs_sreg]
  by_cases hargs : 1 ≤ k.val ∧ k.val ≤ 4
  · obtain rfl | rfl | rfl | rfl : k = 1 ∨ k = 2 ∨ k = 3 ∨ k = 4 := by omega
    all_goals rfl
  · have hother : k ≠ 4 ∧ k ≠ 3 ∧ k ≠ 2 ∧ k ≠ 1 := by omega
    obtain ⟨h4, h3, h2, h1⟩ := hother
    rw [if_neg h4, if_neg h3, if_neg h2, if_neg h1, if_neg hargs]

theorem traceBegin_glv (s : State) (gl x : GloveRef) : (s.traceBegin gl).glv x = s.glv x := trace_glv s _ _ _ _ _ _ _ x

theorem traceBegin_quiet (s : State) (gl : GloveRef) : Quiet s (s.traceBegin gl) := trace_quiet s _ _ _ _ _ _ _

/-- What a glove holds that is loaded for a command. -/
theorem loadGlove_glv (s : State) (gl : GloveRef) (n : StrmIx) (c : Cmd) (l : LeaseIx) (kind : RunKind) (rank inst prog : Nat)
    (h : ProgHead) :
    let g := (s.loadGlove gl n c l kind rank inst prog h).glv gl
    g.kind = kind ∧ g.state = 1 ∧ g.pc = BitVec.ofNat 32 h.entry ∧ g.rank = BitVec.ofNat 8 rank ∧ g.inflight = [] := by
  dsimp only
  unfold State.loadGlove
  extract_lets lw arg s1
  rw [traceBegin_glv, modGlv_glv]
  exact ⟨rfl, rfl, rfl, rfl, rfl⟩

/-- The S registers at the start of a launch (R76): the arguments, the launch word, zero elsewhere. -/
theorem loadGlove_sreg (s : State) (gl : GloveRef) (n : StrmIx) (c : Cmd) (l : LeaseIx) (rank inst prog : Nat) (h : ProgHead) (k : Fin 32) :
    ((s.loadGlove gl n c l .launch rank inst prog h).glv gl).sreg k
      = if 1 ≤ k.val ∧ k.val ≤ 4 then BitVec.ofNat 64 (recFld c.record (0x10 + 8 * k.val) 8)
        else if k = 5 then launchWordOf rank inst gl else 0 := by
  unfold State.loadGlove
  extract_lets lw arg s1
  rw [traceBegin_glv, modGlv_glv]
  generalize hg : (((((s.glv gl).clearRegs.setS 1 (arg 0)).setS 2 (arg 1)).setS 3 (arg 2)).setS 4 (arg 3)).setS 5
    (if RunKind.launch = .launch then lw else 0) = g
  have hsreg : g.sreg k = _ := hg ▸ argRegs_sreg (s.glv gl) arg _ k
  refine (sreg_congr (g' := g) (by rfl) k).trans (hsreg.trans ?_)
  rw [if_pos rfl]
  split
  · rename_i hk
    have hplace : 0x18 + 8 * (k.val - 1) = 0x10 + 8 * k.val := by omega
    simp only [arg, ↓reduceIte, hplace]
  · rfl

theorem loadGlove_quiet (s : State) (gl : GloveRef) (n : StrmIx) (c : Cmd) (l : LeaseIx) (kind : RunKind) (rank inst prog : Nat)
    (h : ProgHead) : Quiet s (s.loadGlove gl n c l kind rank inst prog h) :=
  (modGlv_quiet s gl _).trans (traceBegin_quiet _ gl)

theorem loadGlove_ten (s : State) (gl : GloveRef) (n : StrmIx) (c : Cmd) (l : LeaseIx) (kind : RunKind) (rank inst prog : Nat)
    (h : ProgHead) : (s.loadGlove gl n c l kind rank inst prog h).ten = s.ten :=
  (traceBegin_ten _ gl).trans (modGlv_ten s gl _)

/-! ### The tables of the scheduler -/

theorem modTen_quiet (s : State) (f : Tenancy → Tenancy) : Quiet s (s.modTen f) := quiet_of_eq rfl rfl rfl rfl

theorem modCmd_quiet (s : State) (n : StrmIx) (i : BitVec 32) (f : Cmd → Cmd) : Quiet s (s.modCmd n i f) := quiet_of_eq rfl rfl rfl rfl

theorem modLease_quiet (s : State) (l : LeaseIx) (f : Lease → Lease) : Quiet s (s.modLease l f) := modTen_quiet s _

theorem modLease_streams (s : State) (l : LeaseIx) (f : Lease → Lease) : (s.modLease l f).ten.streams = s.ten.streams := rfl

theorem modTen_stream {s : State} {f : Tenancy → Tenancy} (h : (f s.ten).streams = s.ten.streams) (n : StrmIx) :
    (s.modTen f).stream n = s.stream n := congrArg (·[n.val]) h

theorem traceSwap_quiet (s : State) (gl : GloveRef) (into : Bool) (rows : Nat) : Quiet s (s.traceSwap gl into rows) :=
  trace_quiet s _ _ _ _ _ _ _

theorem traceSwap_ten (s : State) (gl : GloveRef) (into : Bool) (rows : Nat) : (s.traceSwap gl into rows).ten = s.ten :=
  trace_ten s _ _ _ _ _ _ _

/-- A command whose work has begun. -/
def running (c : Cmd) : Cmd := { c with phase := .running }

/-- The state after a glove is loaded for a command: its launch is listed, and it runs. -/
def loadedFor (b : State) (gl : GloveRef) (n : StrmIx) (c : Cmd) (l : LeaseIx) (kind : RunKind) (prog : Nat) (h : ProgHead) (r : Launch) :
    State :=
  ((b.loadGlove gl n c l kind 0 1 prog h).modTen fun x => { x with launches := x.launches ++ [r] }).modCmd n c.index running

/-- A command that starts on one glove: a context that was saved is there again, then the glove is loaded. -/
theorem startLaunch_one (s : State) (gl : GloveRef) (n : StrmIx) (c : Cmd) (l : LeaseIx) (kind : RunKind) (prog : Nat) (h : ProgHead) :
    ∃ (b : State) (r : Launch), Quiet s b ∧ b.ten.streams = s.ten.streams
      ∧ s.startLaunch n c l kind [gl] prog h = loadedFor b gl n c l kind prog h r := by
  unfold State.startLaunch
  extract_lets ranked s0 s1 r
  refine ⟨s0, r, ?_, ?_, rfl⟩ <;> unfold s0 <;> dsimp only <;> split
  · exact (((modGlv_quiet s gl _).trans (addWork_quiet _ gl.e 4 _)).trans (traceSwap_quiet _ gl true _)).trans (modLease_quiet _ l _)
  · exact .refl s
  · rw [modLease_streams, traceSwap_ten]
    rfl
  · rfl

/-- The command runs, and its glove is as it was loaded. -/
theorem startLaunch_runs (hcmd : (s.stream n).cmd? c.index = some c) : ∃ b : State,
    (s.startLaunch n c l kind [gl] prog h).runs n c ∧ Quiet s (s.startLaunch n c l kind [gl] prog h)
      ∧ (s.startLaunch n c l kind [gl] prog h).glv gl = (b.loadGlove gl n c l kind 0 1 prog h).glv gl := by
  obtain ⟨b, r, hquiet, hstreams, heq⟩ := startLaunch_one s gl n c l kind prog h
  rw [heq, loadedFor]
  refine ⟨b, ?_, ?_, ?_⟩
  · rw [State.runs, cmd?_modCmd (f := running) fun _ => rfl, modTen_stream rfl, State.stream, loadGlove_ten, hstreams]
    exact congrArg (Option.map running) hcmd
  · exact ((hquiet.trans (loadGlove_quiet _ _ _ _ _ _ _ _ _ _)).trans (modTen_quiet _ _)).trans (modCmd_quiet _ _ _ _)
  · exact glv_of_engines (modCmd_engines _ _ _ _) gl

end Sys2Proof.GloveCommands
end

section
/-!
How LAUNCH, COPY and RELAYOUT start (R74-R76, R136, R198): what reads leave of the ways to memory, the header of a program and the descriptors
of a RELAYOUT, and the record that a COPY or RELAYOUT puts on its glove.
-/
namespace Sys2Proof.GloveCommands
open Sys2Proof.Machine Sys2Proof.WingMemories Sys2Proof.GloveInstructions Sys2Proof.ContextSwaps

variable {s t u : State} {gl : GloveRef} {n : StrmIx} {c : Cmd} {l : LeaseIx} {kind : RunKind} {prog : Nat} {h : ProgHead}

/-! ### What an accepted access leaves of the ways to memory (R7, R16, R40, R41) -/

/-- What of a wing decides whether an access passes and reaches it or its stack. -/
def gates (w : Wing) := (w.pwrState, w.hbmReady, w.links, w.pinLo, w.pinHi)

/-- The tables of the scheduler, and what decides whether the wings carry an access. -/
def ways (s : State) := (s.ten, fun w => gates (s.wing w))

theorem ways_of_eq (hten : t.ten = s.ten) (hwings : t.wings = s.wings) : ways t = ways s := by
  simp only [ways, State.wing, hten, hwings]

theorem modWing_ways (s : State) (w : WingIx) (f : Wing → Wing) (hf : gates (f (s.wing w)) = gates (s.wing w)) :
    ways (s.modWing w f) = ways s := by
  refine Prod.ext rfl (funext fun x => ?_)
  by_cases hx : x = w
  · subst hx
    exact (congrArg gates (modWing_wing s x f)).trans hf
  · exact congrArg gates (modWing_wing_ne s w x f hx)

theorem wingCnt_ways (s : State) (w : WingIx) (i : Fin 12) (k : Nat) : ways (s.wingCnt w i k) = ways s := by
  unfold State.wingCnt
  split
  · rfl
  · exact modWing_ways s w _ rfl

theorem lineUse_ways (s : State) (key : Nat) (alloc : Bool) (who : Option Nat) : ways (s.lineUse key alloc who) = ways s := by
  unfold State.lineUse
  split
  · exact (wingCnt_ways _ _ _ _).trans (modWing_ways s _ _ rfl)
  · split
    · exact wingCnt_ways s _ _ _
    · rfl

theorem watchAccess_ways (s : State) (w : WingIx) (src : AccSrc) (key k kind : Nat) : ways (s.watchAccess w src key k kind) = ways s := by
  unfold State.watchAccess
  extract_lets wg hits s1 s2 ps s3 s4
  have h3 : ways s3 = ways s := (wingCnt_ways s1 w 10 1).trans (modWing_ways s w _ rfl)
  have h4 : ways s4 = ways s := by
    unfold s4
    split
    · exact (ways_of_eq (mgrVector_ten s3) (mgrVector_wings s3)).trans h3
    · exact h3
  split
  · rfl
  · split
    · rfl
    · split
      · exact (ways_of_eq (trace_ten ..) (trace_wings ..)).trans h4
      · exact h4

theorem accTouch_ways (s : State) (src : AccSrc) (keys : List Nat) (kind : Nat) : ways (s.accTouch src keys kind) = ways s := by
  unfold State.accTouch
  refine (foldl_keeps ways (fun t x => ?_) _ _).trans (foldl_keeps ways (fun t _ => lineUse_ways t _ _ _) _ s)
  split
  · exact watchAccess_ways t _ _ _ _ _
  · rfl

theorem ready_of_ways (hhall : t.hall = s.hall) (hways : ways t = ways s) (w : Option WingIx) (a : Nat) : t.ready w a = s.ready w a := by
  have hgates (x : WingIx) : gates (t.wing x) = gates (s.wing x) := congrFun (congrArg Prod.snd hways) x
  have hpwr (x : WingIx) : (t.wing x).pwrState = (s.wing x).pwrState := congrArg Prod.fst (hgates x)
  have hstack (x : WingIx) : (t.wing x).hbmReady = (s.wing x).hbmReady := congrArg (·.2.1) (hgates x)
  have hlinks (x : WingIx) : (t.wing x).links = (s.wing x).links := congrArg (·.2.2.1) (hgates x)
  simp only [State.ready, State.remapHolds, State.linkOk, hhall, hpwr, hstack, hlinks] <;> rfl

theorem pinHolderAt_of_ways (hhall : t.hall = s.hall) (hways : ways t = ways s) (a : Nat) : t.pinHolderAt a = s.pinHolderAt a := by
  have hten : t.ten = s.ten := congrArg Prod.fst hways
  have hgates (x : WingIx) : gates (t.wing x) = gates (s.wing x) := congrFun (congrArg Prod.snd hways) x
  have hlow (x : WingIx) : (t.wing x).pinLo = (s.wing x).pinLo := congrArg (·.2.2.2.1) (hgates x)
  have hhigh (x : WingIx) : (t.wing x).pinHi = (s.wing x).pinHi := congrArg (·.2.2.2.2) (hgates x)
  simp only [State.pinHolderAt, State.pinHolder, hten, hhall, hlow, hhigh]

/-- The way of a glove's access to memory depends on the address map, the scheduler's tables, the wings, the engine's tick run, and the
kind and tenant of the glove. -/
theorem glovePath_of_ways {a k : Nat} {p : Perm} (hunits : SameUnits s t) (hways : ways t = ways s)
    (hkind : (t.glv gl).kind = (s.glv gl).kind) (htenant : (t.glv gl).tenant = (s.glv gl).tenant)
    (hmem : s.glovePath gl a k p = .ok .mem) : t.glovePath gl a k p = .ok .mem := by
  have hten : t.ten = s.ten := congrArg Prod.fst hways
  have hcheck : t.gloveCheck gl a k p = s.gloveCheck gl a k p := by
    have htenants : t.tenant = s.tenant := funext fun x => by rw [State.tenant, hten, State.tenant]
    have hhost : t.hostRoom = s.hostRoom := by funext x a k p; simp only [State.hostRoom, htenants]
    have hroom : t.roomOk = s.roomOk := by
      funext x a k p
      simp only [State.roomOk, State.roomByte, State.ownRoom, State.guestRoom, htenants, pinHolderAt_of_ways hunits.hall hways]
    have hreach : t.tickReach = s.tickReach := by
      funext e a
      simp only [State.tickReach, State.inLeasePages, State.lease, hten, hunits.hall, hunits.tick] <;> rfl
    have hdrain : t.remapHolds = s.remapHolds := funext fun x => by rw [State.remapHolds, hunits.hall, State.remapHolds]
    have hdecode : t.decodeRes = s.decodeRes := by
      funext x p
      unfold State.decodeRes
      rw [hunits.hall]
    simp only [State.gloveCheck, hkind, htenant, htenants, hhost, hroom, hreach, hdrain, hdecode]
  unfold State.glovePath at hmem ⊢
  rw [hcheck]
  cases hpath : s.gloveCheck gl a k p with
  | fault code => rw [hpath] at hmem; cases hmem
  | stall w => rw [hpath] at hmem; cases hmem
  | ok path =>
    rw [hpath] at hmem
    cases path with
    | host q =>
      simp only [Res.bind] at hmem
      split at hmem <;> cases hmem
    | mem =>
      have hready : t.readyRes (wingOf gl.e) = s.readyRes (wingOf gl.e) := funext fun x => by
        simp only [State.readyRes, ready_of_ways hunits.hall hways, hunits.hall]
      rw [Res.bind] at hmem ⊢
      unfold State.pathReady at hmem ⊢
      dsimp only at hmem ⊢
      rwa [hready]

/-! ### Reads through a glove and of the scheduler -/

/-- The state after a read of a glove from memory. -/
def readOn (s : State) (gl : GloveRef) (a k : Nat) : State := (s.accTouch (s.gloveSrc gl a) (s.keysOf a k) 0).noteReqs gl a k false

theorem gloveRead_mem {a k : Nat} {p : Perm} (hpath : s.glovePath gl a k p = .ok .mem) (hheld : s.hall.held = []) :
    s.gloveRead gl a k p = .ok (s.physBytes a k, s.poisoned a k, readOn s gl a k) := by
  rw [State.gloveRead, hpath, Res.bind]
  simp only [heldLine_nil s hheld]
  rfl

theorem readOn_quiet (s : State) (gl : GloveRef) (a k : Nat) : Quiet s (readOn s gl a k) :=
  (accTouch_quiet s _ _ _).trans (modGlv_quiet _ gl _)

theorem readOn_ways (s : State) (gl : GloveRef) (a k : Nat) : ways (readOn s gl a k) = ways s :=
  (ways_of_eq (modGlv_ten _ gl _) (modGlv_wings _ gl _)).trans (accTouch_ways s _ _ _)

/-- A read leaves the glove but for the transactions noted. -/
theorem readOn_glv (s : State) (gl : GloveRef) (a k : Nat) :
    (readOn s gl a k).glv gl = { s.glv gl with reqs := (s.glv gl).reqs ++ reqsOf a k false } := by
  rw [readOn, State.noteReqs, modGlv_glv, accTouch_glv]

/-- The read of a program's header leaves memory and the tables of the scheduler. -/
theorem readHead_kept {st : Stream} {a : Nat} (hread : s.readHead st a = .ok (h, t)) : Quiet s t ∧ t.ten = s.ten := by
  unfold State.readHead at hread
  split at hread
  · cases hread
  · cases hmap : s.decodeRes a .x with
    | fault code => rw [hmap] at hread; cases hread
    | stall w => rw [hmap] at hread; cases hread
    | ok _ =>
      rw [hmap, Res.bind] at hread
      split at hread
      · cases hread
      · cases hread
      · split at hread
        · cases hread
        · dsimp only at hread
          split at hread
          · cases hread
          · cases hread
            exact ⟨accTouch_quiet s _ _ _, congrArg Prod.fst (accTouch_ways s _ _ _)⟩

/-! ### A lease whose context is resident (R63-R68) -/

/-- The lease of a command is a glove lease whose context is on a glove, idle, on a running engine. -/
structure AtHome (s : State) (n : StrmIx) (c : Cmd) (gl : GloveRef) (l : LeaseIx) : Prop where
  lease : s.cmdLease n c = some l
  kind : (s.lease l).kind = 0
  engine : (s.lease l).engine = gl.e
  resident : (s.lease l).resident = some gl.g
  idle : s.gloveIdle gl = true
  runs : s.engRuns gl.e = true

theorem homeOf_iff : s.homeOf n c gl ↔ ∃ l, AtHome s n c gl l := by
  refine exists_congr fun l => ⟨?_, ?_⟩
  all_goals exact fun ⟨hlease, hkind, heng, hres, hidle, hruns⟩ => ⟨hlease, hkind, heng, hres, hidle, hruns⟩

theorem AtHome.notTick (home : AtHome s n c gl l) : (s.lease l).kind ≠ 2 := by rw [home.kind]; decide

theorem AtHome.launchGloves (home : AtHome s n c gl l) (engines gloves : Nat) : s.launchGloves l engines gloves = [gl] := by
  unfold State.launchGloves
  dsimp only
  rw [if_pos home.kind, home.resident, home.engine]

theorem AtHome.oneGlove (home : AtHome s n c gl l) : s.oneGlove l = [gl] := by rw [State.oneGlove, if_pos home.kind, home.launchGloves]

theorem AtHome.whenIdle (home : AtHome s n c gl l) (f : State → State) : s.whenIdle [gl] f = f s := by
  simp [State.whenIdle, home.idle, home.runs]

theorem bitAt_shiftLeft_self : ∀ e : EngIx, bitAt ((1 : BitVec 16) <<< e.val) e.val = true := by decide

/-- A lease of an engine holds one at least. -/
theorem engineCount_pos {x : Lease} {e : EngIx} (h : x.emask = 1 <<< e.val) : 1 ≤ x.engineCount :=
  List.length_pos_of_mem (List.mem_filter.2 ⟨List.mem_finRange e, h ▸ bitAt_shiftLeft_self e⟩)

/-! ### LAUNCH, COPY and RELAYOUT start -/

/-- LAUNCH reads the header, and its glove is loaded. -/
theorem exec_launch (home : AtHome s n c gl l) (hbegun : s.begun n c 1) (hmask : (s.lease l).emask = 1 <<< gl.e.val)
    (hplace : s.progPlace (s.stream n).tenant (recFld c.record 8 8) = true)
    (hread : s.readHead (s.stream n) (recFld c.record 8 8) = .ok (h, t)) (hok : h.ok = true) (hengines : h.engines = 1)
    (hgloves : h.gloves = 1) :
    exec (.launch n c.index) s = .next (t.startLaunch n c l .launch [gl] (recFld c.record 8 8) h) := by
  have hfits : ¬((s.lease l).kind = 2 ∨ (s.lease l).engineCount < 1 ∨ 1 < 1 ∧ (s.lease l).kind ≠ 1) := by
    have hcount := engineCount_pos hmask
    rintro (htick | hshort | ⟨hmany, -⟩)
    · exact home.notTick htick
    · omega
    · omega
  change Host.Outcome.next (s.withCmd n c.index (· == 1) fun c => s.launchCmd n c) = _
  rw [withCmd_of_begun hbegun _ rfl]
  unfold State.launchCmd
  simp only [home.lease, hplace, hread, hok, hengines, hgloves, if_neg hfits, home.launchGloves]
  simp [home.idle, home.runs]

/-- The state in which a COPY or RELAYOUT has put its record on its glove. -/
def recordOn (s : State) (gl : GloveRef) (r : Rec) : State := s.modGlv gl fun g => { g with inflight := [r] }

theorem recordOn_quiet (s : State) (gl : GloveRef) (r : Rec) : Quiet s (recordOn s gl r) := modGlv_quiet s gl _

theorem recordOn_kept (s : State) (gl : GloveRef) (r : Rec) : (recordOn s gl r).mem = s.mem ∧ (recordOn s gl r).ten = s.ten
    ∧ ((recordOn s gl r).glv gl).kind = (s.glv gl).kind ∧ ((recordOn s gl r).glv gl).inflight = [r] := by
  rw [recordOn, modGlv_glv]
  exact ⟨rfl, rfl, rfl, rfl⟩

/-- No row step runs: the record waits in flight. -/
theorem runRecord_waits (hgrace : s.noGrace) (gl : GloveRef) (r : Rec) (held : Bool) : s.runRecord gl r ⟨0, held⟩ = recordOn s gl r := by
  have hbusy : (recordOn s gl r).copyCheck gl = recordOn s gl r := by
    obtain ⟨-, -, -, hflight⟩ := recordOn_kept s gl r
    refine if_neg ?_
    rw [hflight]
    simp
  calc s.runRecord gl r ⟨0, held⟩ = ((recordOn s gl r).copyCheck gl).sealSweep := rfl
    _ = recordOn s gl r := by rw [hbusy, sealSweep_of_noGrace ((recordOn_quiet s gl r).noGrace hgrace)]

/-- COPY puts its record on the glove that is loaded for it. -/
theorem exec_copy (home : AtHome s n c gl l) (hbegun : s.begun n c 2) (hlen : recFld c.record 0x18 8 ≠ 0)
    (hmax : recFld c.record 0x18 8 ≤ 2 ^ 40) (p : Pace) :
    exec (.copy n c.index p) s = .next ((s.startLaunch n c l .copy [gl] 0 .none).runRecord gl
      (cmdRec .copy noFields ((recFld c.record 0x18 8 + 255) / 256) [c.record] p.held) p) := by
  have hlegal : ¬(recFld c.record 0x18 8 = 0 ∨ 2 ^ 40 < recFld c.record 0x18 8) := by omega
  change Host.Outcome.next (s.withCmd n c.index (· == 2) fun c => s.copyCmd n c p) = _
  rw [withCmd_of_begun hbegun _ rfl]
  unfold State.copyCmd
  simp only [home.lease, if_neg hlegal, if_neg home.notTick, home.oneGlove, home.whenIdle]

/-- RELAYOUT reads its descriptors through the glove that is loaded for it. -/
theorem exec_relayout (home : AtHome s n c gl l) (hbegun : s.begun n c 3) {p : Pace}
    (hstart : (s.startLaunch n c l .relayout [gl] 0 .none).relayoutStart gl c p = .ok u) : exec (.relayout n c.index p) s = .next u := by
  change Host.Outcome.next (s.withCmd n c.index (· == 3) fun c => s.relayoutCmd n c p) = _
  rw [withCmd_of_begun hbegun _ rfl]
  unfold State.relayoutCmd
  simp only [home.lease, if_neg home.notTick, home.oneGlove, home.whenIdle, hstart]

/-- Both descriptors of a RELAYOUT are read, and its record is in flight: the first read leaves the way of the second. -/
theorem relayoutStart_reads {held : Bool} {k d : Desc} (hgrace : s.noGrace) (hheld : s.hall.held = [])
    (hk : s.glovePath gl (recFld c.record 0x08 8) 64 .r = .ok .mem) (hd : s.glovePath gl (recFld c.record 0x10 8) 64 .r = .ok .mem)
    (hkclean : s.poisoned (recFld c.record 0x08 8) 64 = false) (hdclean : s.poisoned (recFld c.record 0x10 8) 64 = false)
    (hkbytes : BitVec.ofNat 512 (ofBytes (s.physBytes (recFld c.record 0x08 8) 64)) = k)
    (hdbytes : BitVec.ofNat 512 (ofBytes (s.physBytes (recFld c.record 0x10 8) 64)) = d)
    (hcheck : relayoutCheck (relayoutFields c) k d = none) :
    ∃ t, Quiet s t ∧ t.ten = s.ten ∧ (t.glv gl).kind = (s.glv gl).kind ∧ s.relayoutStart gl c ⟨0, held⟩
      = .ok (recordOn t gl (cmdRec .relayout (relayoutFields c) (relayoutRows (relayoutFields c) k) [k, d] held)) := by
  have hfirst := readOn_quiet s gl (recFld c.record 0x08 8) 64
  have hfirstWays := readOn_ways s gl (recFld c.record 0x08 8) 64
  have hfirstGlv := readOn_glv s gl (recFld c.record 0x08 8) 64
  have hkread := gloveRead_mem hk hheld
  generalize readOn s gl (recFld c.record 0x08 8) 64 = t1 at hfirst hfirstWays hfirstGlv hkread
  have hpath := glovePath_of_ways hfirst.toSameUnits hfirstWays (by rw [hfirstGlv]) (by rw [hfirstGlv]) hd
  have hdread := gloveRead_mem hpath (hfirst.hall ▸ hheld)
  rw [physBytes_congr hfirst.hall hfirst.mem, poisoned_congr hfirst.hall hfirst.mem] at hdread
  have hboth := hfirst.trans (readOn_quiet t1 gl (recFld c.record 0x10 8) 64)
  refine ⟨readOn t1 gl (recFld c.record 0x10 8) 64, hboth, congrArg Prod.fst ((readOn_ways t1 gl _ 64).trans hfirstWays), ?_, ?_⟩
  · rw [readOn_glv, hfirstGlv]
  · unfold State.relayoutStart
    simp only [hkread, Res.bind, hdread, hkclean, hdclean, Bool.or_self, Bool.false_eq_true, if_false, hkbytes, hdbytes, hcheck,
      runRecord_waits (hboth.noGrace hgrace)]

/-- A command that runs still runs when the tables of the scheduler stay. -/
theorem runs_of_ten (hruns : s.runs n c) (hten : t.ten = s.ten) : t.runs n c := by
  rw [State.runs, State.stream, hten]
  exact hruns

/-! ### The three clauses of the obligation -/

theorem launch_starts (home : AtHome s n c gl l) (hbegun : s.begun n c 1) (hmask : (s.lease l).emask = 1 <<< gl.e.val)
    (hplace : s.progPlace (s.stream n).tenant (recFld c.record 8 8) = true)
    (hread : s.readHead (s.stream n) (recFld c.record 8 8) = .ok (h, t)) (hok : h.ok = true) (hengines : h.engines = 1)
    (hgloves : h.gloves = 1) :
    ∃ u, exec (.launch n c.index) s = .next u ∧ u.runs n c ∧ (u.glv gl).kind = .launch ∧ (u.glv gl).state = 1
      ∧ (u.glv gl).pc = BitVec.ofNat 32 h.entry ∧ (u.glv gl).rank = 0 ∧ (u.glv gl).inflight = []
      ∧ (∀ k : Fin 32, (u.glv gl).sreg k =
          if 1 ≤ k.val ∧ k.val ≤ 4 then BitVec.ofNat 64 (recFld c.record (0x10 + 8 * k.val) 8)
          else if k = 5 then launchWordOf 0 1 gl else 0)
      ∧ u.mem = s.mem := by
  obtain ⟨hkept, hten⟩ := readHead_kept hread
  have hcmd : (t.stream n).cmd? c.index = some c := by
    rw [State.stream, hten]
    exact begun_cmd hbegun
  obtain ⟨b, hrun, hquiet, hglv⟩ := startLaunch_runs (l := l) (kind := .launch) (gl := gl) (prog := recFld c.record 8 8) (h := h) hcmd
  obtain ⟨hloaded, hstate, hpc, hrank, hflight⟩ := loadGlove_glv b gl n c l .launch 0 1 (recFld c.record 8 8) h
  refine ⟨_, exec_launch home hbegun hmask hplace hread hok hengines hgloves, hrun, ?_⟩
  rw [hglv]
  exact ⟨hloaded, hstate, hpc, hrank, hflight, loadGlove_sreg b gl n c l 0 1 _ h, hquiet.mem.trans hkept.mem⟩

theorem copy_starts (home : AtHome s n c gl l) (hgrace : s.noGrace) (hbegun : s.begun n c 2) (hlen : recFld c.record 0x18 8 ≠ 0)
    (hmax : recFld c.record 0x18 8 ≤ 2 ^ 40) (held : Bool) :
    ∃ u, exec (.copy n c.index ⟨0, held⟩) s = .next u ∧ u.runs n c ∧ (u.glv gl).kind = .copy
      ∧ (u.glv gl).inflight = [cmdRec .copy noFields ((recFld c.record 0x18 8 + 255) / 256) [c.record] held] ∧ u.mem = s.mem := by
  have hexec := exec_copy home hbegun hlen hmax ⟨0, held⟩
  obtain ⟨b, hrun, hquiet, hglv⟩ := startLaunch_runs (l := l) (kind := .copy) (gl := gl) (prog := 0) (h := .none) (begun_cmd hbegun)
  obtain ⟨hloaded, -⟩ := loadGlove_glv b gl n c l .copy 0 1 0 .none
  rw [runRecord_waits (hquiet.noGrace hgrace)] at hexec
  obtain ⟨hmem, hten, hkind, hflight⟩ := recordOn_kept (s.startLaunch n c l .copy [gl] 0 .none) gl
    (cmdRec .copy noFields ((recFld c.record 0x18 8 + 255) / 256) [c.record] held)
  exact ⟨_, hexec, runs_of_ten hrun hten, hkind.trans ((congrArg Glove.kind hglv).trans hloaded), hflight, hmem.trans hquiet.mem⟩

theorem relayout_starts {k d : Desc} (home : AtHome s n c gl l) (hgrace : s.noGrace) (hbegun : s.begun n c 3)
    (ht : s.startLaunch n c l .relayout [gl] 0 .none = t)
    (hk : t.glovePath gl (recFld c.record 0x08 8) 64 .r = .ok .mem) (hd : t.glovePath gl (recFld c.record 0x10 8) 64 .r = .ok .mem)
    (hkclean : s.poisoned (recFld c.record 0x08 8) 64 = false) (hdclean : s.poisoned (recFld c.record 0x10 8) 64 = false)
    (hkbytes : BitVec.ofNat 512 (ofBytes (s.physBytes (recFld c.record 0x08 8) 64)) = k)
    (hdbytes : BitVec.ofNat 512 (ofBytes (s.physBytes (recFld c.record 0x10 8) 64)) = d)
    (hheld : s.hall.held = []) (hcheck : relayoutCheck (relayoutFields c) k d = none) (held : Bool) :
    ∃ u, exec (.relayout n c.index ⟨0, held⟩) s = .next u ∧ u.runs n c ∧ (u.glv gl).kind = .relayout
      ∧ (u.glv gl).inflight = [cmdRec .relayout (relayoutFields c) (relayoutRows (relayoutFields c) k) [k, d] held] ∧ u.mem = s.mem := by
  obtain ⟨b, hrun, hquiet, hglv⟩ := startLaunch_runs (l := l) (kind := .relayout) (gl := gl) (prog := 0) (h := .none) (begun_cmd hbegun)
  rw [ht] at hrun hquiet hglv
  obtain ⟨hloaded, -⟩ := loadGlove_glv b gl n c l .relayout 0 1 0 .none
  rw [← poisoned_congr hquiet.hall hquiet.mem] at hkclean hdclean
  rw [← physBytes_congr hquiet.hall hquiet.mem] at hkbytes hdbytes
  obtain ⟨y, hread, hten, hkept, hstart⟩ :=
    relayoutStart_reads (held := held) (hquiet.noGrace hgrace) (hquiet.hall ▸ hheld) hk hd hkclean hdclean hkbytes hdbytes hcheck
  obtain ⟨hmem, htables, hkind, hflight⟩ := recordOn_kept y gl
    (cmdRec .relayout (relayoutFields c) (relayoutRows (relayoutFields c) k) [k, d] held)
  rw [← ht] at hstart
  have hloadedKind := (hkind.trans hkept).trans ((congrArg Glove.kind hglv).trans hloaded)
  exact ⟨_, exec_relayout home hbegun hstart, runs_of_ten hrun (htables.trans hten), hloadedKind, hflight,
    hmem.trans (hread.mem.trans hquiet.mem)⟩

/-- Settles O27: each command finds the glove of its lease idle and loads it; COPY and RELAYOUT put their record on it, RELAYOUT after two
reads that leave the glove's way to memory as it was. -/
theorem gloveCommandsStart : Obligations.GloveCommandsStart := by
  unfold Obligations.GloveCommandsStart
  intro s n c gl held hhome hgrace
  obtain ⟨l, home⟩ := homeOf_iff.1 hhome
  refine ⟨fun h t hbegun hplace hread hok hengines hgloves hmask => ?_, fun hbegun hlen hmax => ?_, fun l' hbegun hlease => ?_⟩
  · exact launch_starts home hbegun (hmask l home.lease) hplace hread hok hengines hgloves
  · exact copy_starts home hgrace hbegun hlen hmax held
  · cases home.lease.symm.trans hlease
    intro t a b k d w hk hd hkclean hdclean hheld hcheck _
    exact relayout_starts home hgrace hbegun rfl hk hd hkclean hdclean rfl rfl hheld hcheck held

end Sys2Proof.GloveCommands
end

section
/-!
A pass through the reorder network (R95): the elements of a row that is made from a function of the lane.
-/
namespace Sys2Proof.ReorderNetwork
open Sys2Proof.Machine Sys2Proof.ScalarInstructions

theorem testBit_elt (r : Row) (w i b : Nat) : (elt r w i).testBit b = (decide (b < w) && r.getLsbD (w * i + b)) := by
  rw [elt, Nat.testBit_mod_two_pow, Nat.testBit_shiftRight, BitVec.testBit_toNat]

theorem elt_lt (r : Row) (w i : Nat) : elt r w i < 2 ^ w := Nat.mod_lt _ (Nat.two_pow_pos w)

/-- What `rowOf` packs, `elt` reads back: no carry crosses from one element of a row to the next. -/
theorem elt_rowOf {w i : Nat} (f : Nat → Nat) (hi : i < 2048 / w) : elt (rowOf w f) w i = f i % 2 ^ w := by
  have hw : 0 < w := Nat.pos_of_ne_zero fun h => by simp [h] at hi
  refine Nat.eq_of_testBit_eq fun b => ?_
  rw [testBit_elt, Nat.testBit_mod_two_pow]
  by_cases hb : b < w
  · have hrow : w * i + b < 2048 := calc
      w * i + b < w * (i + 1) := Nat.add_lt_add_left hb _
      _ ≤ w * (2048 / w) := Nat.mul_le_mul_left w hi
      _ ≤ 2048 := Nat.mul_div_le 2048 w
    have hdiv : (w * i + b) / w = i := by rw [Nat.mul_add_div hw, Nat.div_eq_of_lt hb, Nat.add_zero]
    have hmod : (w * i + b) % w = b := by rw [Nat.mul_add_mod, Nat.mod_eq_of_lt hb]
    rw [rowOf, BitVec.getLsbD_ofNat, testBit_digits hw, hdiv, hmod, Nat.zero_add, decide_eq_true hrow,
      decide_eq_true hi, Bool.true_and, Bool.true_and]
  · rw [decide_eq_false hb, Bool.false_and, Bool.false_and]

/-- Settles O16: the pass makes its row from the lane that the route names, and a lane or zero fits a byte. -/
theorem networkPassMovesLanes : Obligations.NetworkPassMovesLanes := by
  unfold Obligations.NetworkPassMovesLanes
  intro x route i k hlen hroute
  have hi : i < route.length := (List.getElem?_eq_some_iff.1 hroute).1
  have hfits : (if k < 256 then elt x 8 k else 0) < 2 ^ 8 := by
    split
    · exact elt_lt x 8 k
    · exact Nat.two_pow_pos 8
  rw [netPass, elt_rowOf _ (Nat.lt_of_lt_of_eq hi hlen), hroute]
  exact Nat.mod_eq_of_lt hfits

end Sys2Proof.ReorderNetwork
end

section
/-!
Transactions of gloves (R24-R30, R63, R321): what decides how many of them can be outstanding, and what accepted accesses leave of it.
-/
namespace Sys2Proof.GloveTransactions
open Sys2Proof.Machine Sys2Proof.WingMemories Sys2Proof.GloveInstructions Sys2Proof.ContextSwaps Sys2Proof.GloveCommands

variable {s t u : State} {gl : GloveRef}

/-! ### What transactions find -/

/-- What of a glove decides where its transactions go and how many are outstanding. -/
def traffic (g : Glove) := (g.responses, g.kind, g.tenant, g.strm)

/-- The ways to memory, and what the host has programmed at the ports. -/
def network (s : State) := (ways s, fun p => (s.port p).cfg)

/-- Transactions find the same room in two states. -/
structure SameTraffic (s t : State) : Prop extends SameUnits s t where
  network : network t = network s
  glove : ∀ x, traffic (t.glv x) = traffic (s.glv x)

theorem SameTraffic.trans (h : SameTraffic s t) (k : SameTraffic t u) : SameTraffic s u :=
  ⟨h.toSameUnits.trans k.toSameUnits, k.network.trans h.network, fun x => (k.glove x).trans (h.glove x)⟩

section
variable (h : SameTraffic s t)
include h

theorem SameTraffic.ways : ways t = ways s := congrArg Prod.fst h.network

theorem SameTraffic.ten : t.ten = s.ten := congrArg Prod.fst h.ways

theorem SameTraffic.responses (x : GloveRef) : (t.glv x).responses = (s.glv x).responses := congrArg Prod.fst (h.glove x)

theorem SameTraffic.kind (x : GloveRef) : (t.glv x).kind = (s.glv x).kind := congrArg (·.2.1) (h.glove x)

theorem SameTraffic.tenant (x : GloveRef) : (t.glv x).tenant = (s.glv x).tenant := congrArg (·.2.2.1) (h.glove x)

theorem SameTraffic.strm (x : GloveRef) : (t.glv x).strm = (s.glv x).strm := congrArg (·.2.2.2) (h.glove x)

theorem SameTraffic.outstanding (x : GloveRef) : (t.glv x).outstanding = (s.glv x).outstanding := by
  rw [Glove.outstanding, h.responses, Glove.outstanding]

theorem SameTraffic.ids (x : GloveRef) : (t.glv x).ids = (s.glv x).ids := by rw [Glove.ids, h.responses, Glove.ids]

theorem SameTraffic.glovePath {a k : Nat} {p : Perm} (hpath : s.glovePath gl a k p = .ok .mem) : t.glovePath gl a k p = .ok .mem :=
  glovePath_of_ways h.toSameUnits h.ways (h.kind gl) (h.tenant gl) hpath

/-! ### The targets of transactions (R7, R30, R326) -/

theorem SameTraffic.hostOf (a : Nat) : t.hostOf gl a = s.hostOf gl a := by
  have htenants : t.tenant = s.tenant := funext fun x => by rw [State.tenant, h.ten, State.tenant]
  have hhost : t.hostRoom = s.hostRoom := by funext x a k p; simp only [State.hostRoom, htenants]
  simp only [State.hostOf, h.tenant, htenants, hhost]

theorem SameTraffic.wingTo (x : GloveRef) (a : Nat) : t.wingTo x a = s.wingTo x a := by
  simp only [State.wingTo, h.hostOf, h.hall]

theorem SameTraffic.reqLink (x : GloveRef) (a : Nat) : t.reqLink x a = s.reqLink x a := by
  simp only [State.reqLink, h.wingTo]

theorem SameTraffic.link (l : LinkId) : t.link l = s.link l := by
  cases l with
  | out w j =>
    have hgates : gates (t.wing w) = gates (s.wing w) := congrFun (congrArg Prod.snd h.ways) w
    exact congrArg (·[j.val]) (congrArg (·.2.2.1) hgates)
  | hallTo w => exact congrArg (·.toWing[w.val]) h.hall

/-! ### Memory IDs, tracker entries, credits and places at host ports (R25, R30, R63, R321) -/

theorem SameTraffic.engineIds (e : EngIx) : (t.eng e).gloves.toList.map Glove.ids = (s.eng e).gloves.toList.map Glove.ids :=
  List.ext_getElem (by simp) fun i hi _ => by
    have hi : i < 4 := by simpa using hi
    rw [List.getElem_map, List.getElem_map, Vector.getElem_toList, Vector.getElem_toList]
    exact h.ids ⟨e, ⟨i, hi⟩⟩

theorem SameTraffic.idHas (k : Nat) : t.idHas gl k = s.idHas gl k := by
  have htick : ((t.eng gl.e).gloves[3]).ids = ((s.eng gl.e).gloves[3]).ids := h.ids ⟨gl.e, 3⟩
  simp only [State.idHas, State.engTick, h.ten, h.engineIds, h.ids, htick] <;> rfl

theorem SameTraffic.hallCount (x : GloveRef) (l : List GloveReq) : t.hallCount x l = s.hallCount x l := by
  simp only [State.hallCount, h.wingTo]

theorem SameTraffic.trackerHas (q15 : Bool) (k : Nat) : t.trackerHas q15 k = s.trackerHas q15 k := by
  simp only [State.trackerHas, State.trkUsed, h.hall, h.hallCount, h.outstanding] <;> rfl

theorem SameTraffic.flitsOn (x : GloveRef) (l : LinkId) (rs : List GloveReq) : t.flitsOn x l rs = s.flitsOn x l rs := by
  simp only [State.flitsOn, h.reqLink]

theorem SameTraffic.creditHas (l : LinkId) (q15 : Bool) (k : Nat) : t.creditHas l q15 k = s.creditHas l q15 k := by
  simp only [State.creditHas, State.gloveFlits, h.link, h.flitsOn, h.outstanding] <;> rfl

theorem SameTraffic.readTlps (p : PortIx) (a k : Nat) : (t.port p).readTlps a k = (s.port p).readTlps a k := by
  have hcfg : (t.port p).cfg = (s.port p).cfg := congrFun (congrArg Prod.snd h.network) p
  simp only [HostPort.readTlps, HostPort.mrrs, HostPort.cfgStored, hcfg]

theorem SameTraffic.readsAt (x : GloveRef) (p : PortIx) (rs : List GloveReq) : t.readsAt x p rs = s.readsAt x p rs := by
  simp only [State.readsAt, h.hostOf, h.readTlps]

theorem SameTraffic.npHas (done : List GloveReq) (q : GloveReq) : t.npHas gl done q = s.npHas gl done q := by
  simp only [State.npHas, h.hostOf, h.readsAt, h.outstanding]

theorem SameTraffic.gloveQos : t.gloveQos gl = s.gloveQos gl := by
  simp only [State.gloveQos, State.stream, h.kind, h.strm, h.ten]

theorem SameTraffic.reqFits (done : List GloveReq) (q : GloveReq) : t.reqFits gl done q = s.reqFits gl done q := by
  simp only [State.reqFits, h.idHas, h.wingTo, h.trackerHas, h.hallCount, h.npHas, h.reqLink, h.creditHas, h.flitsOn, h.gloveQos]

theorem SameTraffic.fitCount (l : List GloveReq) : ∀ done, t.fitCount gl l done = s.fitCount gl l done := by
  induction l with
  | nil => exact fun _ => rfl
  | cons q l ih => exact fun done => by rw [State.fitCount, h.reqFits, ih, State.fitCount]

end

/-! ### Updates that transactions do not see -/

theorem modGlv_traffic (s : State) (gl : GloveRef) (f : Glove → Glove) (h : traffic (f (s.glv gl)) = traffic (s.glv gl)) :
    SameTraffic s (s.modGlv gl f) :=
  ⟨(modGlv_quiet s gl f).toSameUnits, rfl, fun x => by
    by_cases hx : x = gl
    · subst hx; rw [modGlv_glv]; exact h
    · rw [modGlv_glv_ne _ _ _ _ hx]⟩

theorem modEng_traffic (s : State) (e : EngIx) (f : Engine → Engine) (htick : (f (s.eng e)).tick = (s.eng e).tick)
    (hgloves : (f (s.eng e)).gloves = (s.eng e).gloves) : SameTraffic s (s.modEng e f) :=
  ⟨(modEng_quiet s e f htick).toSameUnits, rfl, fun x => by rw [modEng_glv s e f hgloves]⟩

theorem engCnt_traffic (s : State) (e : EngIx) (i : Fin 21) (k : Nat) : SameTraffic s (s.engCnt e i k) := by
  unfold State.engCnt
  split
  · exact ⟨.refl s, rfl, fun _ => rfl⟩
  · exact modEng_traffic s e _ rfl rfl

theorem issue_traffic (s : State) (gl : GloveRef) : SameTraffic s (s.issue gl) := by
  have hcnt (k : Nat) : SameTraffic s ((s.engCnt gl.e 1 1).engCnt gl.e 2 k) := (engCnt_traffic s _ _ _).trans (engCnt_traffic _ _ _ _)
  refine SameTraffic.trans ?_ (modGlv_traffic _ gl _ rfl)
  split
  · exact hcnt _
  · exact (hcnt _).trans (modEng_traffic _ gl.e _ rfl rfl)

/-! ### Accepted accesses (R43, R45, R47, R273) -/

theorem network_of_ways (hways : ways t = ways s) (hports : t.ports = s.ports) : network t = network s :=
  Prod.ext hways (funext fun p => congrArg (fun v : Vector HostPort 4 => v[p.val].cfg) hports)

theorem lineUse_network (s : State) (key : Nat) (alloc : Bool) (who : Option Nat) : network (s.lineUse key alloc who) = network s := by
  refine network_of_ways (lineUse_ways s key alloc who) ?_
  unfold State.lineUse
  split
  · exact wingCnt_ports _ _ _ _
  · split
    · exact wingCnt_ports s _ _ _
    · rfl

/-- An interrupt message leaves what the host has programmed. -/
theorem msix_cfg (s : State) (p x : PortIx) (v : Fin 128) : ((s.msix p v).port x).cfg = (s.port x).cfg := by
  by_cases hx : x = p
  · subst hx
    rw [State.msix, modPort_port]
    split <;> rfl
  · rw [State.msix, modPort_port_ne _ _ _ _ hx]

theorem mgrVector_network (s : State) : network s.mgrVector = network s := by
  refine Prod.ext (ways_of_eq (mgrVector_ten s) (mgrVector_wings s)) (funext fun x => ?_)
  change (s.mgrVector.port x).cfg = (s.port x).cfg
  unfold State.mgrVector
  split
  · exact msix_cfg s _ x _
  · rfl

theorem watchAccess_network (s : State) (w : WingIx) (src : AccSrc) (key k kind : Nat) :
    network (s.watchAccess w src key k kind) = network s := by
  unfold State.watchAccess
  extract_lets wg hits s1 s2 ps s3 s4
  have h3 : network s3 = network s := network_of_ways ((wingCnt_ways s1 w 10 1).trans (modWing_ways s w _ rfl)) (wingCnt_ports s1 w 10 1)
  have h4 : network s4 = network s := by
    unfold s4
    split
    · exact (mgrVector_network s3).trans h3
    · exact h3
  split
  · rfl
  · split
    · rfl
    · split
      · exact (network_of_ways (ways_of_eq (trace_ten ..) (trace_wings ..)) (trace_ports ..)).trans h4
      · exact h4

theorem accTouch_network (s : State) (src : AccSrc) (keys : List Nat) (kind : Nat) : network (s.accTouch src keys kind) = network s := by
  unfold State.accTouch
  refine (foldl_keeps network (fun t x => ?_) _ _).trans (foldl_keeps network (fun t _ => lineUse_network t _ _ _) _ s)
  split
  · exact watchAccess_network t _ _ _ _ _
  · rfl

theorem setSum_network (s : State) (w : WingIx) (i : Fin 4) (x : DetSum) : network (s.setSum w i x) = network s := by
  unfold State.setSum
  extract_lets k t
  have ht : network t = network s := network_of_ways (modWing_ways s w _ rfl) rfl
  split
  · exact ht
  · exact ht

theorem detRewrite_network (s : State) (keys : List Nat) : network (s.detRewrite keys) = network s := by
  unfold State.detRewrite
  refine foldl_keeps network (fun t k => ?_) keys s
  dsimp only
  split
  · rfl
  · split
    · exact setSum_network t _ _ _
    · rfl

theorem dropLines_network (s : State) (hit : Nat → Bool) : network (s.dropLines hit) = network s :=
  network_of_ways (Prod.ext rfl (funext fun w => by simp only [ways, State.dropLines, State.wing, Vector.getElem_map, gates] <;> rfl)) rfl

theorem snoopWrite_network (s : State) (keys : List Nat) : network (s.snoopWrite keys) = network s := by
  unfold State.snoopWrite
  split
  · rfl
  · exact (detRewrite_network _ _).trans (dropLines_network s _)

theorem accTouch_traffic (s : State) (src : AccSrc) (keys : List Nat) (kind : Nat) : SameTraffic s (s.accTouch src keys kind) :=
  ⟨(accTouch_quiet s src keys kind).toSameUnits, accTouch_network s src keys kind, fun x => by rw [accTouch_glv]⟩

theorem accWrite_network (s : State) (src : AccSrc) (a : Nat) (bs : List Byte) : network (s.accWrite src a bs) = network s := by
  unfold State.accWrite
  extract_lets keys
  calc network ((((s.snoopWrite keys).poke a bs false).detRewrite keys).accTouch src keys 1)
      = network (((s.snoopWrite keys).poke a bs false).detRewrite keys) := accTouch_network _ _ _ _
    _ = network ((s.snoopWrite keys).poke a bs false) := detRewrite_network _ _
    _ = network (s.snoopWrite keys) := rfl
    _ = network s := snoopWrite_network s keys

theorem accWrite_traffic (s : State) (src : AccSrc) (a : Nat) (bs : List Byte) : SameTraffic s (s.accWrite src a bs) :=
  ⟨(accWrite_wrote s src a bs).toSameUnits, accWrite_network s src a bs, fun x => by rw [accWrite_glv]⟩

end Sys2Proof.GloveTransactions
end

section
/-!
Tile instructions of one row step (R61, R62): the only instruction in flight on an engine runs its row step on its unit and leaves.
-/
namespace Sys2Proof.RowSteps
open Sys2Proof.Machine Sys2Proof.WingMemories Sys2Proof.GloveInstructions Sys2Proof.ContextSwaps Sys2Proof.GloveFences
  Sys2Proof.GloveTransactions

variable {s t : State} {gl : GloveRef} {op : TOp} {w : JFields} {r : Rec}

/-! ### The unit takes the only instruction in flight (R61) -/

theorem firstFor_nil (h : (s.glv gl).inflight = []) (x : UnitName) : s.firstFor gl x = none := by
  simp [State.firstFor, h]

theorem firstFor_only (hflight : (s.glv gl).inflight = [r]) (hrow : r.row < r.rows) (hwaits : s.recWaits gl r = false) :
    s.firstFor gl (s.unitFor gl r) = some 0 := by
  have hlist : (if (s.glv gl).resuming then (s.glv gl).inflight.take 1 else (s.glv gl).inflight) = [r] := by
    rw [hflight]
    exact ite_self _
  unfold State.firstFor
  simp only [hlist]
  simp [hrow, hwaits, waitsForBuf]

theorem findSome?_only {α β : Type} {f : α → Option β} {l : List α} {a : α} (ha : a ∈ l) (hne : ∀ x, x ≠ a → f x = none) :
    l.findSome? f = f a := by
  induction l with
  | nil => cases ha
  | cons x l ih =>
    rw [List.findSome?_cons]
    by_cases hx : x = a
    · subst hx
      cases hfx : f x with
      | none =>
        refine List.findSome?_eq_none_iff.2 fun y _ => ?_
        by_cases hy : y = x
        · rw [hy, hfx]
        · exact hne y hy
      | some b => rfl
    · rw [hne x hx]
      exact ih ((List.mem_cons.1 ha).resolve_left fun h => hx h.symm)

theorem mem_rotation : ∀ p g : GlvIx, g ∈ [p, p + 1, p + 2, p + 3] := by decide

theorem nextForUnit_alone {x : UnitName} {k : Nat} (halone : s.alone gl) (hgo : s.stepsGoOn gl = true) (hfirst : s.firstFor gl x = some k) :
    s.nextForUnit gl.e x = some (gl.g, k) := by
  unfold State.nextForUnit
  dsimp only
  rw [List.head?_filterMap, findSome?_only (a := gl.g)]
  · rw [if_pos hgo, hfirst]
    rfl
  · exact List.mem_append_right _ (mem_rotation _ gl.g)
  · intro y hy
    rw [firstFor_nil (halone y hy)]
    exact ite_self _

/-! ### The row step and its end (R61-R63) -/

/-- The state after a row step of the oldest instruction in flight, whose effect has left t: the record has come to its next. -/
def rowDone (now : Word) (t : State) (gl : GloveRef) (r : Rec) : State :=
  (((t.countBusy gl r r.next).setRec gl 0 r.next).clearReqs gl).modGlv gl fun g => { g with progressAt := now }

/-- The state after its last row step: the instruction is gone, and its unit is free. -/
def rowEnded (now : Word) (t : State) (gl : GloveRef) (r : Rec) (x : UnitName) : State :=
  ((rowDone now t gl r).finishRec gl 0).moveUnitPtr gl.e x gl.g

theorem countBusy_kept (s : State) (gl : GloveRef) (r r' : Rec) : Quiet s (s.countBusy gl r r') ∧ ∀ x, (s.countBusy gl r r').glv x = s.glv x := by
  unfold State.countBusy
  split
  · exact ⟨.refl s, fun _ => rfl⟩
  · exact ⟨(((addWork_quiet s _ _ _).trans (addWork_quiet _ _ _ _)).trans (addWork_quiet _ _ _ _)).trans (addWork_quiet _ _ _ _),
      fun x => by simp only [addWork_glv]⟩

theorem moveUnitPtr_kept (s : State) (e : EngIx) (x : UnitName) (g : GlvIx) :
    Quiet s (s.moveUnitPtr e x g) ∧ ∀ y, (s.moveUnitPtr e x g).glv y = s.glv y := by
  unfold State.moveUnitPtr
  extract_lets t
  have hquiet : Quiet s t := modEng_quiet s e _ rfl
  have hglv (y : GloveRef) : t.glv y = s.glv y := modEng_glv s e _ rfl y
  split
  · exact ⟨hquiet, hglv⟩
  · exact ⟨hquiet.trans (modEng_quiet t e _ rfl), fun y => (modEng_glv t e _ rfl y).trans (hglv y)⟩

/-- An instruction that has locked no slot and holds no bank leaves nothing behind. -/
theorem finishRec_only (hflight : (s.glv gl).inflight = [r]) (hslots : r.slots = []) (hbank : ¬(r.op = .trn ∨ r.op = .relay ∨ r.op = .relayout)) :
    s.finishRec gl 0 = s.modGlv gl fun g => { g with
      inflight := g.inflight.eraseIdx 0, trow := 0, resuming := false, spatialRows := if keepsRows r.op then [] else g.spatialRows } := by
  have hfree : s.freeRec gl.e r = s := by
    unfold State.freeRec
    rw [hslots, if_neg hbank]
    rfl
  unfold State.finishRec
  rw [hflight]
  dsimp only [List.getElem?_cons_zero]
  rw [hfree]
  refine modGlv_congr _ gl _ _ ?_
  simp

theorem rowDone_kept (now : Word) (hflight : (t.glv gl).inflight = [r]) : Quiet t (rowDone now t gl r)
    ∧ (rowDone now t gl r).glv gl = { t.glv gl with inflight := [r.next], reqs := [], progressAt := now } := by
  obtain ⟨hquiet, hglv⟩ := countBusy_kept t gl r r.next
  refine ⟨((hquiet.trans (modGlv_quiet _ gl _)).trans (modGlv_quiet _ gl _)).trans (modGlv_quiet _ gl _), ?_⟩
  rw [rowDone, modGlv_glv, State.clearReqs, modGlv_glv, State.setRec, modGlv_glv, hglv, hflight]
  rfl

theorem rowEnded_kept (now : Word) (x : UnitName) (hflight : (t.glv gl).inflight = [r]) (hslots : r.slots = [])
    (hbank : ¬(r.op = .trn ∨ r.op = .relay ∨ r.op = .relayout)) :
    Quiet t (rowEnded now t gl r x) ∧ (rowEnded now t gl r x).glv gl = { t.glv gl with
      inflight := [], reqs := [], progressAt := now, trow := 0, resuming := false,
      spatialRows := if keepsRows r.op then [] else (t.glv gl).spatialRows } := by
  obtain ⟨hdoneQuiet, hdoneGlv⟩ := rowDone_kept now hflight
  obtain ⟨hptrQuiet, hptrGlv⟩ := moveUnitPtr_kept ((rowDone now t gl r).finishRec gl 0) gl.e x gl.g
  rw [rowEnded]
  rw [finishRec_only (r := r.next) (by rw [hdoneGlv]) hslots hbank] at hptrQuiet hptrGlv ⊢
  refine ⟨(hdoneQuiet.trans (modGlv_quiet _ gl _)).trans hptrQuiet, ?_⟩
  rw [hptrGlv, modGlv_glv, hdoneGlv]
  rfl

/-- A row step whose first transaction fits takes its record on; one that holds no responses asks for none. -/
theorem harvest_fits {r' : Rec} (hheld : r.held = false) (hfit : s.fitCount gl (s.glv gl).reqs [] ≠ 0) : s.harvest gl r r' = some r' := by
  have hreqs : (s.glv gl).reqs.isEmpty = false := by
    cases hr : (s.glv gl).reqs with
    | nil => rw [hr] at hfit; exact absurd rfl hfit
    | cons q l => rfl
  simp [State.harvest, hreqs, hfit, hheld]

/-- The last row step of the only instruction in flight. -/
theorem runRow_ends {x : UnitName} (hflight : (s.glv gl).inflight = [r]) (hrow : r.row < r.rows) (hlast : r.rows ≤ r.row + 1)
    (hresp : r.resp = []) (hheld : r.held = false) (hop : rowOp (s.clearReqs gl) gl r = .ok t r.next)
    (hfit : t.fitCount gl (t.glv gl).reqs [] ≠ 0) (hdying : ((rowEnded s.hearth.time t gl r x).glv gl).dying = none) :
    s.runRow gl 0 x = (rowEnded s.hearth.time t gl r x, false) := by
  have hfinished : r.next.finished = true := by simp [Rec.finished, Rec.next, hlast, hresp]
  have hstep : s.stepRec gl 0 = .done ((rowDone s.hearth.time t gl r).finishRec gl 0) := by
    unfold State.stepRec
    rw [hflight]
    dsimp only [List.getElem?_cons_zero]
    rw [if_neg (Nat.not_le.2 hrow), hop]
    dsimp only
    rw [harvest_fits hheld hfit]
    exact if_pos hfinished
  have hlives : (rowEnded s.hearth.time t gl r x).dieCheck gl = rowEnded s.hearth.time t gl r x := by
    unfold State.dieCheck
    dsimp only
    rw [hdying]
  unfold State.runRow
  rw [hstep]
  exact congrArg (·, false) hlives

/-! ### Loads and stores of S and D registers (R137) -/

/-- The instructions that move one S or D register to or from memory. -/
def movesOne (op : TOp) : Prop := op = .dld ∨ op = .dst ∨ op = .sld ∨ op = .sst

/-- The record of such an instruction has one row step, on the load/store unit, that nothing but memory holds. -/
theorem newRec_movesOne (h : movesOne op) (s : State) (gl : GloveRef) (g : Glove) (w : JFields) (ds : List Desc) :
    let r := newRec g op w false ds
    r.row = 0 ∧ r.rows = 1 ∧ s.unitFor gl r = .loadStore ∧ s.recWaits gl r = false
      ∧ ¬(r.op = .trn ∨ r.op = .relay ∨ r.op = .relayout) := by
  obtain rfl | rfl | rfl | rfl := h
  all_goals exact ⟨rfl, rfl, rfl, rfl, by simp [newRec]⟩

/-- The state in which the row step of an instruction that has just entered flight runs. -/
def atRow (s : State) (gl : GloveRef) (op : TOp) (w : JFields) (ds : List Desc) : State :=
  (inFlight s gl op (newRec (s.glv gl) op w false ds)).clearReqs gl

theorem issue_power (s : State) (gl : GloveRef) : ((s.issue gl).eng gl.e).pwrState = (s.eng gl.e).pwrState
    ∧ ((s.issue gl).eng gl.e).waking = (s.eng gl.e).waking := by
  have hcnt (u : State) (i : Fin 21) (k : Nat) : ((u.engCnt gl.e i k).eng gl.e).pwrState = (u.eng gl.e).pwrState
      ∧ ((u.engCnt gl.e i k).eng gl.e).waking = (u.eng gl.e).waking := by
    unfold State.engCnt
    split
    · exact ⟨rfl, rfl⟩
    · rw [modEng_eng]; exact ⟨rfl, rfl⟩
  unfold State.issue
  extract_lets tick others s1
  have h1 : (s1.eng gl.e).pwrState = (s.eng gl.e).pwrState ∧ (s1.eng gl.e).waking = (s.eng gl.e).waking :=
    ⟨(hcnt _ _ _).1.trans (hcnt _ _ _).1, (hcnt _ _ _).2.trans (hcnt _ _ _).2⟩
  rw [State.modGlv, modEng_eng]
  split
  · exact h1
  · rw [modEng_eng]; exact h1

/-- What entering flight does to the glove that issues. -/
def entering (op : TOp) (r : Rec) (g : Glove) : Glove :=
  { g with inflight := g.inflight ++ [r], spatialRows := if keepsRows op then [] else g.spatialRows }

theorem inFlight_glv (s : State) (gl : GloveRef) (op : TOp) (r : Rec) : (inFlight s gl op r).glv gl = { s.glv gl with
    progressAt := s.hearth.time, inflight := (s.glv gl).inflight ++ [r],
    spatialRows := if keepsRows op then [] else (s.glv gl).spatialRows, pc := (s.glv gl).pc + 8 } := by
  obtain ⟨-, -, hglv, -⟩ := scalarInstructionFrame s gl (entering op r) 0
  exact hglv

theorem inFlight_glv_ne (s : State) {gl x : GloveRef} (hx : x ≠ gl) (op : TOp) (r : Rec) : (inFlight s gl op r).glv x = s.glv x := by
  obtain ⟨-, -, -, -, hothers⟩ := scalarInstructionFrame s gl (entering op r) 0
  exact (hothers x hx).1

theorem inFlight_alone (h : s.alone gl) (op : TOp) (r : Rec) : (inFlight s gl op r).alone gl := fun x hx => by
  rw [inFlight_glv_ne s (fun e => hx (congrArg GloveRef.g e))]
  exact h x hx

/-- A glove whose instruction issues goes on with its row steps. -/
theorem inFlight_stepsGoOn (h : s.gloveReady gl = true) (op : TOp) (r : Rec) : (inFlight s gl op r).stepsGoOn gl = true := by
  have hpower : ((inFlight s gl op r).eng gl.e).pwrState = (s.eng gl.e).pwrState
      ∧ ((inFlight s gl op r).eng gl.e).waking = (s.eng gl.e).waking := by
    unfold inFlight State.ran State.nextPc
    simp only [State.modGlv, modEng_eng]
    exact issue_power s gl
  have hhearth : (inFlight s gl op r).hearth = s.hearth := issue_hearth s gl
  have halive : (inFlight s gl op r).alive = s.alive := by rw [State.alive, hhearth, State.alive]
  simp only [State.gloveReady, Bool.and_eq_true, Bool.or_eq_true, beq_iff_eq, Bool.not_eq_true'] at h
  obtain ⟨⟨⟨⟨⟨⟨⟨⟨⟨⟨hon, hpwr⟩, hwaking⟩, hstate⟩, hkind⟩, -⟩, hfrozen⟩, -⟩, -⟩, -⟩, -⟩ := h
  have hruns : ((s.glv gl).kind != .none) = true := by
    rcases hkind with hk | hk
    all_goals rw [hk]; rfl
  simp only [State.stepsGoOn, inFlight_glv, halive, hpower, hon, hpwr, hwaking, hstate, hfrozen, hruns]
  rfl

theorem atRow_glv (s : State) (gl : GloveRef) (op : TOp) (w : JFields) (ds : List Desc) : (atRow s gl op w ds).glv gl = { s.glv gl with
    progressAt := s.hearth.time, inflight := (s.glv gl).inflight ++ [newRec (s.glv gl) op w false ds],
    spatialRows := if keepsRows op then [] else (s.glv gl).spatialRows, pc := (s.glv gl).pc + 8, reqs := [] } := by
  rw [atRow, State.clearReqs, modGlv_glv, inFlight_glv]

/-- Entering flight leaves what transactions find. -/
theorem inFlight_traffic (s : State) (gl : GloveRef) (op : TOp) (h : r.resp = []) : SameTraffic s (inFlight s gl op r) := by
  unfold inFlight State.ran State.nextPc
  refine ((issue_traffic s gl).trans (modGlv_traffic _ gl _ ?_)).trans (modGlv_traffic _ gl _ rfl)
  simp [traffic, Glove.responses, h]

theorem atRow_traffic (s : State) (gl : GloveRef) (op : TOp) (w : JFields) (ds : List Desc) : SameTraffic s (atRow s gl op w ds) :=
  (inFlight_traffic s gl op rfl).trans (modGlv_traffic _ gl _ rfl)

theorem atRow_mem (s : State) (gl : GloveRef) (op : TOp) (w : JFields) (ds : List Desc) : (atRow s gl op w ds).mem = s.mem := issue_mem s gl

/-- Such an instruction asks the load/store unit for its row step when it enters flight. -/
theorem enterTile_movesOne {ds : List Desc} (hop : movesOne op) (hempty : (s.glv gl).inflight = []) :
    s.enterTile gl op w ⟨1, false⟩ ds = runSteps gl 0 1 (inFlight s gl op (newRec (s.glv gl) op w false ds)) := by
  have hslot : ¬(s.pcompHit gl op w ∨ op = .tmark ∨ op = .cread) := by
    obtain rfl | rfl | rfl | rfl := hop
    all_goals simp [State.pcompHit]
  unfold State.enterTile
  dsimp only
  rw [if_neg hslot, hempty]
  rfl

/-- The only instruction in flight runs its one row step when its unit takes it. -/
theorem runSteps_once {x : UnitName} (hflight : (s.glv gl).inflight = [r]) (hunit : s.unitFor gl r = x)
    (hturn : s.nextForUnit gl.e x = some (gl.g, 0)) (hrun : s.runRow gl 0 x = (t, false)) : runSteps gl 0 1 s = t := by
  unfold runSteps
  rw [hflight]
  dsimp only [List.getElem?_cons_zero]
  rw [hunit, if_pos hturn, hrun]
  rfl

/-- An instruction that moves one register, alone on its engine, runs to its end when its row step's access is made and fits. -/
theorem tile_movesOne {ds : List Desc} (hop : movesOne op) (henter : s.mayEnter gl op w ds) (hempty : (s.glv gl).inflight = [])
    (halone : s.alone gl) (hgrace : s.noGrace)
    (hrow : rowOp (atRow s gl op w ds) gl (newRec (s.glv gl) op w false ds) = .ok t (newRec (s.glv gl) op w false ds).next)
    (hflight : (t.glv gl).inflight = [newRec (s.glv gl) op w false ds]) (hdying : (t.glv gl).dying = (s.glv gl).dying)
    (htraffic : SameTraffic s t) (hfit : s.fitCount gl (t.glv gl).reqs [] ≠ 0) :
    ∃ u, s.tile gl op w ⟨1, false⟩ = u ∧ Quiet t u ∧ u.glv gl = { t.glv gl with
      inflight := [], reqs := [], progressAt := s.hearth.time, trow := 0, resuming := false } := by
  obtain ⟨hready, hlegal, hnext, hprep, -⟩ := henter
  have hgo : s.gloveReady gl = true := gloveReady_of_mayIssue ((Bool.and_eq_true _ _).mp hready).1
  obtain ⟨hfirst, hrows, hunit, hwaits, hbank⟩ :=
    newRec_movesOne hop (inFlight s gl op (newRec (s.glv gl) op w false ds)) gl (s.glv gl) w ds
  have henter := enterTile_movesOne (w := w) (ds := ds) hop hempty
  obtain ⟨hquiet, hglv⟩ := rowEnded_kept s.hearth.time .loadStore hflight rfl hbank
  have hkeeps : keepsRows (newRec (s.glv gl) op w false ds).op = false := by
    obtain rfl | rfl | rfl | rfl := hop
    all_goals rfl
  rw [hkeeps] at hglv
  have hresp : (newRec (s.glv gl) op w false ds).resp = [] := rfl
  have hheld : (newRec (s.glv gl) op w false ds).held = false := rfl
  rw [atRow] at hrow
  generalize newRec (s.glv gl) op w false ds = r at *
  have hnow : (inFlight s gl op r).hearth = s.hearth := issue_hearth s gl
  have hentered : ((inFlight s gl op r).glv gl).inflight = [r] := by rw [inFlight_glv, hempty]; rfl
  have hturn : (inFlight s gl op r).nextForUnit gl.e .loadStore = some (gl.g, 0) :=
    nextForUnit_alone (inFlight_alone halone op r) (inFlight_stepsGoOn hgo op r) (hunit ▸ firstFor_only hentered (by omega) hwaits)
  have hrun : (inFlight s gl op r).runRow gl 0 .loadStore = (rowEnded s.hearth.time t gl r .loadStore, false) := by
    rw [← hnow]
    refine runRow_ends hentered (by omega) (by omega) hresp hheld hrow (by rwa [htraffic.fitCount]) ?_
    rw [hnow, hglv]
    exact hdying.trans (gloveReady_quiet hgo).2
  refine ⟨rowEnded s.hearth.time t gl r .loadStore, ?_, hquiet, hglv⟩
  simp only [State.tile, hready, hlegal, hnext, hprep, Bool.not_true, Bool.false_eq_true, if_false]
  rw [henter, runSteps_once hentered hunit hturn hrun, sealSweep_of_noGrace ((htraffic.toSameUnits.trans hquiet.toSameUnits).noGrace hgrace)]

end Sys2Proof.RowSteps
end

section
/-!
The address map (R12-R14), region by region: where addresses lead, and the canonical addresses of the bytes of a page.
-/
namespace Sys2Proof.AddressMap
open Sys2Proof.Machine

variable {s t : State} {a k : Nat}

/-! ### The regions -/

theorem decodeAddr_low (r : Bool) (h : a < 0x10000000) : decodeAddr r a
    = if r then (if a < 0x1000000 then .sram a else .none) else if a < 0x40000 then .rom a else .none := if_pos h

theorem decodeAddr_hall (r : Bool) {o : Nat} (h : o < 0x10000000) : decodeAddr r (0x10000000 + o)
    = if r then (if o < 0x40000 then .rom o else .none) else if o < 0x1000000 then .sram o else .none := by
  unfold decodeAddr
  dsimp only
  rw [if_neg (by omega), if_pos (by omega), Nat.add_sub_cancel_left]

theorem decodeAddr_pantries (r : Bool) (hlo : 0x20000000 ≤ a) (hhi : a < 0x24000000) : decodeAddr r a
    = if a % 0x1000000 < 0x800000 then .pantry (wingNo (a / 0x1000000)) (a % 0x1000000) else .none := by
  unfold decodeAddr
  rw [if_neg (by omega), if_neg (by omega), if_pos hhi]

/-- Between the pantries and the stacks lies no memory. -/
theorem key_between (r : Bool) (hlo : 0x24000000 ≤ a) (hhi : a < 0x1000000000) : (decodeAddr r a).key = none := by
  unfold decodeAddr
  rw [if_neg (by omega), if_neg (by omega), if_neg (by omega)]
  repeat' split
  all_goals rfl

theorem decodeAddr_stacks (r : Bool) (hlo : 0x1000000000 ≤ a) (hhi : a < 0x2000000000) :
    decodeAddr r a = .hbm (wingNo (a / 2 ^ 34)) (a % 2 ^ 34) := by
  unfold decodeAddr
  rw [if_neg (by omega), if_neg (by omega), if_neg (by omega), if_neg (by omega), if_neg (by omega), if_neg (by omega), if_neg (by omega),
    if_neg (by omega), if_pos hhi]

/-- Above the stacks their pages stand once more, spread over the wings (R14). -/
theorem decodeAddr_spread (r : Bool) (hlo : 0x2000000000 ≤ a) : decodeAddr r a = if a < 0x3000000000 then
      .hbm (wingNo ((a - 0x2000000000) / 4096)) ((a - 0x2000000000) / 4096 / 4 * 4096 + a % 4096) else .none := by
  unfold decodeAddr
  rw [if_neg (by omega), if_neg (by omega), if_neg (by omega), if_neg (by omega), if_neg (by omega), if_neg (by omega), if_neg (by omega),
    if_neg (by omega), if_neg (by omega)]

/-! ### The bytes of a page -/

theorem key_sram_add {o i : Nat} (h : (Tgt.sram o).key = some k) : (Tgt.sram (o + i)).key = some (k + i) := by
  rw [← Option.some.inj h, Nat.add_assoc]
  rfl

theorem key_pantry_add {x : WingIx} {o i : Nat} (h : (Tgt.pantry x o).key = some k) : (Tgt.pantry x (o + i)).key = some (k + i) := by
  rw [← Option.some.inj h, Nat.add_assoc]
  rfl

theorem key_hbm_add {x : WingIx} {o i : Nat} (h : (Tgt.hbm x o).key = some k) : (Tgt.hbm x (o + i)).key = some (k + i) := by
  rw [← Option.some.inj h, Nat.add_assoc]
  rfl

/-- The canonical addresses of a 4 KiB page are consecutive: the regions of R12 and the granules of R14 begin on its boundaries. -/
theorem key_add_in_page {r : Bool} {i : Nat} (hpage : (a + i) / 4096 = a / 4096) (hk : (decodeAddr r a).key = some k) :
    (decodeAddr r (a + i)).key = some (k + i) := by
  rcases Nat.lt_or_ge a 0x10000000 with hlow | hlow
  · rw [decodeAddr_low r hlow] at hk
    rw [decodeAddr_low r (by omega)]
    cases r
    · simp only [Bool.false_eq_true, if_false] at hk
      split at hk <;> cases hk
    · simp only [if_true] at hk ⊢
      split at hk
      · rw [if_pos (by omega)]
        exact key_sram_add hk
      · cases hk
  rcases Nat.lt_or_ge a 0x20000000 with hhall | hhall
  · obtain ⟨o, rfl⟩ := Nat.exists_eq_add_of_le hlow
    rw [decodeAddr_hall r (by omega)] at hk
    rw [Nat.add_assoc, decodeAddr_hall r (by omega)]
    cases r
    · simp only [Bool.false_eq_true, if_false] at hk ⊢
      split at hk
      · rw [if_pos (by omega)]
        exact key_sram_add hk
      · cases hk
    · simp only [if_true] at hk
      split at hk <;> cases hk
  rcases Nat.lt_or_ge a 0x24000000 with hpantry | hpantry
  · rw [decodeAddr_pantries r hhall hpantry] at hk
    rw [decodeAddr_pantries r (by omega) (by omega)]
    have hwing : (a + i) / 0x1000000 = a / 0x1000000 := by omega
    have hoff : (a + i) % 0x1000000 = a % 0x1000000 + i := by omega
    split at hk
    · rw [if_pos (by omega), hwing, hoff]
      exact key_pantry_add hk
    · cases hk
  rcases Nat.lt_or_ge a 0x1000000000 with hbelow | hbelow
  · rw [key_between r hpantry hbelow] at hk
    cases hk
  rcases Nat.lt_or_ge a 0x2000000000 with hstack | hstack
  · rw [decodeAddr_stacks r hbelow hstack] at hk
    have hwing : (a + i) / 2 ^ 34 = a / 2 ^ 34 := by omega
    have hoff : (a + i) % 2 ^ 34 = a % 2 ^ 34 + i := by omega
    rw [decodeAddr_stacks r (by omega) (by omega), hwing, hoff]
    exact key_hbm_add hk
  · rw [decodeAddr_spread r hstack] at hk
    have hgranule : (a + i - 0x2000000000) / 4096 = (a - 0x2000000000) / 4096 := by omega
    have hoff : (a + i) % 4096 = a % 4096 + i := by omega
    rw [decodeAddr_spread r (by omega), hgranule, hoff, ← Nat.add_assoc]
    split at hk
    · rw [if_pos (by omega)]
      exact key_hbm_add hk
    · cases hk

theorem physByte_of_key (hk : (decodeAddr s.hall.remap a).key = some k) : s.physByte a = cellGet s.mem.cells k := by
  unfold State.physByte State.byteAt
  split
  · rename_i o ho
    rw [ho] at hk
    cases hk
  · rw [hk]

theorem physByte_congr (hhall : t.hall = s.hall) (hmem : t.mem = s.mem) (x : Nat) : t.physByte x = s.physByte x := by
  simp only [State.physByte, State.byteAt, hhall, hmem]

end Sys2Proof.AddressMap
end

section
/-!
`sld` and `sst` (R137): the bytes at a scalar address, what a store leaves of them, the value that a load extends, and both instructions run
to their end.
-/
namespace Sys2Proof.ScalarAccesses
open Sys2Proof.Machine Sys2Proof.AddressMap Sys2Proof.WingMemories Sys2Proof.GloveInstructions Sys2Proof.ContextSwaps Sys2Proof.GloveCommands
  Sys2Proof.GloveTransactions Sys2Proof.RowSteps

variable {s t : State} {gl : GloveRef} {w : JFields} {a n k : Nat}

/-! ### Where an access leads (R12, R326) -/

/-- A write reaches memory only (R12). -/
theorem key_of_decodeRes_write (h : s.decodeRes a .w = .ok ()) : ∃ k, (decodeAddr s.hall.remap a).key = some k := by
  unfold State.decodeRes at h
  cases htgt : decodeAddr s.hall.remap a with
  | sram o => exact ⟨_, rfl⟩
  | pantry x o => exact ⟨_, rfl⟩
  | hbm x o => exact ⟨_, rfl⟩
  | rom o => rw [htgt] at h; cases h
  | reg x => rw [htgt] at h; cases h
  | census x => rw [htgt] at h; cases h
  | none => rw [htgt] at h; cases h

theorem bind_eq_ok {α β : Type} {x : Res α} {f : α → Res β} {b : β} (h : x.bind f = .ok b) : ∃ y, x = .ok y ∧ f y = .ok b := by
  cases x with
  | ok y => exact ⟨y, rfl, h⟩
  | fault c => cases h
  | stall v => cases h

/-- An access that goes to memory has passed the map at each of its pages. -/
theorem gloveCheck_mem {p : Perm} (hn : 0 < n) (h : s.gloveCheck gl a n p = .ok .mem) :
    ((Res.all ((spots a n).map fun x => s.decodeRes x p)).bind fun _ => .ok Path.mem) = .ok .mem := by
  unfold State.gloveCheck at h
  dsimp only at h
  rw [if_neg (Nat.pos_iff_ne_zero.1 hn)] at h
  split at h
  · cases h
  · split at h
    · split at h
      · cases h
      · split at h
        · split at h <;> cases h
        · cases h
    · split at h
      · cases h
      · split at h
        · cases h
        · split at h
          · cases h
          · exact h

/-- The first byte of an access whose way leads to memory decodes to what the access needs. -/
theorem decodeRes_of_glovePath {p : Perm} (hn : 0 < n) (h : s.glovePath gl a n p = .ok .mem) : s.decodeRes a p = .ok () := by
  obtain ⟨path, hcheck, hready⟩ := bind_eq_ok h
  obtain ⟨-, -, hpath⟩ := bind_eq_ok hready
  cases hpath
  obtain ⟨l, hl, -⟩ := bind_eq_ok (gloveCheck_mem hn hcheck)
  rw [spots, if_neg (Nat.pos_iff_ne_zero.1 hn), List.map_cons, Res.all] at hl
  obtain ⟨⟨⟩, hfirst, -⟩ := bind_eq_ok hl
  exact hfirst

/-! ### Accepted writes read back (R45-R47) -/

/-- What an accepted write leaves at its canonical addresses, when they are consecutive and no window's shadow holds one of them. -/
theorem accWrite_physByte (src : AccSrc) {bs : List Byte} (hwf : Memory.wf s.mem = true)
    (hkeys : ∀ i < bs.length, (decodeAddr s.hall.remap (a + i)).key = some (k + i))
    (hshadow : ∀ x ∈ s.keysOf a bs.length, ¬s.inShadow x) (i : Nat) (hi : i < bs.length) :
    (s.accWrite src a bs).physByte (a + i) = bs[i] := by
  have hsnoop := snoopWrite_wrote s (s.keysOf a bs.length)
  have hpoke := poke_wrote (s.snoopWrite (s.keysOf a bs.length)) a bs
  have hunits := hsnoop.toSameUnits.trans hpoke.toSameUnits
  have hhere : k + i ∈ s.keysOf a bs.length := List.mem_filterMap.2 ⟨i, List.mem_range.2 hi, hkeys i hi⟩
  have hremap : (s.accWrite src a bs).hall = s.hall := (accWrite_wrote s src a bs).hall
  rw [physByte_of_key (k := k + i) (by rw [hremap]; exact hkeys i hi)]
  unfold State.accWrite
  dsimp only
  rw [(accTouch_quiet _ _ _ _).mem, (detRewrite_wrote _ _).cells _ List.not_mem_nil fun _ hb => hshadow _ hhere ((hunits.inShadow _).1 hb)]
  exact cellGet_putBytes bs (wf_iff.1 (hsnoop.wf hwf)).1 (by rwa [hsnoop.hall]) i hi

/-! ### Numbers as bytes -/

theorem getElem_toBytes {i : Nat} : ∀ (n v : Nat) (hi : i < (toBytes n v).length), (toBytes n v)[i] = BitVec.ofNat 8 (v >>> (8 * i)) := by
  induction i with
  | zero =>
    intro n v hi
    cases n with
    | zero => cases hi
    | succ n => rfl
  | succ i ih =>
    intro n v hi
    cases n with
    | zero => cases hi
    | succ n =>
      have hstep := ih n (v / 256) (by simpa using hi)
      have hshift : v >>> (8 * (i + 1)) = (v / 256) >>> (8 * i) := by
        rw [show 8 * (i + 1) = 8 + 8 * i by omega, Nat.shiftRight_add, Nat.shiftRight_eq_div_pow v 8]
      rw [hshift]
      exact hstep

theorem ofBytes_lt (bs : List Byte) : ofBytes bs < 2 ^ (8 * bs.length) := by
  induction bs with
  | nil => decide
  | cons b bs ih =>
    have hb := b.isLt
    rw [ofBytes, List.length_cons, Nat.mul_succ, Nat.pow_add]
    omega

/-- The 64-bit value of the bytes that a row holds. -/
theorem truncate_rowOfBytes (v : Nat) : (rowOfBytes (toBytes 8 v)).truncate 64 = BitVec.ofNat 64 v :=
  BitVec.eq_of_toNat_eq (by
    rw [rowOfBytes, ofBytes_toBytes, BitVec.truncate_eq_setWidth, BitVec.toNat_setWidth, BitVec.toNat_ofNat, BitVec.toNat_ofNat]
    omega)

theorem ofNat_unsgn (i : Int) : BitVec.ofNat 64 (unsgn 64 i) = BitVec.ofInt 64 i :=
  BitVec.eq_of_toNat_eq (by
    rw [unsgn, BitVec.toNat_ofNat, BitVec.toNat_ofInt]
    omega)

/-- What `sld` extends its bytes to. -/
theorem ofNat_extendLoad (w : JFields) {bs : List Byte} (hlen : bs.length = 2 ^ imf w 1 0) :
    BitVec.ofNat 64 (extendLoad w bs) = if flag52 w ∨ ofBytes bs < 2 ^ (8 * 2 ^ imf w 1 0 - 1) then BitVec.ofNat 64 (ofBytes bs)
      else BitVec.ofInt 64 ((ofBytes bs : Int) - 2 ^ (8 * 2 ^ imf w 1 0)) := by
  have hlt : ofBytes bs < 2 ^ (8 * 2 ^ imf w 1 0) := hlen ▸ ofBytes_lt bs
  unfold extendLoad
  dsimp only
  by_cases hu : flag52 w = true
  · rw [if_pos hu, if_pos (Or.inl hu)]
  · rw [if_neg hu, ofNat_unsgn, sgn, Nat.mod_eq_of_lt hlt]
    by_cases hv : ofBytes bs < 2 ^ (8 * 2 ^ imf w 1 0 - 1)
    · rw [if_pos hv, if_pos (Or.inr hv), BitVec.ofInt_natCast]
    · rw [if_neg hv, if_neg (not_or.2 ⟨hu, hv⟩)]

/-! ### Writes through a glove -/

/-- The state after a write of a glove to memory. -/
def writeOn (s : State) (gl : GloveRef) (a : Nat) (bs : List Byte) : State :=
  (s.noteReqs gl a bs.length true).accWrite (s.gloveSrc gl a) a bs

theorem gloveWrite_mem {bs : List Byte} (hpath : s.glovePath gl a bs.length .w = .ok .mem) (hheld : s.hall.held = []) :
    s.gloveWrite gl a bs = .ok (writeOn s gl a bs) := by
  rw [State.gloveWrite, hpath, Res.bind]
  simp only [heldLine_nil s hheld]
  rfl

theorem writeOn_traffic (s : State) (gl : GloveRef) (a : Nat) (bs : List Byte) : SameTraffic s (writeOn s gl a bs) :=
  (modGlv_traffic s gl _ rfl).trans (accWrite_traffic _ _ _ _)

/-- A write leaves the glove but for the transactions noted. -/
theorem writeOn_glv (s : State) (gl : GloveRef) (a : Nat) (bs : List Byte) :
    (writeOn s gl a bs).glv gl = { s.glv gl with reqs := (s.glv gl).reqs ++ reqsOf a bs.length true } := by
  rw [writeOn, accWrite_glv, State.noteReqs, modGlv_glv]

theorem writeOn_wrote (s : State) (gl : GloveRef) (a : Nat) (bs : List Byte) : Wrote (s.keysOf a bs.length) s (writeOn s gl a bs) :=
  ((modGlv_quiet s gl _).wrote _).trans (accWrite_wrote (s.noteReqs gl a bs.length true) _ a bs)

theorem writeOn_physByte {bs : List Byte} (hwf : Memory.wf s.mem = true)
    (hkeys : ∀ i < bs.length, (decodeAddr s.hall.remap (a + i)).key = some (k + i))
    (hshadow : ∀ x ∈ s.keysOf a bs.length, ¬s.inShadow x) (i : Nat) (hi : i < bs.length) :
    (writeOn s gl a bs).physByte (a + i) = bs[i] :=
  accWrite_physByte (s := s.noteReqs gl a bs.length true) _ hwf hkeys hshadow i hi

theorem readOn_traffic (s : State) (gl : GloveRef) (a k : Nat) : SameTraffic s (readOn s gl a k) :=
  (accTouch_traffic s _ _ _).trans (modGlv_traffic _ gl _ rfl)

/-! ### Both instructions run to their end (R137) -/

/-- The conditions under which `sld` and `sst` go on alone and their access at address a reaches memory. -/
structure ScalarAccess (s : State) (gl : GloveRef) (op : TOp) (w : JFields) (a : Nat) (p : Perm) (write : Bool) : Prop where
  enters : s.mayEnter gl op w []
  empty : (s.glv gl).inflight = []
  alone : s.alone gl
  calm : s.noGrace
  addr : scalarAddr (s.glv gl) w = .ok a
  path : s.glovePath gl a (2 ^ imf w 1 0) p = .ok .mem
  free : s.accessFree gl a (2 ^ imf w 1 0) write

/-- A scalar access is naturally aligned, so it stays in its 4 KiB page. -/
theorem page_of_scalarAddr {g : Glove} (h : scalarAddr g w = .ok a) {i : Nat} (hi : i < 2 ^ imf w 1 0) : (a + i) / 4096 = a / 4096 := by
  unfold scalarAddr at h
  dsimp only at h
  split at h
  · cases h
  · split at h
    · cases h
    · rename_i hrange halign
      have ha := Res.ok.inj h
      have hsize : imf w 1 0 < 4 := Nat.mod_lt _ (by decide)
      generalize imf w 1 0 = m at *
      obtain rfl | rfl | rfl | rfl : m = 0 ∨ m = 1 ∨ m = 2 ∨ m = 3 := by omega
      all_goals
        simp only [Nat.reducePow] at hi hrange halign
        omega

theorem scalarAddr_congr {g h : Glove} (hs : g.s = h.s) (w : JFields) : scalarAddr g w = scalarAddr h w := by
  simp only [scalarAddr, sreg_congr hs]

section
variable {op : TOp} {p : Perm} {write : Bool} (h : ScalarAccess s gl op w a p write)
include h

/-- In the state in which the row step runs the address is the same, and the way leads to memory. -/
theorem ScalarAccess.atRow_addr : scalarAddr ((atRow s gl op w []).glv gl) w = .ok a := by
  rw [scalarAddr_congr (h := s.glv gl) (by rw [atRow_glv])]
  exact h.addr

theorem ScalarAccess.atRow_path : (atRow s gl op w []).glovePath gl a (2 ^ imf w 1 0) p = .ok .mem :=
  (atRow_traffic s gl op w []).glovePath h.path

theorem ScalarAccess.atRow_held : (atRow s gl op w []).hall.held = [] := by
  rw [(atRow_traffic s gl op w []).hall]
  exact h.free.2

end

/-- A glove after the only instruction in flight has run to its end: what its row step has left of the registers, and the next PC. -/
def afterOnly (now : Word) (g : Glove) : Glove :=
  { g with pc := g.pc + 8, inflight := [], reqs := [], progressAt := now, trow := 0, resuming := false }

theorem afterOnly_sameRegs (now : Word) (g : Glove) : (afterOnly now g).sameRegs (fun _ => False) (fun _ => False) g :=
  ⟨fun _ _ => rfl, fun _ _ => rfl, rfl, rfl⟩

/-- The bytes of S[b] that `sst` writes. -/
def storeBytes (g : Glove) (w : JFields) : List Byte := toBytes (2 ^ imf w 1 0) (g.sreg (sNum w.b)).toNat

theorem storeBytes_length (g : Glove) (w : JFields) : (storeBytes g w).length = 2 ^ imf w 1 0 := toBytes_length _ _

theorem ScalarAccess.store (h : ScalarAccess s gl .sst w a .w true) : ∃ u, exec (.sst gl w ⟨1, false⟩) s = .next u
    ∧ Quiet (writeOn (atRow s gl .sst w []) gl a (storeBytes (s.glv gl) w)) u ∧ u.glv gl = afterOnly s.hearth.time (s.glv gl) := by
  have hpath := h.atRow_path
  rw [← storeBytes_length (s.glv gl) w] at hpath
  have hglv := writeOn_glv (atRow s gl .sst w []) gl a (storeBytes (s.glv gl) w)
  rw [storeBytes_length, atRow_glv, h.empty] at hglv
  have hbytes : storeBytes ((atRow s gl .sst w []).glv gl) w = storeBytes (s.glv gl) w := by
    rw [storeBytes, sreg_congr (g' := s.glv gl) (by rw [atRow_glv]), storeBytes]
  have hrow : rowOp (atRow s gl .sst w []) gl (newRec (s.glv gl) .sst w false [])
      = .ok (writeOn (atRow s gl .sst w []) gl a (storeBytes (s.glv gl) w)) (newRec (s.glv gl) .sst w false []).next := by
    change faultAt _ none (scalarAddr ((atRow s gl .sst w []).glv gl) w) (fun a => faultAt _ none
      ((atRow s gl .sst w []).gloveWrite gl a (storeBytes ((atRow s gl .sst w []).glv gl) w)) _) = _
    rw [h.atRow_addr, hbytes, faultAt, gloveWrite_mem hpath h.atRow_held, faultAt]
    rfl
  obtain ⟨u, hu, hquiet, hend⟩ := tile_movesOne (by simp [movesOne]) h.enters h.empty h.alone h.calm hrow (by rw [hglv]; rfl) (by rw [hglv])
    ((atRow_traffic s gl .sst w []).trans (writeOn_traffic _ gl a _)) (by rw [hglv]; exact h.free.1)
  rw [hglv] at hend
  exact ⟨u, congrArg Host.Outcome.next hu, hquiet, hend⟩

/-- A write to an S register leaves the rest of the glove. -/
theorem setS_eq (g : Glove) (d : Fin 32) (v : Word) : g.setS d v = { g with s := (g.setS d v).s } := by
  unfold Glove.setS
  split <;> rfl

theorem setS_s_congr {g g' : Glove} (hs : g.s = g'.s) (d : Fin 32) (v : Word) : (g.setS d v).s = (g'.setS d v).s := by
  unfold Glove.setS
  split
  · exact hs
  · exact congrArg (vset · d v) hs

/-- The value that `sld` leaves in S[d]. -/
def loadValue (s : State) (w : JFields) (a : Nat) : Word := BitVec.ofNat 64 (extendLoad w (s.physBytes a (2 ^ imf w 1 0)))

theorem ScalarAccess.load (h : ScalarAccess s gl .sld w a .r false) (hclean : s.poisoned a (2 ^ imf w 1 0) = false) :
    ∃ u, exec (.sld gl w ⟨1, false⟩) s = .next u ∧ u.mem = s.mem
      ∧ u.glv gl = afterOnly s.hearth.time ((s.glv gl).setS (sNum w.d) (loadValue s w a)) := by
  have hat := atRow_traffic s gl .sld w []
  have hread := gloveRead_mem h.atRow_path h.atRow_held
  rw [poisoned_congr hat.hall (atRow_mem s gl .sld w []), hclean, physBytes_congr hat.hall (atRow_mem s gl .sld w [])] at hread
  have hglv := readOn_glv (atRow s gl .sld w []) gl a (2 ^ imf w 1 0)
  rw [atRow_glv, h.empty] at hglv
  have hquiet := readOn_quiet (atRow s gl .sld w []) gl a (2 ^ imf w 1 0)
  have htraffic := hat.trans (readOn_traffic (atRow s gl .sld w []) gl a (2 ^ imf w 1 0))
  generalize readOn (atRow s gl .sld w []) gl a (2 ^ imf w 1 0) = t at *
  have hdata : t.writeDest gl (.sreg (sNum w.d)) (rowOfBytes (toBytes 8 (extendLoad w (s.physBytes a (2 ^ imf w 1 0)))))
      = t.modGlv gl fun g => g.setS (sNum w.d) (loadValue s w a) := by
    rw [State.writeDest, truncate_rowOfBytes]
    rfl
  have hrow : rowOp (atRow s gl .sld w []) gl (newRec (s.glv gl) .sld w false [])
      = .ok (t.modGlv gl fun g => g.setS (sNum w.d) (loadValue s w a)) (newRec (s.glv gl) .sld w false []).next := by
    change faultAt _ none (scalarAddr ((atRow s gl .sld w []).glv gl) w) (fun a => faultAt _ none
      ((atRow s gl .sld w []).gloveRead gl a (2 ^ imf w 1 0)) _) = _
    rw [h.atRow_addr, faultAt, hread, faultAt, ← hdata]
    rfl
  have hset := modGlv_glv t gl fun g => g.setS (sNum w.d) (loadValue s w a)
  rw [setS_eq, setS_s_congr (g' := s.glv gl) (by rw [hglv]), hglv] at hset
  have htraffic := htraffic.trans (modGlv_traffic t gl (fun g => g.setS (sNum w.d) (loadValue s w a)) (by rw [setS_eq]; rfl))
  obtain ⟨u, hu, hended, hend⟩ := tile_movesOne (by simp [movesOne]) h.enters h.empty h.alone h.calm hrow (by rw [hset]; rfl) (by rw [hset])
    htraffic (by rw [hset]; exact h.free.1)
  refine ⟨u, congrArg Host.Outcome.next hu, ?_, ?_⟩
  · rw [hended.mem, modGlv_mem, hquiet.mem, atRow_mem]
  · rw [hend, hset, setS_eq (s.glv gl)]
    rfl

theorem afterOnly_setS (now : Word) (g : Glove) (d : Fin 32) (v : Word) :
    (afterOnly now (g.setS d v)).pc = g.pc + 8 ∧ (afterOnly now (g.setS d v)).sreg d = (if d = 0 then 0 else v)
      ∧ (afterOnly now (g.setS d v)).sameRegs (· = d) (fun _ => False) g := by
  refine ⟨?_, setS_sreg g d v, fun m hm => (setS_sreg_ne g d m v hm).symm, ?_⟩
  · rw [setS_eq]; rfl
  · rw [setS_eq]; exact ⟨fun _ _ => rfl, rfl, rfl⟩

/-- What `sst` leaves of memory: its bytes at their addresses, but where a window's shadow follows, and no others. -/
theorem ScalarAccess.store_memory (h : ScalarAccess s gl .sst w a .w true) (hwf : Memory.wf s.mem = true)
    (hquiet : Quiet (writeOn (atRow s gl .sst w []) gl a (storeBytes (s.glv gl) w)) u) :
    ((∀ k ∈ s.keysOf a (2 ^ imf w 1 0), ¬s.inShadow k) → ∀ i < 2 ^ imf w 1 0,
      u.physByte (a + i) = ((s.glv gl).sreg (sNum w.b)).extractLsb' (8 * i) 8) ∧ s.sameBut u (s.keysOf a (2 ^ imf w 1 0)) := by
  have hlen := storeBytes_length (s.glv gl) w
  have hat : Quiet s (atRow s gl .sst w []) := ⟨(atRow_traffic s gl .sst w []).toSameUnits, atRow_mem s gl .sst w []⟩
  have hsame (n : Nat) : (atRow s gl .sst w []).keysOf a n = s.keysOf a n := keysOf_congr hat.hall a n
  constructor
  · intro hshadow i hi
    obtain ⟨k, hk⟩ := key_of_decodeRes_write (decodeRes_of_glovePath (Nat.two_pow_pos _) h.path)
    have hkeys : ∀ j < (storeBytes (s.glv gl) w).length, (decodeAddr (atRow s gl .sst w []).hall.remap (a + j)).key = some (k + j) := by
      rw [hlen, hat.hall]
      exact fun j hj => key_add_in_page (page_of_scalarAddr h.addr hj) hk
    have hclear : ∀ x ∈ (atRow s gl .sst w []).keysOf a (storeBytes (s.glv gl) w).length, ¬(atRow s gl .sst w []).inShadow x := by
      rw [hlen, hsame]
      exact fun x hx hb => hshadow x hx ((hat.toSameUnits.inShadow x).1 hb)
    calc u.physByte (a + i)
        = (writeOn (atRow s gl .sst w []) gl a (storeBytes (s.glv gl) w)).physByte (a + i) := physByte_congr hquiet.hall hquiet.mem _
      _ = (storeBytes (s.glv gl) w)[i] := writeOn_physByte (by rwa [hat.mem]) hkeys hclear i (hlen ▸ hi)
      _ = ((s.glv gl).sreg (sNum w.b)).extractLsb' (8 * i) 8 := getElem_toBytes _ _ _
  · have hwrote := writeOn_wrote (atRow s gl .sst w []) gl a (storeBytes (s.glv gl) w)
    rw [hlen, hsame] at hwrote
    exact (((hat.wrote _).trans hwrote).trans (hquiet.wrote _)).sameBut

/-- Settles O17: a store's bytes stand at its consecutive canonical addresses, a load's are extended into S[d]. -/
theorem scalarStoresAndLoads : Obligations.ScalarStoresAndLoads := by
  unfold Obligations.ScalarStoresAndLoads
  constructor
  · intro s gl w a henter hempty halone hcalm haddr n hpath hfree hwf
    have h : ScalarAccess s gl .sst w a .w true := ⟨henter, hempty, halone, hcalm, haddr, hpath, hfree⟩
    obtain ⟨u, hexec, hquiet, hglv⟩ := h.store
    obtain ⟨hbytes, hothers⟩ := h.store_memory hwf hquiet
    refine ⟨u, hexec, ?_⟩
    rw [hglv]
    exact ⟨rfl, rfl, hbytes, hothers, afterOnly_sameRegs _ _⟩
  · intro s gl w a henter hempty halone hcalm haddr n hpath hfree hclean v
    have h : ScalarAccess s gl .sld w a .r false := ⟨henter, hempty, halone, hcalm, haddr, hpath, hfree⟩
    obtain ⟨u, hexec, hmem, hglv⟩ := h.load hclean
    have hlen : (s.physBytes a n).length = 2 ^ imf w 1 0 := by simp [State.physBytes, n]
    obtain ⟨hpc, hsreg, hregs⟩ := afterOnly_setS s.hearth.time (s.glv gl) (sNum w.d) (loadValue s w a)
    refine ⟨u, hexec, ?_⟩
    rw [hglv]
    refine ⟨rfl, hpc, ?_, hregs, hmem⟩
    rw [hsreg, loadValue, ofNat_extendLoad w hlen]

end Sys2Proof.ScalarAccesses
end

section
/-!
Elementwise vector instructions (R61, R146): what reading and writing rows leaves of the registers, a row step that makes no access, and the
row that such a step computes.
-/
namespace Sys2Proof.VectorRows
open Sys2Proof.Machine Sys2Proof.WingMemories Sys2Proof.GloveInstructions Sys2Proof.ContextSwaps Sys2Proof.GloveFences Sys2Proof.RowSteps

variable {s t u : State} {gl : GloveRef} {op : TOp} {w : JFields} {r : Rec} {g h : Glove} {x : UnitName}

/-! ### Rows of a tile register (R57, R58) -/

theorem bitAt_or_bit (v : BitVec 64) (i k : Fin 64) :
    bitAt (v ||| ((1 <<< i.val : Nat) : BitVec 64)) k.val = (bitAt v k.val || decide (k = i)) := by
  have hbit : ((1 <<< i.val : Nat) : BitVec 64).getLsbD k.val = decide (k = i) := by
    rw [BitVec.natCast_eq_ofNat, BitVec.getLsbD_ofNat, decide_eq_true k.isLt, Bool.true_and, Nat.one_shiftLeft, Nat.testBit_two_pow]
    exact decide_eq_decide.2 (by omega)
  rw [bitAt, BitVec.getLsbD_or, hbit]
  rfl

theorem setRow_row (t : Tile) (i : Fin 64) (v : Row) : (t.setRow i v).row i = v := by
  simp only [Tile.row, Tile.setRow, bitAt_or_bit, decide_true, Bool.or_true, Bool.and_self, if_true]
  exact vset_get t.rows i v

/-- Rows that no write has reached stay; they read as zero when the write makes the register valid. -/
theorem setRow_row_ne (t : Tile) {i k : Fin 64} (h : k ≠ i) (v : Row) : (t.setRow i v).row k = t.row k := by
  simp only [Tile.row, Tile.setRow, bitAt_or_bit, decide_eq_false h, Bool.or_false, Bool.true_and]
  cases t.valid with
  | true => simp only [if_true, Bool.true_and, vset_get_ne _ _ _ _ h]
  | false => rw [if_neg Bool.false_ne_true, if_neg (by simp [bitAt]), Bool.false_and, if_neg Bool.false_ne_true]

/-! ### What writing and reading rows leaves of a glove (R58, R64) -/

/-- A glove apart from its tiles, accumulators, latches and B buffer. -/
def apartFromRows (g : Glove) : Glove :=
  { g with tile := Vector.replicate 16 Tile.empty, acc := Vector.replicate 4 Tile.empty, latchA := none, latchB := none, bbuf := none }

/-- The registers of two gloves read alike: the same rows, and the same rows with a double-bit error. -/
structure SameRows (g h : Glove) : Prop where
  apart : apartFromRows h = apartFromRows g
  row : ∀ c i, (h.tileOf c).row i = (g.tileOf c).row i
  bad : ∀ c, (h.tileOf c).bad = (g.tileOf c).bad

theorem SameRows.refl (g : Glove) : SameRows g g := ⟨rfl, fun _ _ => rfl, fun _ => rfl⟩

theorem SameRows.trans {k : Glove} (hg : SameRows g h) (hh : SameRows h k) : SameRows g k :=
  ⟨hh.apart.trans hg.apart, fun c i => (hh.row c i).trans (hg.row c i), fun c => (hh.bad c).trans (hg.bad c)⟩

/-- Latches and the B buffer hold no register. -/
theorem tileOf_congr (htile : h.tile = g.tile) (hacc : h.acc = g.acc) (c : Cls) : h.tileOf c = g.tileOf c := by
  unfold Glove.tileOf
  rw [htile, hacc]

theorem sameRows_of_eq (hapart : apartFromRows h = apartFromRows g) (htile : h.tile = g.tile) (hacc : h.acc = g.acc) : SameRows g h :=
  ⟨hapart, fun c _ => by rw [tileOf_congr htile hacc], fun c => by rw [tileOf_congr htile hacc]⟩

/-- A corrected register reads as before. -/
theorem vmod_correct_reads {n : Nat} (v : Vector Tile n) (m k : Fin n) (i : Fin 64) :
    (∀ j, ((vmod v m fun t => t.correct i)[k.val]).row j = v[k.val].row j) ∧ ((vmod v m fun t => t.correct i)[k.val]).bad = v[k.val].bad := by
  by_cases hk : k = m
  · subst hk
    rw [vmod_get]
    exact ⟨fun _ => rfl, rfl⟩
  · rw [vmod_get_ne _ _ _ _ hk]
    exact ⟨fun _ => rfl, rfl⟩

theorem correctRow_sameRows (g : Glove) (code : BitVec 6) (i : Fin 64) : SameRows g (g.correctRow code i) := by
  unfold Glove.correctRow
  dsimp only
  split
  · cases clsOf code with
    | t n =>
      have htile (k : Fin 16) := vmod_correct_reads g.tile n k i
      refine ⟨rfl, fun c j => ?_, fun c => ?_⟩
      · cases c with
        | t k => exact (htile k).1 j
        | _ => rfl
      · cases c with
        | t k => exact (htile k).2
        | _ => rfl
    | a n =>
      have hacc (k : Fin 4) := vmod_correct_reads g.acc n k i
      refine ⟨rfl, fun c j => ?_, fun c => ?_⟩
      · cases c with
        | a k => exact (hacc k).1 j
        | _ => rfl
      · cases c with
        | a k => exact (hacc k).2
        | _ => rfl
    | s _ | m _ | bad => exact sameRows_of_eq rfl rfl rfl
  · exact .refl g

/-- An operand row of a register without double-bit errors, read anew. -/
theorem readRow_clean (side : Side) {code : BitVec 6} (hclean : (g.tileOf (clsOf code)).bad = 0) (i : Fin 64) :
    ∃ h, g.readRow side false code i = (some ((g.tileOf (clsOf code)).row i), false, h) ∧ SameRows g h := by
  have hbad : ((g.tileOf (clsOf code)).valid && bitAt (g.tileOf (clsOf code)).bad i.val) = false := by simp [hclean, bitAt]
  have hcorrect := correctRow_sameRows g code i
  unfold Glove.readRow
  dsimp only
  rw [hbad]
  cases side
  · exact ⟨_, rfl, hcorrect.trans (sameRows_of_eq rfl rfl rfl)⟩
  · exact ⟨_, rfl, hcorrect.trans (sameRows_of_eq rfl rfl rfl)⟩

/-- A row written to the tile that a code names. -/
theorem putRow_writes {code : BitVec 6} (hcode : (clsOf code).isT = true) (g : Glove) (i : Fin 64) (v : Row) :
    apartFromRows (g.putRow code i v) = apartFromRows g ∧ ((g.putRow code i v).tileOf (clsOf code)).row i = v
      ∧ ∀ k, k ≠ i → ((g.putRow code i v).tileOf (clsOf code)).row k = (g.tileOf (clsOf code)).row k := by
  unfold Glove.putRow
  cases hc : clsOf code with
  | t n =>
    have htile : (vmod g.tile n fun t => t.setRow i v)[n.val] = g.tile[n.val].setRow i v := vmod_get _ _ _
    refine ⟨rfl, ?_, fun k hk => ?_⟩
    · exact (congrArg (Tile.row · i) htile).trans (setRow_row _ i v)
    · exact (congrArg (Tile.row · k) htile).trans (setRow_row_ne _ hk v)
  | s _ | a _ | m _ | bad => rw [hc] at hcode; cases hcode

/-! ### Updates that leave memory, tenancy and the tick runs -/

/-- Memory, tenancy and the tick runs are the same in two states. -/
structure Still (s t : State) : Prop extends Quiet s t where
  ten : t.ten = s.ten

theorem Still.trans (hs : Still s t) (ht : Still t u) : Still s u := ⟨hs.toQuiet.trans ht.toQuiet, ht.ten.trans hs.ten⟩

theorem modEng_still (s : State) (e : EngIx) (f : Engine → Engine) (htick : (f (s.eng e)).tick = (s.eng e).tick) : Still s (s.modEng e f) :=
  ⟨modEng_quiet s e f htick, rfl⟩

theorem modGlv_still (s : State) (gl : GloveRef) (f : Glove → Glove) : Still s (s.modGlv gl f) := ⟨modGlv_quiet s gl f, rfl⟩

theorem countBusy_still (s : State) (gl : GloveRef) (r r' : Rec) : Still s (s.countBusy gl r r') :=
  ⟨(countBusy_kept s gl r r').1, by unfold State.countBusy; split <;> rfl⟩

theorem moveUnitPtr_still (s : State) (e : EngIx) (x : UnitName) (g : GlvIx) : Still s (s.moveUnitPtr e x g) :=
  ⟨(moveUnitPtr_kept s e x g).1, by unfold State.moveUnitPtr; dsimp only; split <;> rfl⟩

theorem unlockSlot_quiet (s : State) (e : EngIx) (i : Nat) : Quiet s (s.unlockSlot e i) := by
  unfold State.unlockSlot
  split
  · exact modEng_quiet s e _ rfl
  · exact .refl s

theorem freeRec_still (s : State) (e : EngIx) (r : Rec) : Still s (s.freeRec e r) := by
  refine ⟨?_, freeRec_ten s e r⟩
  have hslots : ∀ (l : List Nat) (t : State), Quiet t (l.foldl (fun t i => t.unlockSlot e i) t) := fun l => by
    induction l with
    | nil => exact Quiet.refl
    | cons i l ih => exact fun t => (unlockSlot_quiet t e i).trans (ih _)
  unfold State.freeRec State.freeBank
  dsimp only
  split
  · split
    · exact (hslots _ s).trans (modEng_quiet _ e _ rfl)
    · exact hslots _ s
  · exact hslots _ s

/-- The only instruction in flight leaves it. -/
theorem finishRec_leaves (hflight : (s.glv gl).inflight = [r]) : Still s (s.finishRec gl 0)
    ∧ ∃ rows, (s.finishRec gl 0).glv gl = { s.glv gl with inflight := [], trow := 0, resuming := false, spatialRows := rows } := by
  unfold State.finishRec
  rw [hflight]
  dsimp only [List.getElem?_cons_zero]
  refine ⟨(freeRec_still s gl.e r).trans (modGlv_still _ gl _), ?_⟩
  rw [modGlv_glv, freeRec_glv, hflight]
  simp only [bne_self_eq_false, Bool.and_false]
  exact ⟨_, rfl⟩

/-! ### A row step that makes no access (R61-R63) -/

/-- A glove after a row step of the only instruction in flight, which leaves after its last. -/
structure Stepped (r : Rec) (g h : Glove) : Prop where
  inflight : h.inflight = if r.row + 1 = r.rows then [] else [r.next]
  pc : h.pc = g.pc
  kind : h.kind = g.kind
  tileOf : ∀ c, h.tileOf c = g.tileOf c

/-- A row step that has noted no transaction asks for none. -/
theorem harvest_idle (hreqs : (t.glv gl).reqs = []) : t.harvest gl r r.next = some r.next := by
  unfold State.harvest
  rw [hreqs]
  simp [Rec.next]

/-- The only instruction in flight runs a row step without accesses, whose effect has left t. -/
theorem runRow_without_access (x : UnitName) (hflight : (s.glv gl).inflight = [r]) (hrow : r.row < r.rows) (hresp : r.resp = [])
    (hop : rowOp (s.clearReqs gl) gl r = .ok t r.next) (hkept : (t.glv gl).inflight = [r]) (hreqs : (t.glv gl).reqs = [])
    (hdying : (t.glv gl).dying = none) :
    Still t (s.runRow gl 0 x).1 ∧ Stepped r (t.glv gl) ((s.runRow gl 0 x).1.glv gl) := by
  have hstep : s.stepRec gl 0 = if r.next.finished then .done ((RowSteps.rowDone s.hearth.time t gl r).finishRec gl 0)
      else .step (RowSteps.rowDone s.hearth.time t gl r) := by
    unfold State.stepRec
    rw [hflight]
    dsimp only [List.getElem?_cons_zero]
    rw [if_neg (Nat.not_le.2 hrow), hop]
    dsimp only
    rw [harvest_idle hreqs]
    rfl
  have hstill : Still t (RowSteps.rowDone s.hearth.time t gl r) :=
    ((countBusy_still t gl r r.next).trans (modGlv_still _ gl _)).trans ((modGlv_still _ gl _).trans (modGlv_still _ gl _))
  obtain ⟨-, hglv⟩ := rowDone_kept s.hearth.time hkept
  generalize RowSteps.rowDone s.hearth.time t gl r = v at hstep hstill hglv
  unfold State.runRow
  rw [hstep]
  by_cases hlast : r.row + 1 = r.rows
  · have hfinished : r.next.finished = true := by simp [Rec.finished, Rec.next, hlast, hresp]
    obtain ⟨hleft, rows, hend⟩ := finishRec_leaves (s := v) (gl := gl) (r := r.next) (by rw [hglv])
    have hptr := moveUnitPtr_kept (v.finishRec gl 0) gl.e x gl.g
    have hlives : ((v.finishRec gl 0).moveUnitPtr gl.e x gl.g).dieCheck gl = (v.finishRec gl 0).moveUnitPtr gl.e x gl.g := by
      unfold State.dieCheck
      rw [hptr.2, hend, hglv]
      dsimp only
      rw [hdying]
    rw [if_pos hfinished]
    dsimp only
    rw [hlives]
    refine ⟨(hstill.trans hleft).trans (moveUnitPtr_still _ _ _ _), ?_⟩
    rw [hptr.2, hend, hglv]
    exact ⟨(if_pos hlast).symm, rfl, rfl, fun _ => rfl⟩
  · have hmore : r.next.finished = false := by
      have : ¬r.rows ≤ r.row + 1 := by omega
      simp [Rec.finished, Rec.next, this]
    rw [hmore]
    refine ⟨hstill.trans (moveUnitPtr_still _ _ _ _), ?_⟩
    change Stepped r (t.glv gl) ((v.moveUnitPtr gl.e x gl.g).glv gl)
    rw [(moveUnitPtr_kept v gl.e x gl.g).2, hglv]
    exact ⟨(if_neg hlast).symm, rfl, rfl, fun _ => rfl⟩

/-! ### The row of an elementwise instruction (R146) -/

/-- The elementwise instructions of two operands. -/
def elementwise (op : TOp) : Prop :=
  op = .vadd ∨ op = .vsub ∨ op = .vmul ∨ op = .vmin ∨ op = .vmax ∨ op = .vand ∨ op = .vor ∨ op = .vxor ∨ op = .vsh

/-- Both operands are tile rows that are read anew, and the whole row of a tile is written. -/
structure PlainRows (g : Glove) (w : JFields) : Prop where
  noScalar : flag52 w = false
  unmasked : flag53 w = false
  freshA : reuseA w = false
  freshB : reuseB w = false
  dest : (clsOf w.d).isT = true
  cleanA : (g.tileOf (clsOf w.a)).bad = 0
  cleanB : (g.tileOf (clsOf w.b)).bad = 0

theorem PlainRows.congr (hplain : PlainRows g w) (htile : ∀ c, h.tileOf c = g.tileOf c) : PlainRows h w :=
  { hplain with cleanA := (congrArg Tile.bad (htile _)).trans hplain.cleanA, cleanB := (congrArg Tile.bad (htile _)).trans hplain.cleanB }

/-- A row of the register that a code names. -/
def codeRow (g : Glove) (code : BitVec 6) (i : Fin 64) : Row := (g.tileOf (clsOf code)).row i

/-- Row i of an elementwise instruction: its operation on the elements of row i of ta and tb, and of td. -/
def vecRow (g : Glove) (op : TOp) (w : JFields) (i : Fin 64) : Row :=
  let b := (tyOf w).bits
  rowOf b fun j => vecElt op (tyOf w) (imb w 8) (elt (codeRow g w.a i) b j) (elt (codeRow g w.b i) b j) (elt (codeRow g w.d i) b j)

/-- Reading an operand row leaves every register as it reads. -/
theorem operandRow_clean (side : Side) {code : BitVec 6} (hclean : ((s.glv gl).tileOf (clsOf code)).bad = 0) (k : Nat) :
    ∃ t, s.operandRow gl side false code k = some (codeRow (s.glv gl) code (row64 k), t) ∧ Still s t ∧ SameRows (s.glv gl) (t.glv gl) := by
  obtain ⟨h, hread, hrows⟩ := readRow_clean side hclean (row64 k)
  refine ⟨s.modGlv gl fun _ => h, ?_, modGlv_still s gl _, ?_⟩
  · unfold State.operandRow
    rw [hread]
    rfl
  · rw [modGlv_glv]
    exact hrows

theorem rowOp_elementwise (hop : elementwise r.op) (s : State) (gl : GloveRef) : rowOp s gl r = rowVec s gl r := by
  unfold rowOp
  obtain h | h | h | h | h | h | h | h | h := hop
  all_goals rw [h]

/-- The kind of an elementwise instruction: it runs NROWS row steps on its unit and adds nothing to td. -/
theorem elementwise_kind (hop : elementwise op) :
    op ≠ .vfma ∧ op ≠ .pcomp ∧ op ≠ .tmark ∧ op ≠ .cread ∧ ∀ w, rowsOf op w = (nrows w, 0) := by
  obtain rfl | rfl | rfl | rfl | rfl | rfl | rfl | rfl | rfl := hop
  all_goals exact ⟨nofun, nofun, nofun, nofun, fun _ => rfl⟩

/-- What the effect of an elementwise row step leaves: its row of td, every other row of td, and the rest of the glove. -/
structure RowWritten (s t : State) (gl : GloveRef) (r : Rec) : Prop extends Still s t where
  apart : apartFromRows (t.glv gl) = apartFromRows (s.glv gl)
  row : codeRow (t.glv gl) r.w.d (row64 r.tileRow) = vecRow (s.glv gl) r.op r.w (row64 r.tileRow)
  others : ∀ k, k ≠ row64 r.tileRow → codeRow (t.glv gl) r.w.d k = codeRow (s.glv gl) r.w.d k

/-- The row step reads the rows of ta and tb, then writes the row of td. -/
theorem rowVec_plain (hop : elementwise r.op) (hplain : PlainRows (s.glv gl) r.w) :
    ∃ t, rowVec s gl r = .ok t r.next ∧ RowWritten s t gl r := by
  obtain ⟨hfma, -⟩ := elementwise_kind hop
  obtain ⟨t, hreadA, hstillA, hrowsA⟩ := operandRow_clean .a hplain.cleanA r.tileRow
  obtain ⟨u, hreadB, hstillB, hrowsB⟩ := operandRow_clean .b ((hrowsA.bad _).trans hplain.cleanB) r.tileRow
  have hrows := hrowsA.trans hrowsB
  have hstep : rowVec s gl r = Machine.rowDone u gl r r.tileRow (vecRow (s.glv gl) r.op r.w (row64 r.tileRow)) := by
    unfold rowVec State.vecB
    dsimp only
    rw [hplain.freshA, hreadA]
    dsimp only
    rw [hplain.noScalar, hplain.freshB, if_neg Bool.false_ne_true, hreadB]
    dsimp only
    rw [if_neg fun h => hfma h.1, hplain.unmasked]
    simp only [maskedRow, Bool.false_eq_true, if_false, Glove.destRowOf, codeRow, hrows.row, hrowsA.row, vecRow]
  obtain ⟨hapart, hnew, hothers⟩ := putRow_writes hplain.dest (u.glv gl) (row64 r.tileRow) (vecRow (s.glv gl) r.op r.w (row64 r.tileRow))
  refine ⟨_, hstep, (hstillA.trans hstillB).trans (modGlv_still u gl _), ?_, ?_, fun k hk => ?_⟩
  all_goals rw [modGlv_glv]
  · exact hapart.trans hrows.apart
  · exact hnew
  · exact (hothers k hk).trans (hrows.row _ k)

/-- A state after a row step of an elementwise instruction, the only one in flight. -/
structure RowComputed (s u : State) (gl : GloveRef) (r : Rec) : Prop extends Still s u where
  inflight : (u.glv gl).inflight = if r.row + 1 = r.rows then [] else [r.next]
  pc : (u.glv gl).pc = (s.glv gl).pc
  kind : (u.glv gl).kind = (s.glv gl).kind
  row : codeRow (u.glv gl) r.w.d (row64 r.tileRow) = vecRow (s.glv gl) r.op r.w (row64 r.tileRow)
  others : ∀ k, k ≠ row64 r.tileRow → codeRow (u.glv gl) r.w.d k = codeRow (s.glv gl) r.w.d k

theorem runRow_elementwise (x : UnitName) (hop : elementwise r.op) (hplain : PlainRows (s.glv gl) r.w) (hflight : (s.glv gl).inflight = [r])
    (hrow : r.row < r.rows) (hresp : r.resp = []) (hdying : (s.glv gl).dying = none) : RowComputed s (s.runRow gl 0 x).1 gl r := by
  have hcleared : (s.clearReqs gl).glv gl = { s.glv gl with reqs := [] } := modGlv_glv s gl _
  obtain ⟨t, hstep, hwritten⟩ := rowVec_plain (s := s.clearReqs gl) hop (hplain.congr fun _ => by rw [hcleared]; rfl)
  obtain ⟨hstill, hapart, hnew, hothers⟩ := hwritten
  rw [hcleared] at hapart hnew hothers
  rw [← rowOp_elementwise hop] at hstep
  obtain ⟨hran, hafter⟩ := runRow_without_access x hflight hrow hresp hstep ((congrArg Glove.inflight hapart :).trans hflight)
    (congrArg Glove.reqs hapart :) ((congrArg Glove.dying hapart :).trans hdying)
  have hcode (k : Fin 64) : codeRow ((s.runRow gl 0 x).1.glv gl) r.w.d k = codeRow (t.glv gl) r.w.d k := by
    rw [codeRow, hafter.tileOf, codeRow]
  exact ⟨((modGlv_still s gl _).trans hstill).trans hran, hafter.inflight, hafter.pc.trans (congrArg Glove.pc hapart :),
    hafter.kind.trans (congrArg Glove.kind hapart :), (hcode _).trans hnew, fun k hk => (hcode k).trans (hothers k hk)⟩

/-! ### The vector unit takes the instruction (R61, R62) -/

theorem unitFor_elementwise (hop : elementwise r.op) (s : State) (gl : GloveRef) : s.unitFor gl r = .vector ∧ s.recWaits gl r = false := by
  unfold State.unitFor State.recWaits unitOf
  obtain h | h | h | h | h | h | h | h | h := hop
  all_goals rw [h]; exact ⟨rfl, rfl⟩

/-- The vector unit takes a row step of the only instruction in flight on its engine. -/
theorem nextForUnit_vector (hop : elementwise r.op) (halone : s.alone gl) (hgo : s.stepsGoOn gl = true)
    (hflight : (s.glv gl).inflight = [r]) (hrow : r.row < r.rows) : s.nextForUnit gl.e .vector = some (gl.g, 0) := by
  obtain ⟨hunit, hwaits⟩ := unitFor_elementwise hop s gl
  exact nextForUnit_alone halone hgo (hunit ▸ firstFor_only hflight hrow hwaits)

/-- An instruction that does not complete in its issue slot asks its unit for row steps when it enters flight. -/
theorem enterTile_empty {p : Pace} (hslot : ¬(s.pcompHit gl op w ∨ op = .tmark ∨ op = .cread)) (hempty : (s.glv gl).inflight = [])
    (ds : List Desc) : s.enterTile gl op w p ds = runSteps gl 0 p.steps (inFlight s gl op (newRec (s.glv gl) op w p.held ds)) := by
  unfold State.enterTile
  dsimp only
  rw [if_neg hslot, hempty]
  rfl

theorem runSteps_one (hflight : (s.glv gl).inflight = [r]) (hunit : s.unitFor gl r = x) (hturn : s.nextForUnit gl.e x = some (gl.g, 0)) :
    runSteps gl 0 1 s = (s.runRow gl 0 x).1 := by
  unfold runSteps
  rw [hflight]
  dsimp only [List.getElem?_cons_zero]
  rw [hunit, if_pos hturn]
  exact ite_self _

/-- Entering flight leaves memory, tenancy and the registers. -/
theorem inFlight_still (s : State) (gl : GloveRef) (op : TOp) (r : Rec) : Still s (inFlight s gl op r) := by
  have hissue : Still s (s.issue gl) := ⟨issue_quiet s gl, issue_ten s gl⟩
  exact (hissue.trans (modGlv_still _ gl _)).trans (modGlv_still _ gl _)

/-- An elementwise instruction, alone on its engine, runs its first row step when it issues. -/
theorem tile_elementwise {ds : List Desc} (hop : elementwise op) (henter : s.mayEnter gl op w ds) (hempty : (s.glv gl).inflight = [])
    (halone : s.alone gl) (hgrace : s.noGrace) (hplain : PlainRows (s.glv gl) w) :
    RowComputed (inFlight s gl op (newRec (s.glv gl) op w false ds)) (s.tile gl op w ⟨1, false⟩) gl (newRec (s.glv gl) op w false ds) := by
  obtain ⟨hready, hlegal, hnext, hprep, -⟩ := henter
  have hgo : s.gloveReady gl = true := gloveReady_of_mayIssue ((Bool.and_eq_true _ _).mp hready).1
  obtain ⟨-, hpcomp, hmark, hread, hrowsOf⟩ := elementwise_kind hop
  have hslot : ¬(s.pcompHit gl op w ∨ op = .tmark ∨ op = .cread) := by simp [State.pcompHit, hpcomp, hmark, hread]
  have hrows : 0 < (rowsOf op w).1 := by
    rw [hrowsOf, nrows]
    split
    · decide
    · omega
  have htile : s.tile gl op w ⟨1, false⟩ = (s.enterTile gl op w ⟨1, false⟩ ds).sealSweep := by
    simp only [State.tile, hready, hlegal, hnext, hprep, Bool.not_true, Bool.false_eq_true, if_false]
  rw [htile, enterTile_empty hslot hempty]
  generalize hr : newRec (s.glv gl) op w false ds = r
  obtain ⟨hrop, hrw, hrrow, hrrows, hresp⟩ : r.op = op ∧ r.w = w ∧ r.row = 0 ∧ r.rows = (rowsOf op w).1 ∧ r.resp = [] := by
    subst hr; exact ⟨rfl, rfl, rfl, rfl, rfl⟩
  have hglv := inFlight_glv s gl op r
  rw [hempty] at hglv
  have hflight : ((inFlight s gl op r).glv gl).inflight = [r] := by rw [hglv]; rfl
  have hturn := nextForUnit_vector (r := r) (hrop ▸ hop) (inFlight_alone halone op r) (inFlight_stepsGoOn hgo op r) hflight (by omega)
  have hdone : RowComputed (inFlight s gl op r) ((inFlight s gl op r).runRow gl 0 .vector).1 gl r := by
    refine runRow_elementwise .vector (hrop ▸ hop) ?_ hflight (by omega) hresp (by rw [hglv]; exact (gloveReady_quiet hgo).2)
    rw [hglv, hrw]
    exact hplain.congr fun _ => rfl
  rw [runSteps_one hflight (unitFor_elementwise (hrop ▸ hop) _ gl).1 hturn,
    sealSweep_of_noGrace (((inFlight_still s gl op r).trans hdone.toStill).noGrace hgrace)]
  exact hdone

/-- ROW_STEP_END of the vector unit runs the next row step of the only instruction in flight of a launch. -/
theorem rowStepEnd_elementwise (hop : elementwise r.op) (hgo : s.stepsGoOn gl = true) (halone : s.alone gl)
    (hflight : (s.glv gl).inflight = [r]) (hkind : (s.glv gl).kind = .launch) (hdying : (s.glv gl).dying = none) (hgrace : s.noGrace)
    (hrow : r.row < r.rows) (hresp : r.resp = []) (hplain : PlainRows (s.glv gl) r.w) : RowComputed s (s.rowStepEnd gl.e .vector) gl r := by
  have hdone := runRow_elementwise .vector hop hplain hflight hrow hresp hdying
  have hcopy : (s.runRow gl 0 .vector).1.copyCheck gl = (s.runRow gl 0 .vector).1 := by
    unfold State.copyCheck
    dsimp only
    rw [hdone.kind, hkind]
    rfl
  unfold State.rowStepEnd
  rw [nextForUnit_vector hop halone hgo hflight hrow]
  change RowComputed s ((s.runRow gl 0 .vector).1.copyCheck gl).sealSweep gl r
  rw [hcopy, sealSweep_of_noGrace (hdone.noGrace hgrace)]
  exact hdone

/-- Settles O15: the row step reads a row of ta and of tb and writes the row of td, and its record goes on or leaves. -/
theorem vectorRowsAreComputed : Obligations.VectorRowsAreComputed := by
  unfold Obligations.VectorRowsAreComputed
  constructor
  · intro s gl op w hop henter hempty halone hgrace hone hsb hmask hreuseA hreuseB _ _ hd hbadA hbadB row x y old b i hi
    have hdone := tile_elementwise hop henter hempty halone hgrace ⟨hsb, hmask, hreuseA, hreuseB, hd, hbadA, hbadB⟩
    have hstill := (inFlight_still s gl op (newRec (s.glv gl) op w false [])).trans hdone.toStill
    obtain ⟨-, hinflight, hpc, -, hrow, hothers⟩ := hdone
    rw [inFlight_glv] at hpc hrow hothers
    obtain ⟨-, -, -, -, hrowsOf⟩ := elementwise_kind hop
    obtain ⟨-, -, -, -, hexch⟩ := henter
    have hlast : (newRec (s.glv gl) op w false []).row + 1 = (newRec (s.glv gl) op w false []).rows :=
      by rw [newRec, hrowsOf, hone]
    exact ⟨_, exec_tileCommands _ hexch i hi, hinflight.trans (if_pos hlast), hpc, hrow, hothers, hstill.mem, hstill.ten⟩
  · intro s e g r gl hgo halone hflight hkind hdying hgrace hop hrow hresp hsb hmask hreuseA hreuseB _ _ hd hbadA hbadB row b
    have hdone := rowStepEnd_elementwise (.inl hop) hgo halone hflight hkind hdying hgrace hrow hresp
      ⟨hsb, hmask, hreuseA, hreuseB, hd, hbadA, hbadB⟩
    refine ⟨_, rfl, ?_, hdone.inflight, hdone.mem⟩
    rw [← hop]
    exact hdone.row

end Sys2Proof.VectorRows
end

section
/-!
Instructions of the harts (R240, R258): what an instruction that retires leaves of its hart, words of OP-IMM, `addi` and the
speculation barrier.
-/
namespace Sys2Proof.HartInstructions
open Sys2Proof.Machine

variable {s u : State} {hx : HartIx}

/-! ### Registers of a hart (R240) -/

/-- A register after a write of one: the other registers stay, and x0 is never written. -/
theorem getX_setX (h : Hart) (v : Word) {r : Nat} (hr : r < 32) (n : Nat) :
    (h.setX r v).getX n = if n = r ∧ n ≠ 0 then v else h.getX n := by
  by_cases hr0 : r = 0
  · rw [Hart.setX, if_pos hr0, if_neg fun hnr => hnr.2 (hnr.1.trans hr0)]
  · have hfin : toFin 32 (by omega) r = ⟨r, hr⟩ := dif_pos hr
    rw [Hart.setX, if_neg hr0, hfin]
    by_cases hn0 : n = 0
    · simp [Hart.getX, hn0]
    · by_cases hnr : n = r
      · simp [Hart.getX, vset, hnr, hr0, hr]
      · simp [Hart.getX, vset, hnr, hn0, Ne.symm hnr]

theorem getX_of_x {g h : Hart} (hregs : g.x = h.x) (n : Nat) : g.getX n = h.getX n := by rw [Hart.getX, Hart.getX, hregs]


/-- A single step halts a hart where it is. -/
@[simp] theorem stepped_x (h : Hart) : h.stepped.x = h.x := by unfold Hart.stepped; split <;> rfl
@[simp] theorem stepped_pc (h : Hart) : h.stepped.pc = h.pc := by unfold Hart.stepped; split <;> rfl

/-! ### Retirement (R256, R257) -/

@[simp] theorem retire_x (h : Hart) (npc : Word) : (h.retire npc).x = h.x := by
  unfold Hart.retire
  dsimp only
  split <;> rfl

@[simp] theorem retire_pc (h : Hart) (npc : Word) : (h.retire npc).pc = npc := by
  unfold Hart.retire
  dsimp only
  split <;> rfl

/-- The counters write CSRs alone. -/
@[simp] theorem hpmAdd_x (h : Hart) (ev : Nat → Nat) : (h.hpmAdd ev).x = h.x := by
  unfold Hart.hpmAdd
  refine List.foldlRecOn (motive := fun g : Hart => g.x = h.x) _ _ rfl fun g hg i _ => ?_
  dsimp only
  split <;> exact hg

@[simp] theorem hpmRetire_mem (s : State) (hx : HartIx) (branch : Bool) : (s.hpmRetire hx branch).mem = s.mem := by
  unfold State.hpmRetire
  split <;> rfl

@[simp] theorem hpmRetire_x (s : State) (hx : HartIx) (branch : Bool) : ((s.hpmRetire hx branch).hart hx).x = (s.hart hx).x := by
  unfold State.hpmRetire
  split
  · dsimp only
    rw [modHart_hart, hpmAdd_x]
    rfl
  · rfl

/-- An instruction that retires goes on at `npc`; its retirement changes no x register and no memory. -/
theorem hEnd_ok (hx : HartIx) (enc : Nat) (npc : Word) (t : State) :
    ((State.hEnd hx enc (.ok npc t)).hart hx).pc = npc ∧ ((State.hEnd hx enc (.ok npc t)).hart hx).x = (t.hart hx).x
      ∧ (State.hEnd hx enc (.ok npc t)).mem = t.mem := by
  unfold State.hEnd
  dsimp only
  by_cases hhalted : (t.hart hx).halted = true
  · simp [hhalted]
  · simp [hhalted]

/-! ### The step of a hart (R240) -/

/-- A hart that runs and takes no interrupt executes the word that it fetches. -/
theorem hartStep_of_fetch {enc v : Nat} (hruns : s.hartRuns hx = true) (hwfi : (s.hart hx).wfi = false) (hirq : s.takeIrq hx = none)
    (hfetch : s.hFetch hx enc = .ok v u) : s.hartStep hx enc = State.hEnd hx enc (u.hWord hx enc) := by
  have hwaits : s.hWaits hx = false := by simp [State.hWaits, hwfi]
  simp only [State.hartStep, hruns, hwaits, hwfi, hirq, hfetch, HRes.bind, Bool.not_true, Bool.or_self, Bool.false_eq_true, if_false]

/-! ### Words of OP-IMM (R240) -/

/-- The word of an OP-IMM instruction, from its fields. -/
def opImmWord (imm : BitVec 12) (rs1 : BitVec 5) (f3 : BitVec 3) (rd : BitVec 5) : BitVec 32 :=
  imm ++ (rs1 ++ (f3 ++ (rd ++ (0x13 : BitVec 7))))

section
variable (imm : BitVec 12) (rs1 : BitVec 5) (f3 : BitVec 3) (rd : BitVec 5)

theorem toNat_append_eq_add {n m : Nat} (x : BitVec n) (y : BitVec m) : (x ++ y).toNat = x.toNat * 2 ^ m + y.toNat := by
  rw [BitVec.toNat_append, ← Nat.shiftLeft_add_eq_or_of_lt y.isLt, Nat.shiftLeft_eq]

theorem opImmWord_toNat : (opImmWord imm rs1 f3 rd).toNat
    = imm.toNat * 2 ^ 20 + (rs1.toNat * 2 ^ 15 + (f3.toNat * 2 ^ 12 + (rd.toNat * 2 ^ 7 + 0x13))) := by
  rw [opImmWord, toNat_append_eq_add, toNat_append_eq_add, toNat_append_eq_add, toNat_append_eq_add]
  rfl

/-- An OP-IMM word has 32 bits, and its fields are those that it was made of. -/
theorem opImmWord_fields : let e := (opImmWord imm rs1 f3 rd).toNat
    e % 4 = 3 ∧ iOp e = 0x13 ∧ iRd e = rd.toNat ∧ iF3 e = f3.toNat ∧ iRs1 e = rs1.toNat ∧ iImm12 e = imm.toNat := by
  dsimp only
  rw [opImmWord_toNat]
  have himm := imm.isLt
  have hrs1 := rs1.isLt
  have hf3 := f3.isLt
  have hrd := rd.isLt
  unfold iOp iRd iF3 iRs1 iImm12
  omega

/-- The immediate of an I-type word, sign-extended. -/
theorem rvI_opImmWord : rvI (opImmWord imm rs1 f3 rd).toNat = imm.signExtend 64 := by
  obtain ⟨-, -, -, -, -, himm⟩ := opImmWord_fields imm rs1 f3 rd
  have hsgn : sgn 12 imm.toNat = imm.toInt := by
    have hlt := imm.isLt
    rw [sgn, BitVec.toInt_eq_toNat_cond]
    omega
  rw [rvI, himm, sx, hsgn, BitVec.signExtend]

/-- An OP-IMM word computes its result from x[rs1] and writes x[rd]. -/
theorem hWord_opImmWord (u : State) (hx : HartIx) : u.hWord hx (opImmWord imm rs1 f3 rd).toNat
    = u.retO hx (opImmWord imm rs1 f3 rd).toNat (aluImm (opImmWord imm rs1 f3 rd).toNat ((u.hart hx).getX rs1.toNat))
        ((u.hart hx).pc + 4) := by
  obtain ⟨hlow, hop, -, -, hrs1, -⟩ := opImmWord_fields imm rs1 f3 rd
  generalize (opImmWord imm rs1 f3 rd).toNat = e at *
  rw [State.hWord, if_pos hlow, State.hExec, hop]
  change u.hInt hx e _ = _
  rw [State.hInt, hop, hrs1]
  rfl

variable {imm rs1 f3 rd}

/-- An OP-IMM instruction with a result leaves it in x[rd], which x0 ignores, and goes on at the next word; memory stays. -/
theorem hartStep_opImmWord {v : Nat} {r : Word} (hruns : s.hartRuns hx = true) (hwfi : (s.hart hx).wfi = false)
    (hirq : s.takeIrq hx = none) (hfetch : s.hFetch hx (opImmWord imm rs1 f3 rd).toNat = .ok v u)
    (hresult : aluImm (opImmWord imm rs1 f3 rd).toNat ((u.hart hx).getX rs1.toNat) = some r) :
    let t := s.hartStep hx (opImmWord imm rs1 f3 rd).toNat
    (t.hart hx).pc = (u.hart hx).pc + 4 ∧ t.mem = u.mem
      ∧ ∀ n < 32, (t.hart hx).getX n = if n = rd.toNat ∧ n ≠ 0 then r else (u.hart hx).getX n := by
  obtain ⟨-, -, hrd, -, -, -⟩ := opImmWord_fields imm rs1 f3 rd
  rw [hartStep_of_fetch hruns hwfi hirq hfetch, hWord_opImmWord, hresult]
  dsimp only [State.retO, State.ret]
  rw [hrd]
  obtain ⟨hpc, hregs, hmem⟩ := hEnd_ok hx (opImmWord imm rs1 f3 rd).toNat ((u.hart hx).pc + 4)
    (u.modHart hx fun h => h.setX rd.toNat r)
  refine ⟨hpc, hmem, fun n _ => ?_⟩
  rw [getX_of_x hregs, modHart_hart, getX_setX _ _ rd.isLt]

end

/-! ### Results (R240, R258) -/

theorem aluImm_addi (imm : BitVec 12) (rs1 rd : BitVec 5) (a : Word) :
    aluImm (opImmWord imm rs1 0 rd).toNat a = some (a + imm.signExtend 64) := by
  obtain ⟨-, -, -, hf3, -, -⟩ := opImmWord_fields imm rs1 0 rd
  rw [aluImm, hf3, rvI_opImmWord]
  rfl

theorem aluImm_slti (imm : BitVec 12) (rs1 rd : BitVec 5) (a : Word) :
    aluImm (opImmWord imm rs1 2 rd).toNat a = some (BitVec.ofNat 64 (b2n (a.slt (imm.signExtend 64)))) := by
  obtain ⟨-, -, -, hf3, -, -⟩ := opImmWord_fields imm rs1 2 rd
  rw [aluImm, hf3, rvI_opImmWord]
  rfl

/-- The speculation barrier is `slti x0, x0, 0x5B` (R258). -/
theorem barrier_eq_slti : 0x05B02013 = (opImmWord 0x5B 0 2 0).toNat := rfl

/-- Settles O46: both are OP-IMM words; `addi` leaves its sum, and the barrier's result goes to x0. -/
theorem hartsRunInstructions : Obligations.HartsRunInstructions := by
  unfold Obligations.HartsRunInstructions
  intro s u h v hruns hwfi hirq
  constructor
  · intro rd rs1 imm enc hfetch
    exact ⟨_, rfl, hartStep_opImmWord hruns hwfi hirq hfetch (aluImm_addi imm rs1 rd _)⟩
  · intro hfetch
    rw [barrier_eq_slti] at hfetch
    obtain ⟨hpc, hmem, hregs⟩ := hartStep_opImmWord hruns hwfi hirq hfetch (aluImm_slti 0x5B 0 0 _)
    exact ⟨_, rfl, hpc, hmem, fun n hn => (hregs n hn).trans (if_neg fun hn0 => hn0.2 hn0.1)⟩

end Sys2Proof.HartInstructions
end
